-- ==== Sys2Proof/Word.lean ====
section
/-! DEFINITION. The plain word and index types the model is written over (00 R17 to R20, the index sets of the chapters). -/

namespace Sys2Proof

/-- One byte of a message, a frame, a table or memory. -/
abbrev Byte := BitVec 8

/-- Bytes in the order they travel or stand in memory. -/
abbrev Bytes := List Byte

/-- Head port H0 to H3. -/
abbrev HeadIx := Fin 4
/-- Emitter channel EC0 to EC47. -/
abbrev ChanIx := Fin 48
/-- Ethernet port: 0 is E0, 1 is E1. -/
abbrev PortIx := Fin 2
/-- Host session q, 0 to 3. -/
abbrev SessIx := Fin 4
/-- Receiver session v, 0 to 7. -/
abbrev RxIx := Fin 8
/-- PLL number k of Table 18-1. -/
abbrev PllIx := Fin 20
/-- Physical rope 0 to 33. -/
abbrev RopeIx := Fin 34
/-- Belay loop slot s. -/
abbrev SlotIx := Fin 128
/-- Signature region r = 16h + region. -/
abbrev RegionIx := Fin 64
/-- LPDDR5 channel n = 2m + k. -/
abbrev LpIx := Fin 8

end Sys2Proof
end

