-- ==== Sys2Proof/Syntax.lean ====
section
/-! DEFINITION. The commands the block takes: one constructor of `Instr` per row of the table of operations and events
(95, opcode_table.json). A command's operands are what the rules take from outside the device: an instant, a port, a
pin, the bytes of a frame, a converter's reading. What the device already holds is no operand. -/

namespace Sys2Proof

/-- The two monitored rails (19 Table 19-2). -/
inductive Rail where
  | core   -- VDD_CORE
  | a18    -- VDDA_18
  deriving DecidableEq, Repr

/-- The two interlock pins (11 R570). -/
inductive EnPin where
  | a
  | b
  deriving DecidableEq, Repr

/-- Which key of the key store service boot writes (19 R871). -/
inductive KeySlot where
  | host (q : SessIx)
  | cascade
  deriving DecidableEq, Repr

/-- What a memory read meets in the array: no error, one wrong bit of a word, or more than the code corrects, in a word of its
burst (05 R252, R253). -/
inductive EccErr where
  | none
  | single
  | uncorrectable (word : Fin 8)
  deriving DecidableEq, Repr

/-- A memory requester, in the coding of Table 5-3 byte [21]. -/
inductive Requester where
  | ingress
  | surfaceUnit
  | compositor (h : HeadIx)
  | codec
  | pitch
  | supervisor
  | scrubber
  deriving DecidableEq, Repr

/-- A request to an LPDDR5 channel: a byte range that lies in one 64-byte burst. -/
structure MemReq where
  /-- data address D, or pool address when `pool` -/
  addr  : Nat
  /-- the address is one of the mirror pool (05 R264) -/
  pool  : Bool
  /-- bytes to write; empty for a read -/
  data  : Bytes
  /-- bytes to read; 0 for a write -/
  len   : Nat
  who   : Requester
  /-- what the array returns for the primary copy, and for the mirror copy -/
  err   : EccErr
  errMirror : EccErr
  deriving DecidableEq, Repr

/-- What a port's RS-FEC decoder has met since the frame before (04 R176, R181): corrected codewords, uncorrectable ones, and
whether an uncorrectable one touches the frame. -/
structure Fec where
  corrected     : Nat
  uncorrectable : Nat
  touched       : Bool
  deriving DecidableEq, Repr

/-- An on-chip region that no other command reports (05 Table 5-5): that of the engines is ROPE_FAILURE's, the island's its own. -/
inductive ChipRegion where
  | supervisor
  | codec
  | stripes
  | ingress
  deriving DecidableEq, Repr

/-- An LPDDR5 channel at an instant. -/
structure ChanAt where
  t : Nat
  n : LpIx
  deriving DecidableEq, Repr

/-- One step of a memory interface: a request arrives and, or, the channel serves the queued request at a position. -/
inductive MemStep where
  /-- an uncorrectable error of an on-chip region (05 R276) -/
  | chip (region : ChipRegion)
  | lpddr (n : LpIx) (arrive : Option MemReq) (serve : Option Nat)
  | qdr (x : Fin 2) (word : Nat) (write : Option (BitVec 64)) (err : EccErr)
  deriving DecidableEq, Repr

/-- An MR4 reading as R246 tells them apart. -/
inductive Mr4 where
  | below85
  | atLeast85
  | aboveLimit
  deriving DecidableEq, Repr

/-- A thermal input (20, Table 20-1 coding). -/
inductive ThermIn where
  | die (d : Fin 24)
  | remote (s : Fin 16)
  deriving DecidableEq, Repr

/-- What one conversion of a thermal input measures (20 R882 to R885). -/
inductive ThermReading where
  /-- on-die sensor: 0.01 degC -/
  | die (centi : Int)
  /-- DIODE: the voltages at 10 uA and 100 uA, in nV -/
  | diode (v10 v100 : Nat)
  /-- NTC: the ratio x as a U0.24 code -/
  | ntc (x : Nat)
  deriving DecidableEq, Repr

/-- What reached one channel's modulation output over one 500 ns aperture (08 Table 8-1, R413). -/
structure Aperture where
  /-- smallest and largest applied code in the aperture -/
  minCode : Nat
  maxCode : Nat
  /-- mean applied code over the aperture, times 2^16 -/
  meanCode : Nat
  /-- ns the channel had been emitting when the aperture began -/
  litFor  : Nat
  /-- ns the applied drive had been 0 when the aperture began -/
  darkFor : Nat
  /-- the sample belongs to a scheduled probe -/
  probe   : Bool
  deriving DecidableEq, Repr

/-- What one head's sense inputs give a loop sample (12 Table 12-2, R619). -/
structure HeadSense where
  /-- SCh_SS at the sample, S1.30 -/
  slow : Int
  /-- I and Q of the last whole NCO period, S1.30 -/
  i    : Int
  q    : Int
  deriving DecidableEq, Repr

/-- What the resampler does at one SCAN_SAMPLE: an emission sample, or a chip of the touch channel with its receiver
readings (on samples then off samples of each receiver; 10 R514, 14 R668 to R671). -/
inductive ScanStep where
  | emit (i : Nat)
  | chip (k : Nat) (ta tb : List Nat)
  deriving DecidableEq, Repr

/-- What one column shows 300 ns into an evaluated lamp pulse: its sink out of compliance, and the level of LCOL in mV (20 R910). -/
structure LampSense where
  outOfCompliance : Bool
  mV              : Nat
  deriving DecidableEq, Repr

/-- The sealed weighing parameters of the island (15 Table 15-1); weights in value units. -/
structure Metro where
  mask      : BitVec 4
  k         : Vector Int 4      -- value units per count, times 2^32
  z         : Vector Int 4
  zCal      : Int               -- value units times 2^16
  unitTonne : Bool
  dec       : Fin 5
  max       : Nat
  e         : Nat
  min       : Nat
  rate      : Nat               -- S/s
  avg       : Nat               -- F, conversions
  ac        : Bool
  tareSemi  : Bool
  zeroTrack : Bool
  everyUpdate : Bool            -- terminal output at every update
  baud      : Nat               -- bit/s of the terminal link
  deriving DecidableEq, Repr

/-- A head's window geometry (15 Table 15-4). -/
structure Window where
  enable : Bool
  zoom   : Nat
  x      : Nat
  y      : Nat
  rw     : Nat
  rh     : Nat
  deriving DecidableEq, Repr

/-- A change Birtia Seal makes under an open seal (15 R710, R713, Table 15-2 kinds 1 to 4). -/
inductive SealChange where
  | calibration (item : BitVec 32) (m : Metro)
  | parameter (item : BitVec 32) (m : Metro)
  | geometry (item : BitVec 32) (w : Vector Window 4)
  | imageSlot (slot : Fin 4) (version : BitVec 16) (image : Bytes)
  deriving DecidableEq, Repr

/-- Boundary-scan instructions (21 R944, R945). -/
inductive JtagInstr where
  | bypass
  | idcode
  | sample
  | extest
  | extestTrain
  | clamp
  | highz
  deriving DecidableEq, Repr

/-- How a rope is found to have failed (17 R781, Table 17-4). -/
inductive RopeCause where
  | shadow
  | memory
  | stall
  deriving DecidableEq, Repr

/-- Table 10-6. -/
inductive ScanReason where
  | sense
  | lock
  | amplitude
  | frequency
  | slow
  | timeout
  deriving DecidableEq, Repr

/-- The commands: every row of the table, in its order. -/
inductive Instr where
  -- ingress and HALT
  | ethFrameRx (t : Nat) (p : PortIx) (fec : Fec) (frame : Bytes)
  | halt (t : Nat) (p : PortIx)
  | haltReply
  -- host messages
  | acmRequestRx (t : Nat) (p : PortIx)
  | helloNew
  | helloResume
  | helloNewCommissioning
  | bye
  | paramSet
  | paramGet
  | stageCommit
  | stageAbort
  | surfaceAlloc
  | surfaceFree
  | surfaceWriteOpen
  | surfaceWriteClose
  | surfaceWriteAbort
  | surfaceStatus
  | surfaceDatagram (p : PortIx)
  | surfaceClearDone (index : Nat)
  | framePlan
  | stateRequestQuery
  | stateRequestStandby
  | stateRequestArmed
  | stateRequestLit
  | stateRequestSafe
  | traceRelease
  | traceArm
  | traceForce
  | traceRead
  | fwBegin
  | fwData
  | fwCommit
  | eventAck
  | eventRetransmit (t : Nat) (q : SessIx) (seq : Nat)
  | islandReadSummary
  | islandReadAudit
  | peek
  | poke
  | resetWarm
  | resetBlock
  | unknownRequest
  | anchorSeal
  | emtFltclr
  | tchRelearn
  | lmpFltclr
  | lmpLevels
  | clkLockSettings
  | compress
  | decompress
  | verify
  -- tick, solve, digest
  | tickEdge (t : Nat)
  | digestRecomputeDone
  | diagWindowEnd (c : ChanIx)
  | solveDeadline (t : Nat)
  | solveComplete (t : Nat)
  | tickInEdge (t : Nat)
  | tickHoldover (t : Nat)
  -- heads
  | headFrameStart (h : HeadIx) (half : Bool)
  | compositorRowOutput (h : HeadIx) (rows : Nat)
  | headFrameComposed (h : HeadIx)
  | liveAlarm (r : RegionIx)
  | stripeRendered (h : HeadIx) (stripe : Nat) (rope : RopeIx) (shadowOk : Bool)
  | planeLoadStart (h : HeadIx)
  | syncMiss (h : HeadIx)
  | syncInEdge (h : HeadIx) (dt : Nat)
  | planeSlotBoundary (h : HeadIx)
  | planeBlockLoad (h : HeadIx) (block : Nat)
  | planeSlotEmission (h : HeadIx)
  | rangePoint (h : HeadIx)
  | probeEmit (c : ChanIx)
  | plhRdyAssert (h : HeadIx)
  | plhRdyStartTimeout (h : HeadIx)
  | plhRdyLoss (h : HeadIx)
  | scanLineStart (h : HeadIx) (dt : Nat) (forward : Bool)
  | scanSample (h : HeadIx) (step : ScanStep)
  | fastAxisLocked (h : HeadIx)
  | scanFail (h : HeadIx) (reason : ScanReason) (t : Nat)
  | fastAxisStop (h : HeadIx)
  | belayBasePeriod (senses : Vector HeadSense 4)
  -- channels and Anchor
  | senseSample (c : ChanIx) (rawP rawW : BitVec 16) (drive : Aperture)
  | senseRangeChange (c : ChanIx) (wavelength : Bool)
  | driverFault (c : ChanIx)
  | emitEnEdge (t : Nat) (pin : EnPin) (level : Bool)
  | interlockDrop (pin : EnPin)
  | discrepancy (t : Nat)
  | scanMotionInvalid (h : HeadIx)
  | scanMotionValid (h : HeadIx)
  -- supplies and resets
  | supplyWarning (t : Nat) (rail : Rail) (mv : Nat)
  | holdEnd (t : Nat)
  | supplyResetLevel (t : Nat) (rail : Rail)
  | coldReset (t : Nat)
  | aonPowerLoss
  | resetNAssert (t : Nat)
  | resetNRelease (t : Nat) (gpio15 : Bool) (cascRole : Bool)
  | warmReset (t : Nat) (interrupting : Bool)
  | watchdogExpiry (t : Nat)
  | bootTimeout (t : Nat)
  | bootComplete (t : Nat) (storeReadable : Bool) (density : Vector (Fin 4) 8)
  | serviceKeyWrite (slot : KeySlot) (key : Bytes) (commission : Bool)
  -- clocks
  | pllLossOfLock (t : Nat) (k : PllIx)
  | pllLock (t : Nat) (k : PllIx)
  | pllFailed (t : Nat) (k : PllIx)
  | refclkMissing (t : Nat)
  -- thermal and ropes
  | ropeLevelFall (t : Nat)
  | thermalConversion (t : Nat) (input : ThermIn) (reading : ThermReading)
  | ropeFailure (rope : RopeIx) (cause : RopeCause)
  | ropeSpareTakeover
  | spareSelfTest (rope : RopeIx) (ok : Bool)
  -- Ethernet links and protocols
  | ethAnComplete (p : PortIx)
  | ethTrainingComplete (p : PortIx)
  | ethLinkUp (p : PortIx)
  | ethLinkLoss (t : Nat) (p : PortIx)
  | qsfpModulePresent (gpio : Fin 16) (level : Bool)
  | arpRequest (p : PortIx)
  | icmpEcho (t : Nat) (p : PortIx)
  | igmpQuery (p : PortIx)
  | ptpAnnounce (t : Nat) (p : PortIx)
  | ptpSync (t : Nat) (p : PortIx) (rx : Int)
  | ptpDelayResp (t : Nat) (p : PortIx) (tx : Int)
  | ptpHoldover (t : Nat)
  -- video
  | videoPacket (t : Nat) (p : PortIx)
  | rxFrameTimeout (t : Nat) (v : RxIx)
  | rxSsrcTimeout (t : Nat) (v : RxIx)
  -- memory
  | memoryRequest (step : MemStep)
  | refresh (n : LpIx)
  | mr4Poll (n : LpIx) (reading : Mr4)
  | selfRefreshEntry (c : ChanAt)
  | pageIdleClose (c : ChanAt) (bank : Fin 16)
  | patrolScrub (n : LpIx) (addr : Nat) (err : EccErr)
  | qdrScrub (x : Fin 2) (word : Nat) (err : EccErr)
  | mcFailed (t : Nat) (m : Fin 4) (retrain : Bool)
  -- touch
  | touchFrameDone (h : HeadIx)
  | touchLate (h : HeadIx)
  | touchStuck (h : HeadIx) (id : Fin 16)
  -- lamps
  | lampScanFrame
  | lampRowPeriod (senses : Vector LampSense 16)
  | lampUndetermined (n : Fin 256)
  -- island
  | islandStart
  | islandCrystalFail
  | bridgeConversion (codes : Vector Int 4) (lowSense : BitVec 4)
  | sealBreakChange (level : Bool)
  | sealChange (change : SealChange)
  | terminalZero
  | terminalTare
  | terminalClearTare
  | terminalPrint
  | terminalIdentify
  | identifyTimeout
  | islandBufferPost (image : Bytes)
  | legalReadback (h : HeadIx)
  | islandGeometryUpdate
  -- cascade
  | traverseLinkUp (p : PortIx)
  | traverseLinkLoss (t : Nat) (p : PortIx)
  | traverseHalt (t : Nat) (p : PortIx) (frame : Bytes)
  | tickFrame (t : Nat) (p : PortIx) (frame : Bytes)
  | commitPrepare (p : PortIx) (frame : Bytes)
  | commitGo (p : PortIx) (frame : Bytes)
  | commitAbortFrame (p : PortIx) (frame : Bytes)
  | vote (p : PortIx) (frame : Bytes)
  | linkFrame (t : Nat) (p : PortIx) (frame : Bytes)
  | traverseAcm (t : Nat) (p : PortIx) (frame : Bytes)
  | traverseSurface (p : PortIx) (frame : Bytes)
  | seam (p : PortIx) (frame : Bytes)
  | traverseVideo (t : Nat) (p : PortIx) (frame : Bytes)
  | masterTakeover (t : Nat)
  -- rows added last in the table
  | islandPowerLoss (duringWrite : Bool)
  | refclkSysRestored (t : Nat)
  | phaseErrorComparison (k : PllIx) (e : Int)
  | mcRequestWaitExpiry (n : LpIx) (pos : Nat)
  | boundaryScanInstruction (trstN : Bool) (op : JtagInstr)
  | serviceFlashRecovery (bankB : Bool) (image : Bytes) (record : Bytes)
  deriving DecidableEq, Repr

end Sys2Proof
end

