-- ==== Sys2Proof/Decode.lean ====
section
/-! DEFINITION. The command a word spells by the bits of the table of operations and events (95): the table gives its
rows no bits, so no word spells a command. -/

namespace Sys2Proof

/-- No row of the table has bits. DESIGN CHOICE: assumption 7. -/
def decodeTableWord (_nbits _w : Nat) : Option Instr := none

end Sys2Proof
end

