-- ==== Sys2Proof/Machine/Bits.lean ====
section
/-! DEFINITION. Byte order, bit fields, two's complement and lists indexed by numbers (00 R18 to R20). -/

namespace Sys2Proof.Machine

/-- A byte of a number. -/
def byteOf (n : Nat) : Byte := BitVec.ofNat 8 n

/-- Byte `o` of a message or table, as a number; 0 past its end. -/
def u8 (b : Bytes) (o : Nat) : Nat := (b.getD o 0#8).toNat

/-- The number that a list of bytes spells, most significant byte first (R19). -/
def natBE (b : Bytes) : Nat := b.foldl (fun a x => a * 256 + x.toNat) 0

/-- The number that a list of bytes spells, least significant byte first (R20). -/
def natLE (b : Bytes) : Nat := b.foldr (fun x a => a * 256 + x.toNat) 0

/-- `n` bytes from byte `o` on. -/
def slice (b : Bytes) (o n : Nat) : Bytes := (b.drop o).take n

/-- Big-endian fields of a message (R19). -/
def be16 (b : Bytes) (o : Nat) : Nat := natBE (slice b o 2)
def be32 (b : Bytes) (o : Nat) : Nat := natBE (slice b o 4)
def be64 (b : Bytes) (o : Nat) : Nat := natBE (slice b o 8)

/-- Little-endian fields of a table (R20). -/
def le16 (b : Bytes) (o : Nat) : Nat := natLE (slice b o 2)
def le32 (b : Bytes) (o : Nat) : Nat := natLE (slice b o 4)
def le64 (b : Bytes) (o : Nat) : Nat := natLE (slice b o 8)

/-- Two's complement of `bits` bits. -/
def toSigned (bits n : Nat) : Int :=
  let m := n % 2 ^ bits
  if m < 2 ^ (bits - 1) then (m : Int) else (m : Int) - (2 ^ bits : Nat)

/-- The `bits` low bits of an integer. -/
def ofSigned (bits : Nat) (i : Int) : Nat := (i % (2 ^ bits : Nat)).toNat

def sle16 (b : Bytes) (o : Nat) : Int := toSigned 16 (le16 b o)
def sle32 (b : Bytes) (o : Nat) : Int := toSigned 32 (le32 b o)

/-- A number as `n` bytes, least significant first. -/
def toLE : Nat → Nat → Bytes
  | 0, _ => []
  | n + 1, v => byteOf v :: toLE n (v / 256)

/-- A number as `n` bytes, most significant first. -/
def toBE (n v : Nat) : Bytes := (toLE n v).reverse

/-- An integer as `n` bytes of two's complement. -/
def toSLE (n : Nat) (v : Int) : Bytes := toLE n (ofSigned (8 * n) v)
def toSBE (n : Nat) (v : Int) : Bytes := toBE n (ofSigned (8 * n) v)

/-- `n` zero bytes. -/
def zeros (n : Nat) : Bytes := List.replicate n 0#8

/-- Bits [hi:lo] of a number (R18). -/
def bits (v hi lo : Nat) : Nat := (v / 2 ^ lo) % 2 ^ (hi + 1 - lo)

/-- Bit k of a number. -/
def bit (v k : Nat) : Bool := (v / 2 ^ k) % 2 == 1

/-- A truth value as a bit. -/
def b2n (b : Bool) : Nat := if b then 1 else 0

/-- The mask with the given bits set. -/
def maskOf (l : List Nat) : Nat := l.foldl (fun a k => if bit a k then a else a + 2 ^ k) 0

/-- The mask of the indices below `n` that meet a test. -/
def maskBelow (n : Nat) (p : Nat → Bool) : Nat :=
  (List.range n).foldl (fun a k => if p k then a + 2 ^ k else a) 0

/-- Number of bits set below bit `n`. -/
def popCount (n v : Nat) : Nat := ((List.range n).filter (bit v)).length

/-- A counter of `bits` bits; counters wrap. -/
def inc (bits v : Nat) (by_ : Nat := 1) : Nat := (v + by_) % 2 ^ bits

/-- A value clamped into a range. -/
def clampI (lo hi v : Int) : Int := if v < lo then lo else if hi < v then hi else v
def clampN (lo hi v : Nat) : Nat := if v < lo then lo else if hi < v then hi else v

/-- Round to nearest, ties away from zero, of n / d. -/
def divRoundI (n : Int) (d : Nat) : Int :=
  if n < 0 then -((((-n).toNat * 2 + d) / (2 * d) : Nat) : Int) else ((n.toNat * 2 + d) / (2 * d) : Nat)

/-- Round half up of n / d. -/
def divHalfUp (n d : Nat) : Nat := (2 * n + d) / (2 * d)

/-- Round half up of an integer quotient. -/
def divHalfUpI (n : Int) (d : Nat) : Int := (2 * n + d) / (2 * d : Int)

/-- n / d rounded up. -/
def ceilDiv (n d : Nat) : Nat := (n + d - 1) / d

/-- n / d towards zero. -/
def truncDiv (n : Int) (d : Nat) : Int := if n < 0 then -(((-n).toNat / d : Nat) : Int) else (n.toNat / d : Nat)

/-- Integer square root by the bits of the answer. -/
def isqrtBits : Nat → Nat → Nat → Nat
  | 0, _, r => r
  | k + 1, n, r => let c := r + 2 ^ k; isqrtBits k n (if c * c ≤ n then c else r)

/-- The integer square root of a number below 2^(2 * bits). -/
def isqrt (bits n : Nat) : Nat := isqrtBits bits n 0

/-- A list with its entry at `k` changed. -/
def modAt {α : Type} (l : List α) (k : Nat) (f : α → α) : List α := l.modify k f

/-- Replace the bytes from `o` on. -/
def splice (b : Bytes) (o : Nat) (v : Bytes) : Bytes := b.take o ++ v ++ b.drop (o + v.length)

/-- The list cut into pieces of `n`, `k` pieces at most. -/
def chunks {α : Type} (n : Nat) : Nat → List α → List (List α)
  | 0, _ => []
  | k + 1, l => if l.isEmpty then [] else l.take n :: chunks n k (l.drop n)

/-! Sorted association lists: the canonical form of every sparse table of the model. -/

/-- What the list holds at a key. -/
def assocGet {β : Type} (k : Nat) : List (Nat × β) → Option β
  | [] => none
  | (j, v) :: r => if j == k then some v else assocGet k r

/-- The list with the key set; keys stay strictly rising. -/
def assocSet {β : Type} (k : Nat) (v : β) : List (Nat × β) → List (Nat × β)
  | [] => [(k, v)]
  | (j, w) :: r => if k < j then (k, v) :: (j, w) :: r else if k == j then (k, v) :: r else (j, w) :: assocSet k v r

/-- The list without the key. -/
def assocDel {β : Type} (k : Nat) (l : List (Nat × β)) : List (Nat × β) := l.filter (fun e => e.1 != k)

/-- Keys strictly rising. -/
def assocSorted {β : Type} : List (Nat × β) → Bool
  | [] => true
  | [_] => true
  | (j, _) :: (k, v) :: r => decide (j < k) && assocSorted ((k, v) :: r)

/-- All indices of a fixed array. -/
def allFin (n : Nat) : List (Fin n) := List.finRange n

/-- Set one entry of a fixed array. -/
def vset {α : Type} {n : Nat} (v : Vector α n) (i : Fin n) (a : α) : Vector α n := v.set i.1 a i.2

/-- Change one entry of a fixed array. -/
def vmod {α : Type} {n : Nat} (v : Vector α n) (i : Fin n) (f : α → α) : Vector α n := v.set i.1 (f v[i]) i.2

end Sys2Proof.Machine
end

