-- ==== Sys2Proof/Machine/Crc.lean ====
section
/-! DEFINITION. The cyclic redundancy checks the spec names: CRC-32 of IEEE 802.3 (04, 07, 13, 15) and CRC-8 of the plane
link and the boot records. -/

namespace Sys2Proof.Machine

/-- One bit of the reflected CRC-32, polynomial 0x04C1_1DB7. -/
def crc32Bit (c : BitVec 32) : BitVec 32 := if c.getLsbD 0 then (c >>> 1) ^^^ 0xEDB88320#32 else c >>> 1

/-- One byte of the reflected CRC-32. -/
def crc32Byte (c : BitVec 32) (b : Byte) : BitVec 32 :=
  let x := c ^^^ b.setWidth 32
  crc32Bit (crc32Bit (crc32Bit (crc32Bit (crc32Bit (crc32Bit (crc32Bit (crc32Bit x)))))))

/-- The running CRC-32 register over bytes. -/
def crc32Run (c : BitVec 32) (b : Bytes) : BitVec 32 := b.foldl crc32Byte c

/-- CRC-32 of IEEE 802.3: preset to all ones, complemented at the end. -/
def crc32 (b : Bytes) : Nat := (~~~ (crc32Run 0xFFFFFFFF#32 b)).toNat

/-- One bit of a CRC-8 taken most significant bit first. -/
def crc8Bit (poly c : BitVec 8) : BitVec 8 := if c.getLsbD 7 then (c <<< 1) ^^^ poly else c <<< 1

/-- CRC-8 most significant bit first, preset `init`. -/
def crc8 (poly init : BitVec 8) (b : Bytes) : BitVec 8 :=
  b.foldl (fun c x => let y := c ^^^ x
    crc8Bit poly (crc8Bit poly (crc8Bit poly (crc8Bit poly (crc8Bit poly (crc8Bit poly (crc8Bit poly (crc8Bit poly y)))))))) init

end Sys2Proof.Machine
end

