-- ==== Sys2Proof/Machine/Catalogue.lean ====
section
/-! DEFINITION. The parameter space: every parameter's identity, type, index set, apply class, range and reset value,
from the parameter tables of the chapters (Tables 0-3, 1-6, 2-1, 3-7, 4-3 and so on), and where a table's value is laid
out in bytes, its length. -/

namespace Sys2Proof.Machine

/-- Parameter types, as the digest record codes them (02 Table 2-6). -/
inductive PTy where
  | bool
  | u8
  | u16
  | u32
  | u64
  | s8
  | s16
  | s32
  | enum8
  | fixed
  | tbl
  deriving DecidableEq, Repr

/-- Apply classes (00 Table 0-6). -/
inductive Cls where
  | imm
  | tick
  | stby
  | ro
  deriving DecidableEq, Repr

/-- Index sets of the parameter tables. -/
inductive IxSet where
  /-- 0 to n - 1 -/
  | below (n : Nat)
  /-- the groups 0x01 to 0x13 (Table 2-1) -/
  | groups
  /-- bits [15:14] the head, [13:0] a page below n (R456, R506, R689) -/
  | paged (n : Nat)
  /-- the dithered PLLs (R839) -/
  | seeds
  deriving DecidableEq, Repr

/-- One row of a parameter table. -/
structure ParamDef where
  id    : Nat
  ty    : PTy
  /-- length of VALUE in bytes (R146) -/
  len   : Nat
  ix    : IxSet
  cls   : Cls
  lo    : Int
  hi    : Int
  step  : Nat
  /-- values allowed beside the range -/
  extra : List Int
  reset : Int
  deriving DecidableEq, Repr

namespace P

abbrev SYS_PART : Nat := 0x0101
abbrev SYS_VARIANT : Nat := 0x0102
abbrev SYS_STEPPING : Nat := 0x0103
abbrev SYS_FW_RELEASE : Nat := 0x0104
abbrev SYS_DIE_ID : Nat := 0x0105
abbrev SYS_WORKPLAN : Nat := 0x0110
abbrev SYS_BUDGET_ACTIVE : Nat := 0x0111
abbrev SYS_BUDGET_STAGED : Nat := 0x0112
abbrev SYS_CAPACITY : Nat := 0x0113
abbrev SYS_ROPES_ACTIVE : Nat := 0x0114
abbrev SYS_ROPES_SPARE : Nat := 0x0115
abbrev SYS_ACM_PORT : Nat := 0x0120
abbrev SYS_SURF_PORT : Nat := 0x0121
abbrev SYS_ACM_HOST : Nat := 0x0122
abbrev SYS_ACM_KEYID : Nat := 0x0123
abbrev SYS_ACM_EPOCH : Nat := 0x0124
abbrev SYS_ACM_STATE : Nat := 0x0125
abbrev SYS_ACM_NEXTSEQ : Nat := 0x0126
abbrev SYS_ACM_AUTHFAIL : Nat := 0x0127
abbrev SYS_ACM_DROPS : Nat := 0x0128
abbrev SYS_ACM_RETX_MS : Nat := 0x0129
abbrev SYS_RESET_CAUSE : Nat := 0x0130
abbrev SYS_WDT_MS : Nat := 0x0131
abbrev SYS_BOOT_BANK : Nat := 0x0132
abbrev SYS_COMMIT_COUNT : Nat := 0x0133
abbrev SYS_FW_UPDATE : Nat := 0x0134
abbrev SYS_HOLDS : Nat := 0x0135
abbrev SYS_BOOT_MS : Nat := 0x0136
abbrev SYS_RAILS : Nat := 0x0137
abbrev CLK_SSC_MODE : Nat := 0x0201
abbrev CLK_SSC_DEPTH : Nat := 0x0202
abbrev CLK_SSC_RATE : Nat := 0x0203
abbrev CLK_SEED : Nat := 0x0204
abbrev CLK_LOCK_WIN : Nat := 0x0205
abbrev CLK_LOCK_N : Nat := 0x0206
abbrev CLK_LOCK_M : Nat := 0x0207
abbrev CLK_LOCK_MASK : Nat := 0x0208
abbrev CLK_STATUS : Nat := 0x0210
abbrev CLK_UNLOCKS : Nat := 0x0211
abbrev CLK_ROPE_HZ : Nat := 0x0212
abbrev CLK_ROPE_LEVEL : Nat := 0x0213
abbrev CLK_REF : Nat := 0x0214
abbrev TCK_SOURCE : Nat := 0x0301
abbrev TCK_RATE_NUM : Nat := 0x0302
abbrev TCK_RATE_DEN : Nat := 0x0303
abbrev TCK_OFFSET : Nat := 0x0304
abbrev TCK_HEAD_MULT : Nat := 0x0305
abbrev TCK_COUNT : Nat := 0x0306
abbrev TCK_STATUS : Nat := 0x0307
abbrev TCK_PERIOD_NS : Nat := 0x0308
abbrev TCK_DEADLINE_NS : Nat := 0x0309
abbrev TCK_OVERRUNS : Nat := 0x030A
abbrev TCK_HOLD_TICKS : Nat := 0x030B
abbrev TCK_COMMIT_AT : Nat := 0x030C
abbrev TCK_DIGEST_ACTIVE : Nat := 0x030D
abbrev TCK_DIGEST_STAGED : Nat := 0x030E
abbrev TCK_DIGEST_GROUP : Nat := 0x030F
abbrev TCK_RECOMP_AT : Nat := 0x0310
abbrev TCK_SOLVE_NS : Nat := 0x0311
abbrev ETH_MEDIA : Nat := 0x0401
abbrev ETH_AN : Nat := 0x0402
abbrev ETH_MODPRS : Nat := 0x0403
abbrev ETH_IPADDR : Nat := 0x0404
abbrev ETH_IPMASK : Nat := 0x0405
abbrev ETH_GATEWAY : Nat := 0x0406
abbrev ETH_VLAN : Nat := 0x0407
abbrev ETH_CLASS_SEL : Nat := 0x0408
abbrev ETH_PCP_MAP : Nat := 0x0409
abbrev ETH_DSCP_MAP : Nat := 0x040A
abbrev ETH_MAC : Nat := 0x040B
abbrev ETH_LINK : Nat := 0x040C
abbrev ETH_FEC_CORR : Nat := 0x040D
abbrev ETH_FEC_UNCORR : Nat := 0x040E
abbrev ETH_BADFRAMES : Nat := 0x040F
abbrev ETH_DROPS : Nat := 0x0410
abbrev ETH_POLICED : Nat := 0x0411
abbrev ETH_HALT_DROPS : Nat := 0x0412
abbrev ETH_RX_ENABLE : Nat := 0x0420
abbrev ETH_RX_PATHS : Nat := 0x0421
abbrev ETH_RX_GROUP : Nat := 0x0422
abbrev ETH_RX_SOURCE : Nat := 0x0423
abbrev ETH_RX_UDP : Nat := 0x0424
abbrev ETH_RX_PT : Nat := 0x0425
abbrev ETH_RX_FORMAT : Nat := 0x0426
abbrev ETH_RX_WIDTH : Nat := 0x0427
abbrev ETH_RX_HEIGHT : Nat := 0x0428
abbrev ETH_RX_SURF : Nat := 0x0429
abbrev ETH_RX_TIMEOUT : Nat := 0x042A
abbrev ETH_RX_CURRENT : Nat := 0x042B
abbrev ETH_RX_FRAMES : Nat := 0x042C
abbrev ETH_RX_DISCARDS : Nat := 0x042D
abbrev ETH_RX_NOSURF : Nat := 0x042E
abbrev ETH_RX_BADPKT : Nat := 0x042F
abbrev ETH_RX_LATE : Nat := 0x0430
abbrev ETH_RX_LOST : Nat := 0x0431
abbrev ETH_RX_SKEW : Nat := 0x0432
abbrev ETH_PTP_DOMAIN : Nat := 0x0440
abbrev ETH_PTP_PORTS : Nat := 0x0441
abbrev ETH_PTP_DELAYMODE : Nat := 0x0442
abbrev ETH_PTP_ASYM : Nat := 0x0443
abbrev ETH_PTP_LOCK_NS : Nat := 0x0444
abbrev ETH_PTP_STEP_NS : Nat := 0x0445
abbrev ETH_PTP_STATE : Nat := 0x0446
abbrev ETH_PTP_PORT : Nat := 0x0447
abbrev ETH_PTP_GM : Nat := 0x0448
abbrev ETH_PTP_OFFSET : Nat := 0x0449
abbrev ETH_PTP_MEANDELAY : Nat := 0x044A
abbrev ETH_PTP_HOLD_MS : Nat := 0x044B
abbrev MEM_DENSITY : Nat := 0x0501
abbrev MEM_MAP : Nat := 0x0502
abbrev MEM_IDLE_NS : Nat := 0x0503
abbrev MEM_SR_EN : Nat := 0x0504
abbrev MEM_SR_IDLE_US : Nat := 0x0505
abbrev MEM_MIRROR_MB : Nat := 0x0506
abbrev MEM_SCRUB_H : Nat := 0x0507
abbrev MEM_QDR_SIZE : Nat := 0x0508
abbrev MEM_QDR_SEL : Nat := 0x0509
abbrev MEM_MC_STATE : Nat := 0x0510
abbrev MEM_CAPACITY : Nat := 0x0511
abbrev MEM_FREE : Nat := 0x0512
abbrev MEM_MIRROR_FREE : Nat := 0x0513
abbrev MEM_REFRATE : Nat := 0x0514
abbrev MEM_CE : Nat := 0x0515
abbrev MEM_UE : Nat := 0x0516
abbrev MEM_ERRLOG : Nat := 0x0517
abbrev MEM_ERRLOG_HEAD : Nat := 0x0518
abbrev MEM_QDR_CE : Nat := 0x0519
abbrev MEM_QDR_UE : Nat := 0x051A
abbrev MEM_QDR_FREE : Nat := 0x051B
abbrev MEM_SURF_COUNT : Nat := 0x0520
abbrev MEM_SURF_DROPS : Nat := 0x0521
abbrev MEM_SURF_BUSYDROPS : Nat := 0x0522
abbrev CMP_CANVAS_W : Nat := 0x0601
abbrev CMP_CANVAS_H : Nat := 0x0602
abbrev CMP_BG : Nat := 0x0603
abbrev CMP_CLONE : Nat := 0x0604
abbrev CMP_LAYER : Nat := 0x0605
abbrev CMP_CSC : Nat := 0x0606
abbrev CMP_GAMUT : Nat := 0x0607
abbrev CMP_PALETTE : Nat := 0x0608
abbrev CMP_FILTER : Nat := 0x0609
abbrev CMP_PQ_WHITE : Nat := 0x060A
abbrev CMP_PLAN : Nat := 0x0610
abbrev CMP_LATCHED : Nat := 0x0611
abbrev CMP_HELD : Nat := 0x0612
abbrev CMP_NOSRC : Nat := 0x0613
abbrev CMP_MISMATCH : Nat := 0x0614
abbrev CMP_UNCORR : Nat := 0x0615
abbrev CMP_ATC_ERR : Nat := 0x0616
abbrev CMP_COST : Nat := 0x0617
abbrev CMP_LEGAL_CRC : Nat := 0x0618
abbrev ATC_JOB : Nat := 0x0701
abbrev ATC_RESULT : Nat := 0x0702
abbrev ATC_JOBS : Nat := 0x0703
abbrev ATC_RAW_TILES : Nat := 0x0704
abbrev ATC_FAILED_TILES : Nat := 0x0705
abbrev COL_MODE : Nat := 0x0801
abbrev COL_TARGET : Nat := 0x0802
abbrev COL_ETA : Nat := 0x0803
abbrev COL_OBJECTIVE : Nat := 0x0804
abbrev COL_BALANCE : Nat := 0x0805
abbrev COL_IFLOOR : Nat := 0x0806
abbrev COL_CAL : Nat := 0x0807
abbrev COL_MIN_SAMPLES : Nat := 0x0808
abbrev COL_CMF : Nat := 0x0810
abbrev COL_EST : Nat := 0x0811
abbrev COL_SOLVE : Nat := 0x0812
abbrev COL_FAILS : Nat := 0x0813
abbrev PLN_COLS : Nat := 0x0901
abbrev PLN_ROWS : Nat := 0x0902
abbrev PLN_BLOCKS : Nat := 0x0903
abbrev PLN_TSETTLE : Nat := 0x0904
abbrev PLN_TPHASE : Nat := 0x0905
abbrev PLN_EMIN : Nat := 0x0906
abbrev PLN_FIELDS : Nat := 0x0907
abbrev PLN_SCHED : Nat := 0x0908
abbrev PLN_DITHER_EN : Nat := 0x0909
abbrev PLN_DITHER : Nat := 0x090A
abbrev PLN_MESH_STEP : Nat := 0x090B
abbrev PLN_MESH : Nat := 0x090C
abbrev PLN_UNIF : Nat := 0x090D
abbrev PLN_RDY_MODE : Nat := 0x090E
abbrev PLN_TIMING : Nat := 0x0910
abbrev PLN_EFFECTIVE : Nat := 0x0911
abbrev PLN_STORE : Nat := 0x0912
abbrev PLN_UNDERRUNS : Nat := 0x0913
abbrev PLN_CHECK_ERR : Nat := 0x0914
abbrev PLN_RDY_LOSS : Nat := 0x0915
abbrev SCN_FREQ : Nat := 0x0A01
abbrev SCN_FTOL : Nat := 0x0A02
abbrev SCN_AMP_SET : Nat := 0x0A03
abbrev SCN_ACTIVE : Nat := 0x0A04
abbrev SCN_SAMPLES : Nat := 0x0A05
abbrev SCN_LINES_ACT : Nat := 0x0A06
abbrev SCN_FLYBACK : Nat := 0x0A07
abbrev SCN_FILTER : Nat := 0x0A08
abbrev SCN_BAND : Nat := 0x0A09
abbrev SCN_MESH_STEP : Nat := 0x0A0A
abbrev SCN_MESH : Nat := 0x0A0B
abbrev SCN_UNIF : Nat := 0x0A0C
abbrev SCN_CONV : Nat := 0x0A0D
abbrev SCN_DELAY : Nat := 0x0A0E
abbrev SCN_BIDIR : Nat := 0x0A0F
abbrev SCN_PROBE : Nat := 0x0A10
abbrev SCN_FAST_SLOT : Nat := 0x0A11
abbrev SCN_SLOW_SLOT : Nat := 0x0A12
abbrev SCN_FAIL_POS : Nat := 0x0A13
abbrev SCN_LOCK_MS : Nat := 0x0A14
abbrev SCN_STATE : Nat := 0x0A20
abbrev SCN_TIMING : Nat := 0x0A21
abbrev SCN_UNDERRUNS : Nat := 0x0A22
abbrev SCN_UNREACHED : Nat := 0x0A23
abbrev SCN_UNCORR : Nat := 0x0A24
abbrev SCN_LEGAL_ERR : Nat := 0x0A25
abbrev SCN_FAILS : Nat := 0x0A26
abbrev EMT_BIND : Nat := 0x0B01
abbrev EMT_MAXCODE : Nat := 0x0B02
abbrev EMT_MAXBIAS : Nat := 0x0B03
abbrev EMT_MAXPWR : Nat := 0x0B04
abbrev EMT_BIAS_SRC : Nat := 0x0B05
abbrev EMT_BIAS : Nat := 0x0B06
abbrev EMT_BIAS_SLOT : Nat := 0x0B07
abbrev EMT_FLT_MODE : Nat := 0x0B08
abbrev EMT_PROBE : Nat := 0x0B09
abbrev EMT_OPEN_FRAC : Nat := 0x0B0A
abbrev EMT_SHORT_FRAC : Nat := 0x0B0B
abbrev EMT_DET_CNT : Nat := 0x0B0C
abbrev EMT_FLTCLR : Nat := 0x0B0D
abbrev EMT_STATUS : Nat := 0x0B20
abbrev EMT_FAULTS : Nat := 0x0B21
abbrev EMT_PROBES : Nat := 0x0B22
abbrev ANC_SEAL : Nat := 0x0B40
abbrev ANC_MINAMP : Nat := 0x0B41
abbrev ANC_STATUS : Nat := 0x0B42
abbrev ANC_CLAMPS : Nat := 0x0B43
abbrev BLY_SLOT : Nat := 0x0C01
abbrev BLY_COEF : Nat := 0x0C02
abbrev BLY_PROFILE : Nat := 0x0C03
abbrev BLY_LOAD : Nat := 0x0C10
abbrev BLY_STATUS : Nat := 0x0C11
abbrev BLY_HANDOVERS : Nat := 0x0C12
abbrev HDT_TYPE : Nat := 0x0D01
abbrev HDT_LINE_MATCH : Nat := 0x0D02
abbrev HDT_GPIO : Nat := 0x0D03
abbrev HDT_REGION : Nat := 0x0D04
abbrev HDT_STATUS : Nat := 0x0D10
abbrev HDT_FRAMES : Nat := 0x0D11
abbrev HDT_SIG : Nat := 0x0D12
abbrev HDT_FREEZES : Nat := 0x0D13
abbrev HDT_SYNC_MISS : Nat := 0x0D14
abbrev HDT_SHADOW_ERR : Nat := 0x0D15
abbrev HDT_UNDERRUNS : Nat := 0x0D16
abbrev TCH_CODE : Nat := 0x0E01
abbrev TCH_RANGE : Nat := 0x0E02
abbrev TCH_RX_LAG : Nat := 0x0E03
abbrev TCH_THRESH : Nat := 0x0E04
abbrev TCH_RATIO : Nat := 0x0E05
abbrev TCH_AREA_MIN : Nat := 0x0E06
abbrev TCH_AREA_MAX : Nat := 0x0E07
abbrev TCH_BG_SHIFT : Nat := 0x0E08
abbrev TCH_LEARN : Nat := 0x0E09
abbrev TCH_TRACK : Nat := 0x0E0A
abbrev TCH_MOVE : Nat := 0x0E0B
abbrev TCH_STUCK : Nat := 0x0E0C
abbrev TCH_RELEARN : Nat := 0x0E0D
abbrev TCH_STATUS : Nat := 0x0E10
abbrev TCH_MAP : Nat := 0x0E11
abbrev TCH_BG : Nat := 0x0E12
abbrev TCH_FILMS : Nat := 0x0E13
abbrev TCH_LATE : Nat := 0x0E14
abbrev TCH_BLIND : Nat := 0x0E15
abbrev ISL_STATE : Nat := 0x0F01
abbrev ISL_FW_VERSION : Nat := 0x0F02
abbrev ISL_FW_CRC : Nat := 0x0F03
abbrev ISL_FW_SLOT : Nat := 0x0F04
abbrev ISL_AUDIT_COUNT : Nat := 0x0F05
abbrev ISL_AUDIT : Nat := 0x0F06
abbrev ISL_METRO : Nat := 0x0F07
abbrev ISL_INDICATION : Nat := 0x0F08
abbrev ISL_WINDOW : Nat := 0x0F09
abbrev ISL_EXPECT_CRC : Nat := 0x0F0A
abbrev ISL_MISMATCHES : Nat := 0x0F0B
abbrev ISL_LEGAL : Nat := 0x0F0C
abbrev ISL_BRIDGE : Nat := 0x0F0D
abbrev CAS_PORTS : Nat := 0x1001
abbrev CAS_DEVNUM : Nat := 0x1002
abbrev CAS_PRIORITY : Nat := 0x1003
abbrev CAS_SHARED : Nat := 0x1004
abbrev CAS_SPLIT_ACTION : Nat := 0x1005
abbrev CAS_RX_VIA : Nat := 0x1006
abbrev CAS_SEAM_TX : Nat := 0x1007
abbrev CAS_SEAM_RX : Nat := 0x1008
abbrev CAS_ROLE : Nat := 0x1010
abbrev CAS_MASTER : Nat := 0x1011
abbrev CAS_EPOCH : Nat := 0x1012
abbrev CAS_TOPOLOGY : Nat := 0x1013
abbrev CAS_LINK : Nat := 0x1014
abbrev CAS_LINK_DELAY : Nat := 0x1015
abbrev CAS_LINK_ERR : Nat := 0x1016
abbrev CAS_SPLIT : Nat := 0x1017
abbrev CAS_FWD_DROPS : Nat := 0x1018
abbrev CAS_SEAM_LATE : Nat := 0x1019
abbrev CAS_ABORTS : Nat := 0x101A
abbrev CAS_LAST_ABORT : Nat := 0x101B
abbrev THM_MODE : Nat := 0x1101
abbrev THM_IDEAL : Nat := 0x1102
abbrev THM_RREF : Nat := 0x1103
abbrev THM_R25 : Nat := 0x1104
abbrev THM_BETA : Nat := 0x1105
abbrev THM_OFFSET : Nat := 0x1106
abbrev THM_WARN : Nat := 0x1107
abbrev THM_THROT : Nat := 0x1108
abbrev THM_CRIT : Nat := 0x1109
abbrev THM_HYST : Nat := 0x110A
abbrev THM_DIMMASK : Nat := 0x110B
abbrev THM_DIM : Nat := 0x110C
abbrev THM_DIE_WARN : Nat := 0x110D
abbrev THM_DIE_THROT : Nat := 0x110E
abbrev THM_DIE_STEP2 : Nat := 0x110F
abbrev THM_PWM_SRC : Nat := 0x1110
abbrev THM_PWM_DUTY : Nat := 0x1111
abbrev THM_PWM_HZ : Nat := 0x1112
abbrev THM_PWM_POL : Nat := 0x1113
abbrev THM_TEMP : Nat := 0x1120
abbrev THM_DIE_TEMP : Nat := 0x1121
abbrev THM_STATE : Nat := 0x1122
abbrev THM_DIE_STATE : Nat := 0x1123
abbrev THM_THROTTLES : Nat := 0x1124
abbrev LMP_ENABLE : Nat := 0x1201
abbrev LMP_MODE : Nat := 0x1202
abbrev LMP_RATE : Nat := 0x1203
abbrev LMP_BLANK : Nat := 0x1204
abbrev LMP_BITS : Nat := 0x1205
abbrev LMP_CURVE : Nat := 0x1206
abbrev LMP_ROW_POL : Nat := 0x1207
abbrev LMP_ICOL : Nat := 0x1208
abbrev LMP_DIM : Nat := 0x1209
abbrev LMP_LEVELS : Nat := 0x120A
abbrev LMP_PROBE_EN : Nat := 0x120B
abbrev LMP_SHORT_V : Nat := 0x120C
abbrev LMP_FLTCLR : Nat := 0x120D
abbrev LMP_FAULTS : Nat := 0x1220
abbrev LMP_SWAPS : Nat := 0x1221
abbrev LMP_FAULT_COUNT : Nat := 0x1222
abbrev FLT_LOG : Nat := 0x1301
abbrev FLT_LOG_HEAD : Nat := 0x1302
abbrev FLT_LOG_SEQ : Nat := 0x1303
abbrev FLT_PIN_MASK : Nat := 0x1304
abbrev FLT_STANDING : Nat := 0x1305
abbrev FLT_SAFE_CAUSE : Nat := 0x1306
abbrev FLT_ROPE_FAILED : Nat := 0x1307
abbrev FLT_PLL_FAILED : Nat := 0x1308
abbrev FLT_SPARED : Nat := 0x1309

end P

/-- Parameters of group 0x01. -/
def catalogue01 : List ParamDef :=
  [⟨P.SYS_PART, .u16, 2, .below 1, .ro, 0, 65535, 1, [], 0⟩,
   ⟨P.SYS_VARIANT, .enum8, 1, .below 1, .ro, 0, 255, 1, [], 0⟩,
   ⟨P.SYS_STEPPING, .u8, 1, .below 1, .ro, 0, 255, 1, [], 0⟩,
   ⟨P.SYS_FW_RELEASE, .u16, 2, .below 1, .ro, 0, 65535, 1, [], 0⟩,
   ⟨P.SYS_DIE_ID, .u64, 8, .below 1, .ro, 0, 18446744073709551615, 1, [], 0⟩,
   ⟨P.SYS_WORKPLAN, .tbl, 64, .below 1, .tick, 0, 0, 1, [], 0⟩,
   ⟨P.SYS_BUDGET_ACTIVE, .u64, 8, .below 1, .ro, 0, 18446744073709551615, 1, [], 0⟩,
   ⟨P.SYS_BUDGET_STAGED, .u64, 8, .below 1, .ro, 0, 18446744073709551615, 1, [], 0⟩,
   ⟨P.SYS_CAPACITY, .u64, 8, .below 1, .ro, 0, 18446744073709551615, 1, [], 0⟩,
   ⟨P.SYS_ROPES_ACTIVE, .u8, 1, .below 1, .ro, 0, 255, 1, [], 0⟩,
   ⟨P.SYS_ROPES_SPARE, .u8, 1, .below 1, .ro, 0, 255, 1, [], 0⟩,
   ⟨P.SYS_ACM_PORT, .u16, 2, .below 1, .stby, 1024, 65534, 1, [], 47100⟩,
   ⟨P.SYS_SURF_PORT, .u16, 2, .below 1, .stby, 1024, 65534, 1, [], 47101⟩,
   ⟨P.SYS_ACM_HOST, .u32, 4, .below 4, .stby, 0, 4294967295, 1, [], 0⟩,
   ⟨P.SYS_ACM_KEYID, .u32, 4, .below 4, .ro, 0, 4294967295, 1, [], 0⟩,
   ⟨P.SYS_ACM_EPOCH, .u32, 4, .below 1, .ro, 0, 4294967295, 1, [], 0⟩,
   ⟨P.SYS_ACM_STATE, .enum8, 1, .below 4, .ro, 0, 255, 1, [], 0⟩,
   ⟨P.SYS_ACM_NEXTSEQ, .u32, 4, .below 4, .ro, 0, 4294967295, 1, [], 0⟩,
   ⟨P.SYS_ACM_AUTHFAIL, .u32, 4, .below 4, .ro, 0, 4294967295, 1, [], 0⟩,
   ⟨P.SYS_ACM_DROPS, .u32, 4, .below 1, .ro, 0, 4294967295, 1, [], 0⟩,
   ⟨P.SYS_ACM_RETX_MS, .u16, 2, .below 1, .imm, 5, 1000, 1, [], 20⟩,
   ⟨P.SYS_RESET_CAUSE, .enum8, 1, .below 1, .ro, 0, 255, 1, [], 0⟩,
   ⟨P.SYS_WDT_MS, .u16, 2, .below 1, .imm, 100, 10000, 1, [], 1000⟩,
   ⟨P.SYS_BOOT_BANK, .enum8, 1, .below 1, .ro, 0, 255, 1, [], 0⟩,
   ⟨P.SYS_COMMIT_COUNT, .u32, 4, .below 1, .ro, 0, 4294967295, 1, [], 0⟩,
   ⟨P.SYS_FW_UPDATE, .tbl, 16, .below 1, .ro, 0, 0, 1, [], 0⟩,
   ⟨P.SYS_HOLDS, .u32, 4, .below 1, .ro, 0, 4294967295, 1, [], 0⟩,
   ⟨P.SYS_BOOT_MS, .u32, 4, .below 1, .ro, 0, 4294967295, 1, [], 0⟩,
   ⟨P.SYS_RAILS, .u8, 1, .below 1, .ro, 0, 255, 1, [], 0⟩]

/-- Parameters of group 0x02. -/
def catalogue02 : List ParamDef :=
  [⟨P.CLK_SSC_MODE, .enum8, 1, .below 2, .stby, 0, 2, 1, [], 0⟩,
   ⟨P.CLK_SSC_DEPTH, .u16, 2, .below 2, .stby, 0, 100, 1, [], 0⟩,
   ⟨P.CLK_SSC_RATE, .u16, 2, .below 2, .stby, 30, 50, 1, [], 33⟩,
   ⟨P.CLK_SEED, .u16, 2, .seeds, .stby, 1, 65535, 1, [], 44257⟩,
   ⟨P.CLK_LOCK_WIN, .u16, 2, .below 19, .imm, 50, 2000, 1, [], 200⟩,
   ⟨P.CLK_LOCK_N, .u16, 2, .below 19, .imm, 16, 4096, 1, [], 256⟩,
   ⟨P.CLK_LOCK_M, .u16, 2, .below 19, .imm, 1, 4096, 1, [], 8⟩,
   ⟨P.CLK_LOCK_MASK, .u32, 4, .below 1, .imm, 0, 524287, 1, [], 524287⟩,
   ⟨P.CLK_STATUS, .tbl, 16, .below 19, .ro, 0, 0, 1, [], 0⟩,
   ⟨P.CLK_UNLOCKS, .u32, 4, .below 19, .ro, 0, 4294967295, 1, [], 0⟩,
   ⟨P.CLK_ROPE_HZ, .u32, 4, .below 1, .ro, 0, 4294967295, 1, [], 0⟩,
   ⟨P.CLK_ROPE_LEVEL, .u8, 1, .below 1, .ro, 0, 255, 1, [], 0⟩,
   ⟨P.CLK_REF, .u8, 1, .below 1, .ro, 0, 255, 1, [], 0⟩]

/-- Parameters of group 0x03. -/
def catalogue03 : List ParamDef :=
  [⟨P.TCK_SOURCE, .enum8, 1, .below 1, .tick, 0, 2, 1, [], 0⟩,
   ⟨P.TCK_RATE_NUM, .u32, 4, .below 1, .tick, 24, 240000, 1, [], 60⟩,
   ⟨P.TCK_RATE_DEN, .u16, 2, .below 1, .tick, 1, 1, 1, [1000, 1001], 1⟩,
   ⟨P.TCK_OFFSET, .s32, 4, .below 1, .tick, -20833333, 20833333, 1, [], 0⟩,
   ⟨P.TCK_HEAD_MULT, .enum8, 1, .below 4, .tick, 0, 1, 1, [], 0⟩,
   ⟨P.TCK_COUNT, .u64, 8, .below 1, .ro, 0, 18446744073709551615, 1, [], 0⟩,
   ⟨P.TCK_STATUS, .enum8, 1, .below 1, .ro, 0, 255, 1, [], 0⟩,
   ⟨P.TCK_PERIOD_NS, .u32, 4, .below 1, .ro, 0, 4294967295, 1, [], 0⟩,
   ⟨P.TCK_DEADLINE_NS, .u32, 4, .below 1, .ro, 0, 4294967295, 1, [], 0⟩,
   ⟨P.TCK_OVERRUNS, .u32, 4, .below 1, .ro, 0, 4294967295, 1, [], 0⟩,
   ⟨P.TCK_HOLD_TICKS, .u32, 4, .below 1, .ro, 0, 4294967295, 1, [], 0⟩,
   ⟨P.TCK_COMMIT_AT, .u64, 8, .below 1, .ro, 0, 18446744073709551615, 1, [], 0⟩,
   ⟨P.TCK_DIGEST_ACTIVE, .u64, 8, .below 1, .ro, 0, 18446744073709551615, 1, [], 0⟩,
   ⟨P.TCK_DIGEST_STAGED, .u64, 8, .below 1, .ro, 0, 18446744073709551615, 1, [], 0⟩,
   ⟨P.TCK_DIGEST_GROUP, .u64, 8, .groups, .ro, 0, 18446744073709551615, 1, [], 0⟩,
   ⟨P.TCK_RECOMP_AT, .u64, 8, .below 1, .ro, 0, 18446744073709551615, 1, [], 0⟩,
   ⟨P.TCK_SOLVE_NS, .u32, 4, .below 1, .ro, 0, 4294967295, 1, [], 0⟩]

/-- Parameters of group 0x04. -/
def catalogue04 : List ParamDef :=
  [⟨P.ETH_MEDIA, .enum8, 1, .below 2, .stby, 0, 3, 1, [], 2⟩,
   ⟨P.ETH_AN, .bool, 1, .below 2, .stby, 0, 1, 1, [], 1⟩,
   ⟨P.ETH_MODPRS, .u8, 1, .below 2, .stby, 0, 15, 1, [255], 255⟩,
   ⟨P.ETH_IPADDR, .u32, 4, .below 2, .stby, 0, 4294967295, 1, [], 0⟩,
   ⟨P.ETH_IPMASK, .u32, 4, .below 2, .stby, 0, 4294967295, 1, [], 4294967040⟩,
   ⟨P.ETH_GATEWAY, .u32, 4, .below 2, .stby, 0, 4294967295, 1, [], 0⟩,
   ⟨P.ETH_VLAN, .u16, 2, .below 2, .stby, 0, 4094, 1, [], 0⟩,
   ⟨P.ETH_CLASS_SEL, .enum8, 1, .below 2, .stby, 0, 1, 1, [], 1⟩,
   ⟨P.ETH_PCP_MAP, .u32, 4, .below 1, .stby, 0, 16777215, 1, [], 16434824⟩,
   ⟨P.ETH_DSCP_MAP, .tbl, 64, .below 1, .stby, 0, 0, 1, [], 0⟩,
   ⟨P.ETH_MAC, .u64, 8, .below 2, .ro, 0, 18446744073709551615, 1, [], 0⟩,
   ⟨P.ETH_LINK, .enum8, 1, .below 2, .ro, 0, 255, 1, [], 0⟩,
   ⟨P.ETH_FEC_CORR, .u64, 8, .below 2, .ro, 0, 18446744073709551615, 1, [], 0⟩,
   ⟨P.ETH_FEC_UNCORR, .u64, 8, .below 2, .ro, 0, 18446744073709551615, 1, [], 0⟩,
   ⟨P.ETH_BADFRAMES, .u32, 4, .below 2, .ro, 0, 4294967295, 1, [], 0⟩,
   ⟨P.ETH_DROPS, .u32, 4, .below 16, .ro, 0, 4294967295, 1, [], 0⟩,
   ⟨P.ETH_POLICED, .u32, 4, .below 16, .ro, 0, 4294967295, 1, [], 0⟩,
   ⟨P.ETH_HALT_DROPS, .u32, 4, .below 2, .ro, 0, 4294967295, 1, [], 0⟩,
   ⟨P.ETH_RX_ENABLE, .bool, 1, .below 8, .tick, 0, 1, 1, [], 0⟩,
   ⟨P.ETH_RX_PATHS, .enum8, 1, .below 8, .tick, 1, 3, 1, [], 3⟩,
   ⟨P.ETH_RX_GROUP, .u32, 4, .below 16, .tick, 0, 4294967295, 1, [], 0⟩,
   ⟨P.ETH_RX_SOURCE, .u32, 4, .below 16, .tick, 0, 4294967295, 1, [], 0⟩,
   ⟨P.ETH_RX_UDP, .u16, 2, .below 16, .tick, 1024, 65534, 1, [], 50000⟩,
   ⟨P.ETH_RX_PT, .u8, 1, .below 8, .tick, 96, 127, 1, [], 96⟩,
   ⟨P.ETH_RX_FORMAT, .u32, 4, .below 8, .tick, 0, 4294967295, 1, [], 1703936⟩,
   ⟨P.ETH_RX_WIDTH, .u16, 2, .below 8, .tick, 16, 4096, 1, [], 1920⟩,
   ⟨P.ETH_RX_HEIGHT, .u16, 2, .below 8, .tick, 16, 2400, 1, [], 1080⟩,
   ⟨P.ETH_RX_SURF, .tbl, 16, .below 8, .tick, 0, 0, 1, [], 0⟩,
   ⟨P.ETH_RX_TIMEOUT, .u16, 2, .below 8, .tick, 1, 100, 1, [], 20⟩,
   ⟨P.ETH_RX_CURRENT, .u32, 4, .below 8, .ro, 0, 4294967295, 1, [], 0⟩,
   ⟨P.ETH_RX_FRAMES, .u64, 8, .below 8, .ro, 0, 18446744073709551615, 1, [], 0⟩,
   ⟨P.ETH_RX_DISCARDS, .u32, 4, .below 8, .ro, 0, 4294967295, 1, [], 0⟩,
   ⟨P.ETH_RX_NOSURF, .u32, 4, .below 8, .ro, 0, 4294967295, 1, [], 0⟩,
   ⟨P.ETH_RX_BADPKT, .u32, 4, .below 16, .ro, 0, 4294967295, 1, [], 0⟩,
   ⟨P.ETH_RX_LATE, .u32, 4, .below 16, .ro, 0, 4294967295, 1, [], 0⟩,
   ⟨P.ETH_RX_LOST, .u32, 4, .below 8, .ro, 0, 4294967295, 1, [], 0⟩,
   ⟨P.ETH_RX_SKEW, .s32, 4, .below 8, .ro, -2147483648, 2147483647, 1, [], 0⟩,
   ⟨P.ETH_PTP_DOMAIN, .u8, 1, .below 1, .stby, 0, 127, 1, [], 127⟩,
   ⟨P.ETH_PTP_PORTS, .enum8, 1, .below 1, .stby, 1, 3, 1, [], 3⟩,
   ⟨P.ETH_PTP_DELAYMODE, .enum8, 1, .below 1, .stby, 0, 1, 1, [], 0⟩,
   ⟨P.ETH_PTP_ASYM, .s32, 4, .below 2, .imm, -1000000, 1000000, 1, [], 0⟩,
   ⟨P.ETH_PTP_LOCK_NS, .u32, 4, .below 1, .imm, 50, 10000, 1, [], 1000⟩,
   ⟨P.ETH_PTP_STEP_NS, .u32, 4, .below 1, .imm, 1000, 1000000000, 1, [], 1000000⟩,
   ⟨P.ETH_PTP_STATE, .enum8, 1, .below 1, .ro, 0, 255, 1, [], 0⟩,
   ⟨P.ETH_PTP_PORT, .enum8, 1, .below 1, .ro, 0, 255, 1, [], 0⟩,
   ⟨P.ETH_PTP_GM, .u64, 8, .below 1, .ro, 0, 18446744073709551615, 1, [], 0⟩,
   ⟨P.ETH_PTP_OFFSET, .s32, 4, .below 1, .ro, -2147483648, 2147483647, 1, [], 0⟩,
   ⟨P.ETH_PTP_MEANDELAY, .u32, 4, .below 1, .ro, 0, 4294967295, 1, [], 0⟩,
   ⟨P.ETH_PTP_HOLD_MS, .u32, 4, .below 1, .ro, 0, 4294967295, 1, [], 0⟩]

/-- Parameters of group 0x05. -/
def catalogue05 : List ParamDef :=
  [⟨P.MEM_DENSITY, .enum8, 1, .below 1, .ro, 0, 255, 1, [], 0⟩,
   ⟨P.MEM_MAP, .enum8, 1, .below 1, .stby, 0, 3, 1, [], 0⟩,
   ⟨P.MEM_IDLE_NS, .u16, 2, .below 4, .imm, 0, 2000, 1, [], 200⟩,
   ⟨P.MEM_SR_EN, .bool, 1, .below 1, .imm, 0, 1, 1, [], 1⟩,
   ⟨P.MEM_SR_IDLE_US, .u16, 2, .below 1, .imm, 10, 10000, 1, [], 100⟩,
   ⟨P.MEM_MIRROR_MB, .u16, 2, .below 1, .stby, 0, 4096, 64, [], 256⟩,
   ⟨P.MEM_SCRUB_H, .u8, 1, .below 1, .imm, 1, 72, 1, [], 24⟩,
   ⟨P.MEM_QDR_SIZE, .enum8, 1, .below 2, .stby, 0, 2, 1, [], 2⟩,
   ⟨P.MEM_QDR_SEL, .enum8, 1, .below 4, .stby, 0, 1, 1, [], 0⟩,
   ⟨P.MEM_MC_STATE, .enum8, 1, .below 4, .ro, 0, 255, 1, [], 0⟩,
   ⟨P.MEM_CAPACITY, .u64, 8, .below 1, .ro, 0, 18446744073709551615, 1, [], 0⟩,
   ⟨P.MEM_FREE, .u64, 8, .below 1, .ro, 0, 18446744073709551615, 1, [], 0⟩,
   ⟨P.MEM_MIRROR_FREE, .u64, 8, .below 1, .ro, 0, 18446744073709551615, 1, [], 0⟩,
   ⟨P.MEM_REFRATE, .enum8, 1, .below 8, .ro, 0, 255, 1, [], 0⟩,
   ⟨P.MEM_CE, .u32, 4, .below 8, .ro, 0, 4294967295, 1, [], 0⟩,
   ⟨P.MEM_UE, .u32, 4, .below 8, .ro, 0, 4294967295, 1, [], 0⟩,
   ⟨P.MEM_ERRLOG, .tbl, 2048, .below 1, .ro, 0, 0, 1, [], 0⟩,
   ⟨P.MEM_ERRLOG_HEAD, .u8, 1, .below 1, .ro, 0, 255, 1, [], 0⟩,
   ⟨P.MEM_QDR_CE, .u32, 4, .below 2, .ro, 0, 4294967295, 1, [], 0⟩,
   ⟨P.MEM_QDR_UE, .u32, 4, .below 2, .ro, 0, 4294967295, 1, [], 0⟩,
   ⟨P.MEM_QDR_FREE, .u32, 4, .below 2, .ro, 0, 4294967295, 1, [], 0⟩,
   ⟨P.MEM_SURF_COUNT, .u16, 2, .below 1, .ro, 0, 65535, 1, [], 0⟩,
   ⟨P.MEM_SURF_DROPS, .u32, 4, .below 4, .ro, 0, 4294967295, 1, [], 0⟩,
   ⟨P.MEM_SURF_BUSYDROPS, .u32, 4, .below 4, .ro, 0, 4294967295, 1, [], 0⟩]

/-- Parameters of group 0x06. -/
def catalogue06 : List ParamDef :=
  [⟨P.CMP_CANVAS_W, .u16, 2, .below 4, .tick, 16, 4096, 1, [], 1920⟩,
   ⟨P.CMP_CANVAS_H, .u16, 2, .below 4, .tick, 16, 2560, 1, [], 1080⟩,
   ⟨P.CMP_BG, .tbl, 12, .below 4, .tick, 0, 0, 1, [], 0⟩,
   ⟨P.CMP_CLONE, .u8, 1, .below 4, .tick, 0, 3, 1, [255], 255⟩,
   ⟨P.CMP_LAYER, .tbl, 32, .below 64, .tick, 0, 0, 1, [], 0⟩,
   ⟨P.CMP_CSC, .tbl, 52, .below 64, .tick, 0, 0, 1, [], 0⟩,
   ⟨P.CMP_GAMUT, .tbl, 52, .below 64, .tick, 0, 0, 1, [], 0⟩,
   ⟨P.CMP_PALETTE, .tbl, 1024, .below 64, .tick, 0, 0, 1, [], 0⟩,
   ⟨P.CMP_FILTER, .tbl, 512, .below 4, .tick, 0, 0, 1, [], 0⟩,
   ⟨P.CMP_PQ_WHITE, .u16, 2, .below 64, .tick, 80, 1000, 1, [], 203⟩,
   ⟨P.CMP_PLAN, .tbl, 80, .below 4, .ro, 0, 0, 1, [], 0⟩,
   ⟨P.CMP_LATCHED, .u32, 4, .below 64, .ro, 0, 4294967295, 1, [], 0⟩,
   ⟨P.CMP_HELD, .u32, 4, .below 64, .ro, 0, 4294967295, 1, [], 0⟩,
   ⟨P.CMP_NOSRC, .u32, 4, .below 64, .ro, 0, 4294967295, 1, [], 0⟩,
   ⟨P.CMP_MISMATCH, .u32, 4, .below 64, .ro, 0, 4294967295, 1, [], 0⟩,
   ⟨P.CMP_UNCORR, .u32, 4, .below 4, .ro, 0, 4294967295, 1, [], 0⟩,
   ⟨P.CMP_ATC_ERR, .u32, 4, .below 4, .ro, 0, 4294967295, 1, [], 0⟩,
   ⟨P.CMP_COST, .u64, 8, .below 4, .ro, 0, 18446744073709551615, 1, [], 0⟩,
   ⟨P.CMP_LEGAL_CRC, .u32, 4, .below 4, .ro, 0, 4294967295, 1, [], 0⟩]

/-- Parameters of group 0x07. -/
def catalogue07 : List ParamDef :=
  [⟨P.ATC_JOB, .tbl, 32, .below 1, .imm, 0, 0, 1, [], 0⟩,
   ⟨P.ATC_RESULT, .tbl, 32, .below 1, .ro, 0, 0, 1, [], 0⟩,
   ⟨P.ATC_JOBS, .u64, 8, .below 1, .ro, 0, 18446744073709551615, 1, [], 0⟩,
   ⟨P.ATC_RAW_TILES, .u64, 8, .below 1, .ro, 0, 18446744073709551615, 1, [], 0⟩,
   ⟨P.ATC_FAILED_TILES, .u32, 4, .below 1, .ro, 0, 4294967295, 1, [], 0⟩]

/-- Parameters of group 0x08. -/
def catalogue08 : List ParamDef :=
  [⟨P.COL_MODE, .enum8, 1, .below 4, .tick, 0, 1, 1, [], 1⟩,
   ⟨P.COL_TARGET, .tbl, 24, .below 4, .tick, 0, 0, 1, [], 0⟩,
   ⟨P.COL_ETA, .fixed, 4, .below 4, .tick, 1, 4294967295, 1, [], 65536⟩,
   ⟨P.COL_OBJECTIVE, .enum8, 1, .below 4, .tick, 0, 1, 1, [], 0⟩,
   ⟨P.COL_BALANCE, .enum8, 1, .below 4, .tick, 0, 1, 1, [], 0⟩,
   ⟨P.COL_IFLOOR, .fixed, 2, .below 4, .tick, 64, 65535, 1, [], 64⟩,
   ⟨P.COL_CAL, .tbl, 64, .below 48, .tick, 0, 0, 1, [], 0⟩,
   ⟨P.COL_MIN_SAMPLES, .u16, 2, .below 48, .tick, 16, 65535, 1, [], 256⟩,
   ⟨P.COL_CMF, .tbl, 2406, .below 1, .ro, 0, 0, 1, [], 0⟩,
   ⟨P.COL_EST, .tbl, 16, .below 48, .ro, 0, 0, 1, [], 0⟩,
   ⟨P.COL_SOLVE, .tbl, 64, .below 4, .ro, 0, 0, 1, [], 0⟩,
   ⟨P.COL_FAILS, .u32, 4, .below 4, .ro, 0, 4294967295, 1, [], 0⟩]

/-- Parameters of group 0x09. -/
def catalogue09 : List ParamDef :=
  [⟨P.PLN_COLS, .u16, 2, .below 4, .tick, 64, 4096, 64, [], 1920⟩,
   ⟨P.PLN_ROWS, .u16, 2, .below 4, .tick, 16, 2560, 1, [], 1080⟩,
   ⟨P.PLN_BLOCKS, .u8, 1, .below 4, .tick, 1, 32, 1, [], 12⟩,
   ⟨P.PLN_TSETTLE, .u16, 2, .below 4, .tick, 40, 20000, 1, [], 2400⟩,
   ⟨P.PLN_TPHASE, .u16, 2, .below 4, .tick, 0, 800, 1, [], 0⟩,
   ⟨P.PLN_EMIN, .u32, 4, .below 4, .tick, 1024, 400000, 1, [], 1024⟩,
   ⟨P.PLN_FIELDS, .tbl, 32, .below 4, .tick, 0, 0, 1, [], 0⟩,
   ⟨P.PLN_SCHED, .tbl, 2052, .below 4, .tick, 0, 0, 1, [], 0⟩,
   ⟨P.PLN_DITHER_EN, .bool, 1, .below 4, .tick, 0, 1, 1, [], 1⟩,
   ⟨P.PLN_DITHER, .tbl, 4096, .below 16, .tick, 0, 0, 1, [], 0⟩,
   ⟨P.PLN_MESH_STEP, .u8, 1, .below 4, .tick, 4, 7, 1, [], 5⟩,
   ⟨P.PLN_MESH, .tbl, 4096, .paged 81, .imm, 0, 0, 1, [], 0⟩,
   ⟨P.PLN_UNIF, .tbl, 4096, .paged 1920, .imm, 0, 0, 1, [], 0⟩,
   ⟨P.PLN_RDY_MODE, .enum8, 1, .below 4, .stby, 0, 1, 1, [], 0⟩,
   ⟨P.PLN_TIMING, .tbl, 64, .below 4, .ro, 0, 0, 1, [], 0⟩,
   ⟨P.PLN_EFFECTIVE, .tbl, 2052, .below 4, .ro, 0, 0, 1, [], 0⟩,
   ⟨P.PLN_STORE, .u64, 8, .below 4, .ro, 0, 18446744073709551615, 1, [], 0⟩,
   ⟨P.PLN_UNDERRUNS, .u32, 4, .below 4, .ro, 0, 4294967295, 1, [], 0⟩,
   ⟨P.PLN_CHECK_ERR, .u32, 4, .below 4, .ro, 0, 4294967295, 1, [], 0⟩,
   ⟨P.PLN_RDY_LOSS, .u32, 4, .below 4, .ro, 0, 4294967295, 1, [], 0⟩]

/-- Parameters of group 0x0A. -/
def catalogue0A : List ParamDef :=
  [⟨P.SCN_FREQ, .u32, 4, .below 4, .tick, 18000000, 48000000, 1, [], 36000000⟩,
   ⟨P.SCN_FTOL, .u16, 2, .below 4, .tick, 100, 20000, 1, [], 5000⟩,
   ⟨P.SCN_AMP_SET, .fixed, 2, .below 4, .tick, 4096, 62000, 1, [], 32768⟩,
   ⟨P.SCN_ACTIVE, .fixed, 2, .below 4, .tick, 52429, 62259, 1, [], 58982⟩,
   ⟨P.SCN_SAMPLES, .u16, 2, .below 4, .tick, 64, 1920, 1, [], 1920⟩,
   ⟨P.SCN_LINES_ACT, .u16, 2, .below 4, .tick, 16, 1080, 1, [], 1080⟩,
   ⟨P.SCN_FLYBACK, .u32, 4, .below 4, .tick, 100000, 10000000, 1, [], 1000000⟩,
   ⟨P.SCN_FILTER, .enum8, 1, .below 4, .tick, 0, 1, 1, [], 1⟩,
   ⟨P.SCN_BAND, .u16, 2, .below 4, .tick, 32, 256, 8, [], 64⟩,
   ⟨P.SCN_MESH_STEP, .u8, 1, .below 4, .tick, 4, 7, 1, [], 5⟩,
   ⟨P.SCN_MESH, .tbl, 4096, .paged 17, .imm, 0, 0, 1, [], 0⟩,
   ⟨P.SCN_UNIF, .tbl, 4096, .paged 380, .imm, 0, 0, 1, [], 0⟩,
   ⟨P.SCN_CONV, .tbl, 24, .below 4, .tick, 0, 0, 1, [], 0⟩,
   ⟨P.SCN_DELAY, .s16, 2, .below 48, .tick, -2048, 2047, 1, [], 0⟩,
   ⟨P.SCN_BIDIR, .s16, 2, .below 4, .imm, -4000, 4000, 2, [], 0⟩,
   ⟨P.SCN_PROBE, .tbl, 8, .below 4, .tick, 0, 0, 1, [], 0⟩,
   ⟨P.SCN_FAST_SLOT, .u8, 1, .below 4, .stby, 0, 127, 1, [], 0⟩,
   ⟨P.SCN_SLOW_SLOT, .u8, 1, .below 4, .stby, 0, 127, 1, [], 0⟩,
   ⟨P.SCN_FAIL_POS, .fixed, 2, .below 4, .imm, 128, 4096, 1, [], 512⟩,
   ⟨P.SCN_LOCK_MS, .u16, 2, .below 4, .imm, 10, 2000, 1, [], 250⟩,
   ⟨P.SCN_STATE, .enum8, 1, .below 4, .ro, 0, 255, 1, [], 0⟩,
   ⟨P.SCN_TIMING, .tbl, 32, .below 4, .ro, 0, 0, 1, [], 0⟩,
   ⟨P.SCN_UNDERRUNS, .u32, 4, .below 4, .ro, 0, 4294967295, 1, [], 0⟩,
   ⟨P.SCN_UNREACHED, .u32, 4, .below 4, .ro, 0, 4294967295, 1, [], 0⟩,
   ⟨P.SCN_UNCORR, .u32, 4, .below 4, .ro, 0, 4294967295, 1, [], 0⟩,
   ⟨P.SCN_LEGAL_ERR, .u32, 4, .below 4, .ro, 0, 4294967295, 1, [], 0⟩,
   ⟨P.SCN_FAILS, .u32, 4, .below 4, .ro, 0, 4294967295, 1, [], 0⟩]

/-- Parameters of group 0x0B. -/
def catalogue0B : List ParamDef :=
  [⟨P.EMT_BIND, .u8, 1, .below 48, .tick, 0, 255, 1, [], 0⟩,
   ⟨P.EMT_MAXCODE, .u16, 2, .below 48, .stby, 0, 4095, 1, [], 0⟩,
   ⟨P.EMT_MAXBIAS, .u16, 2, .below 48, .stby, 0, 16383, 1, [], 0⟩,
   ⟨P.EMT_MAXPWR, .u32, 4, .below 48, .stby, 0, 33553920, 1, [], 0⟩,
   ⟨P.EMT_BIAS_SRC, .enum8, 1, .below 48, .tick, 0, 1, 1, [], 0⟩,
   ⟨P.EMT_BIAS, .u16, 2, .below 48, .imm, 0, 16383, 1, [], 0⟩,
   ⟨P.EMT_BIAS_SLOT, .u8, 1, .below 48, .tick, 0, 127, 1, [], 0⟩,
   ⟨P.EMT_FLT_MODE, .enum8, 1, .below 48, .tick, 0, 2, 1, [], 0⟩,
   ⟨P.EMT_PROBE, .u16, 2, .below 48, .tick, 0, 4095, 1, [], 4095⟩,
   ⟨P.EMT_OPEN_FRAC, .fixed, 2, .below 48, .tick, 1024, 49152, 1, [], 16384⟩,
   ⟨P.EMT_SHORT_FRAC, .fixed, 2, .below 48, .tick, 1024, 49152, 1, [], 8192⟩,
   ⟨P.EMT_DET_CNT, .u32, 4, .below 48, .tick, 1024, 4294967295, 1, [], 65536⟩,
   ⟨P.EMT_FLTCLR, .u64, 8, .below 1, .imm, 0, 281474976710655, 1, [], 0⟩,
   ⟨P.EMT_STATUS, .tbl, 16, .below 48, .ro, 0, 0, 1, [], 0⟩,
   ⟨P.EMT_FAULTS, .u32, 4, .below 48, .ro, 0, 4294967295, 1, [], 0⟩,
   ⟨P.EMT_PROBES, .u32, 4, .below 48, .ro, 0, 4294967295, 1, [], 0⟩,
   ⟨P.ANC_SEAL, .bool, 1, .below 1, .stby, 0, 1, 1, [], 0⟩,
   ⟨P.ANC_MINAMP, .fixed, 2, .below 4, .stby, 32768, 62259, 1, [], 45875⟩,
   ⟨P.ANC_STATUS, .tbl, 16, .below 1, .ro, 0, 0, 1, [], 0⟩,
   ⟨P.ANC_CLAMPS, .u32, 4, .below 48, .ro, 0, 4294967295, 1, [], 0⟩]

/-- Parameters of group 0x0C. -/
def catalogue0C : List ParamDef :=
  [⟨P.BLY_SLOT, .tbl, 16, .below 128, .tick, 0, 0, 1, [], 0⟩,
   ⟨P.BLY_COEF, .tbl, 128, .below 128, .tick, 0, 0, 1, [], 0⟩,
   ⟨P.BLY_PROFILE, .tbl, 32, .below 128, .tick, 0, 0, 1, [], 0⟩,
   ⟨P.BLY_LOAD, .u16, 2, .below 1, .ro, 0, 65535, 1, [], 0⟩,
   ⟨P.BLY_STATUS, .tbl, 32, .below 128, .ro, 0, 0, 1, [], 0⟩,
   ⟨P.BLY_HANDOVERS, .u32, 4, .below 128, .ro, 0, 4294967295, 1, [], 0⟩]

/-- Parameters of group 0x0D. -/
def catalogue0D : List ParamDef :=
  [⟨P.HDT_TYPE, .enum8, 1, .below 4, .tick, 0, 2, 1, [], 0⟩,
   ⟨P.HDT_LINE_MATCH, .u16, 2, .below 4, .tick, 0, 4095, 1, [], 0⟩,
   ⟨P.HDT_GPIO, .u8, 1, .below 16, .tick, 0, 255, 1, [], 0⟩,
   ⟨P.HDT_REGION, .tbl, 24, .below 64, .tick, 0, 0, 1, [], 0⟩,
   ⟨P.HDT_STATUS, .tbl, 32, .below 4, .ro, 0, 0, 1, [], 0⟩,
   ⟨P.HDT_FRAMES, .u64, 8, .below 4, .ro, 0, 18446744073709551615, 1, [], 0⟩,
   ⟨P.HDT_SIG, .u32, 4, .below 64, .ro, 0, 4294967295, 1, [], 0⟩,
   ⟨P.HDT_FREEZES, .u32, 4, .below 64, .ro, 0, 4294967295, 1, [], 0⟩,
   ⟨P.HDT_SYNC_MISS, .u32, 4, .below 4, .ro, 0, 4294967295, 1, [], 0⟩,
   ⟨P.HDT_SHADOW_ERR, .u32, 4, .below 4, .ro, 0, 4294967295, 1, [], 0⟩,
   ⟨P.HDT_UNDERRUNS, .u32, 4, .below 4, .ro, 0, 4294967295, 1, [], 0⟩]

/-- Parameters of group 0x0E. -/
def catalogue0E : List ParamDef :=
  [⟨P.TCH_CODE, .u16, 2, .below 4, .tick, 0, 4095, 1, [], 2048⟩,
   ⟨P.TCH_RANGE, .u8, 1, .below 4, .tick, 0, 3, 1, [], 0⟩,
   ⟨P.TCH_RX_LAG, .u8, 1, .below 4, .tick, 0, 7, 1, [], 0⟩,
   ⟨P.TCH_THRESH, .u16, 2, .below 4, .tick, 1, 16380, 1, [], 40⟩,
   ⟨P.TCH_RATIO, .fixed, 2, .below 4, .tick, 0, 65535, 1, [], 12288⟩,
   ⟨P.TCH_AREA_MIN, .u16, 2, .below 4, .tick, 1, 10240, 1, [], 4⟩,
   ⟨P.TCH_AREA_MAX, .u16, 2, .below 4, .tick, 1, 10240, 1, [], 64⟩,
   ⟨P.TCH_BG_SHIFT, .u8, 1, .below 4, .tick, 1, 12, 1, [], 6⟩,
   ⟨P.TCH_LEARN, .u8, 1, .below 4, .tick, 1, 255, 1, [], 8⟩,
   ⟨P.TCH_TRACK, .u16, 2, .below 4, .tick, 1, 512, 1, [], 24⟩,
   ⟨P.TCH_MOVE, .u8, 1, .below 4, .tick, 1, 64, 1, [], 1⟩,
   ⟨P.TCH_STUCK, .u32, 4, .below 4, .tick, 60, 10000000, 1, [0], 36000⟩,
   ⟨P.TCH_RELEARN, .u8, 1, .below 1, .imm, 0, 15, 1, [], 0⟩,
   ⟨P.TCH_STATUS, .tbl, 16, .below 4, .ro, 0, 0, 1, [], 0⟩,
   ⟨P.TCH_MAP, .tbl, 4096, .paged 10, .ro, 0, 0, 1, [], 0⟩,
   ⟨P.TCH_BG, .tbl, 4096, .paged 10, .ro, 0, 0, 1, [], 0⟩,
   ⟨P.TCH_FILMS, .u32, 4, .below 4, .ro, 0, 4294967295, 1, [], 0⟩,
   ⟨P.TCH_LATE, .u32, 4, .below 4, .ro, 0, 4294967295, 1, [], 0⟩,
   ⟨P.TCH_BLIND, .u32, 4, .below 4, .ro, 0, 4294967295, 1, [], 0⟩]

/-- Parameters of group 0x0F. -/
def catalogue0F : List ParamDef :=
  [⟨P.ISL_STATE, .enum8, 1, .below 1, .ro, 0, 255, 1, [], 0⟩,
   ⟨P.ISL_FW_VERSION, .u16, 2, .below 1, .ro, 0, 65535, 1, [], 0⟩,
   ⟨P.ISL_FW_CRC, .u32, 4, .below 1, .ro, 0, 4294967295, 1, [], 0⟩,
   ⟨P.ISL_FW_SLOT, .u8, 1, .below 1, .ro, 0, 255, 1, [], 0⟩,
   ⟨P.ISL_AUDIT_COUNT, .u16, 2, .below 1, .ro, 0, 65535, 1, [], 0⟩,
   ⟨P.ISL_AUDIT, .tbl, 16, .below 4096, .ro, 0, 0, 1, [], 0⟩,
   ⟨P.ISL_METRO, .tbl, 16, .below 1, .ro, 0, 0, 1, [], 0⟩,
   ⟨P.ISL_INDICATION, .tbl, 16, .below 1, .ro, 0, 0, 1, [], 0⟩,
   ⟨P.ISL_WINDOW, .tbl, 12, .below 4, .ro, 0, 0, 1, [], 0⟩,
   ⟨P.ISL_EXPECT_CRC, .u32, 4, .below 4, .ro, 0, 4294967295, 1, [], 0⟩,
   ⟨P.ISL_MISMATCHES, .u32, 4, .below 4, .ro, 0, 4294967295, 1, [], 0⟩,
   ⟨P.ISL_LEGAL, .u8, 1, .below 1, .ro, 0, 255, 1, [], 0⟩,
   ⟨P.ISL_BRIDGE, .u8, 1, .below 4, .ro, 0, 255, 1, [], 0⟩]

/-- Parameters of group 0x10. -/
def catalogue10 : List ParamDef :=
  [⟨P.CAS_PORTS, .enum8, 1, .below 1, .stby, 0, 3, 1, [], 0⟩,
   ⟨P.CAS_DEVNUM, .u8, 1, .below 1, .stby, 0, 7, 1, [], 0⟩,
   ⟨P.CAS_PRIORITY, .u8, 1, .below 1, .stby, 1, 255, 1, [], 128⟩,
   ⟨P.CAS_SHARED, .u32, 4, .below 1, .tick, 0, 4294967295, 1, [], 8⟩,
   ⟨P.CAS_SPLIT_ACTION, .enum8, 1, .below 1, .tick, 0, 1, 1, [], 0⟩,
   ⟨P.CAS_RX_VIA, .enum8, 1, .below 8, .tick, 0, 1, 1, [], 0⟩,
   ⟨P.CAS_SEAM_TX, .tbl, 16, .below 8, .tick, 0, 0, 1, [], 0⟩,
   ⟨P.CAS_SEAM_RX, .tbl, 16, .below 8, .tick, 0, 0, 1, [], 0⟩,
   ⟨P.CAS_ROLE, .enum8, 1, .below 1, .ro, 0, 255, 1, [], 0⟩,
   ⟨P.CAS_MASTER, .u8, 1, .below 1, .ro, 0, 255, 1, [], 0⟩,
   ⟨P.CAS_EPOCH, .u32, 4, .below 1, .ro, 0, 4294967295, 1, [], 0⟩,
   ⟨P.CAS_TOPOLOGY, .tbl, 16, .below 1, .ro, 0, 0, 1, [], 0⟩,
   ⟨P.CAS_LINK, .enum8, 1, .below 2, .ro, 0, 255, 1, [], 0⟩,
   ⟨P.CAS_LINK_DELAY, .u32, 4, .below 2, .ro, 0, 4294967295, 1, [], 0⟩,
   ⟨P.CAS_LINK_ERR, .u32, 4, .below 2, .ro, 0, 4294967295, 1, [], 0⟩,
   ⟨P.CAS_SPLIT, .u32, 4, .below 1, .ro, 0, 4294967295, 1, [], 0⟩,
   ⟨P.CAS_FWD_DROPS, .u32, 4, .below 2, .ro, 0, 4294967295, 1, [], 0⟩,
   ⟨P.CAS_SEAM_LATE, .u32, 4, .below 8, .ro, 0, 4294967295, 1, [], 0⟩,
   ⟨P.CAS_ABORTS, .u32, 4, .below 1, .ro, 0, 4294967295, 1, [], 0⟩,
   ⟨P.CAS_LAST_ABORT, .u16, 2, .below 1, .ro, 0, 65535, 1, [], 0⟩]

/-- Parameters of group 0x11. -/
def catalogue11 : List ParamDef :=
  [⟨P.THM_MODE, .enum8, 1, .below 16, .tick, 0, 2, 1, [], 0⟩,
   ⟨P.THM_IDEAL, .fixed, 2, .below 16, .tick, 14746, 18022, 1, [], 16515⟩,
   ⟨P.THM_RREF, .u32, 4, .below 16, .tick, 1000, 1000000, 1, [], 10000⟩,
   ⟨P.THM_R25, .u32, 4, .below 16, .tick, 100, 1000000, 1, [], 10000⟩,
   ⟨P.THM_BETA, .u16, 2, .below 16, .tick, 1000, 10000, 1, [], 3435⟩,
   ⟨P.THM_OFFSET, .s16, 2, .below 16, .tick, -1000, 1000, 1, [], 0⟩,
   ⟨P.THM_WARN, .s16, 2, .below 16, .imm, -4000, 15000, 1, [], 6000⟩,
   ⟨P.THM_THROT, .s16, 2, .below 16, .imm, -4000, 15000, 1, [], 7000⟩,
   ⟨P.THM_CRIT, .s16, 2, .below 16, .stby, -4000, 15000, 1, [], 8500⟩,
   ⟨P.THM_HYST, .u16, 2, .below 16, .imm, 50, 2000, 1, [], 200⟩,
   ⟨P.THM_DIMMASK, .u8, 1, .below 16, .tick, 0, 15, 1, [], 0⟩,
   ⟨P.THM_DIM, .fixed, 2, .below 4, .tick, 6554, 65535, 1, [], 49152⟩,
   ⟨P.THM_DIE_WARN, .s16, 2, .below 1, .imm, 5000, 11500, 1, [], 10000⟩,
   ⟨P.THM_DIE_THROT, .s16, 2, .below 1, .imm, 6000, 12000, 1, [], 11000⟩,
   ⟨P.THM_DIE_STEP2, .u16, 2, .below 1, .imm, 100, 1000, 1, [], 500⟩,
   ⟨P.THM_PWM_SRC, .enum8, 1, .below 8, .tick, 0, 2, 1, [], 0⟩,
   ⟨P.THM_PWM_DUTY, .fixed, 2, .below 8, .imm, 0, 65535, 1, [], 0⟩,
   ⟨P.THM_PWM_HZ, .u32, 4, .below 8, .tick, 1000, 100000, 1, [], 25000⟩,
   ⟨P.THM_PWM_POL, .enum8, 1, .below 8, .tick, 0, 1, 1, [], 0⟩,
   ⟨P.THM_TEMP, .s16, 2, .below 16, .ro, -32768, 32767, 1, [], 0⟩,
   ⟨P.THM_DIE_TEMP, .s16, 2, .below 24, .ro, -32768, 32767, 1, [], 0⟩,
   ⟨P.THM_STATE, .enum8, 1, .below 16, .ro, 0, 255, 1, [], 0⟩,
   ⟨P.THM_DIE_STATE, .enum8, 1, .below 24, .ro, 0, 255, 1, [], 0⟩,
   ⟨P.THM_THROTTLES, .u32, 4, .below 1, .ro, 0, 4294967295, 1, [], 0⟩]

/-- Parameters of group 0x12. -/
def catalogue12 : List ParamDef :=
  [⟨P.LMP_ENABLE, .bool, 1, .below 1, .tick, 0, 1, 1, [], 0⟩,
   ⟨P.LMP_MODE, .enum8, 1, .below 1, .tick, 0, 1, 1, [], 0⟩,
   ⟨P.LMP_RATE, .u16, 2, .below 1, .tick, 100, 2000, 1, [], 400⟩,
   ⟨P.LMP_BLANK, .u16, 2, .below 1, .tick, 500, 20000, 10, [], 500⟩,
   ⟨P.LMP_BITS, .u8, 1, .below 1, .tick, 8, 16, 1, [], 8⟩,
   ⟨P.LMP_CURVE, .enum8, 1, .below 1, .tick, 0, 2, 1, [], 1⟩,
   ⟨P.LMP_ROW_POL, .enum8, 1, .below 1, .stby, 0, 1, 1, [], 1⟩,
   ⟨P.LMP_ICOL, .u16, 2, .below 16, .tick, 500, 24000, 1, [], 500⟩,
   ⟨P.LMP_DIM, .fixed, 2, .below 1, .imm, 0, 65535, 1, [], 65535⟩,
   ⟨P.LMP_LEVELS, .tbl, 512, .below 1, .imm, 0, 0, 1, [], 0⟩,
   ⟨P.LMP_PROBE_EN, .bool, 1, .below 1, .tick, 0, 1, 1, [], 1⟩,
   ⟨P.LMP_SHORT_V, .u16, 2, .below 1, .tick, 1000, 5000, 1, [], 4000⟩,
   ⟨P.LMP_FLTCLR, .tbl, 32, .below 1, .imm, 0, 0, 1, [], 0⟩,
   ⟨P.LMP_FAULTS, .tbl, 64, .below 1, .ro, 0, 0, 1, [], 0⟩,
   ⟨P.LMP_SWAPS, .u32, 4, .below 1, .ro, 0, 4294967295, 1, [], 0⟩,
   ⟨P.LMP_FAULT_COUNT, .u32, 4, .below 1, .ro, 0, 4294967295, 1, [], 0⟩]

/-- Parameters of group 0x13. -/
def catalogue13 : List ParamDef :=
  [⟨P.FLT_LOG, .tbl, 1024, .below 8, .ro, 0, 0, 1, [], 0⟩,
   ⟨P.FLT_LOG_HEAD, .u8, 1, .below 1, .ro, 0, 255, 1, [], 0⟩,
   ⟨P.FLT_LOG_SEQ, .u32, 4, .below 1, .ro, 0, 4294967295, 1, [], 0⟩,
   ⟨P.FLT_PIN_MASK, .u16, 2, .below 1, .imm, 0, 1023, 1, [], 31⟩,
   ⟨P.FLT_STANDING, .u16, 2, .below 1, .ro, 0, 65535, 1, [], 0⟩,
   ⟨P.FLT_SAFE_CAUSE, .enum8, 1, .below 1, .ro, 0, 255, 1, [], 0⟩,
   ⟨P.FLT_ROPE_FAILED, .u64, 8, .below 1, .ro, 0, 18446744073709551615, 1, [], 0⟩,
   ⟨P.FLT_PLL_FAILED, .u32, 4, .below 1, .ro, 0, 4294967295, 1, [], 0⟩,
   ⟨P.FLT_SPARED, .u32, 4, .below 1, .ro, 0, 4294967295, 1, [], 0⟩]

/-- The parameters of a group (00 Table 0-4). -/
def catalogueGroup (g : Nat) : List ParamDef :=
  match g with
  | 0x01 => catalogue01
  | 0x02 => catalogue02
  | 0x03 => catalogue03
  | 0x04 => catalogue04
  | 0x05 => catalogue05
  | 0x06 => catalogue06
  | 0x07 => catalogue07
  | 0x08 => catalogue08
  | 0x09 => catalogue09
  | 0x0A => catalogue0A
  | 0x0B => catalogue0B
  | 0x0C => catalogue0C
  | 0x0D => catalogue0D
  | 0x0E => catalogue0E
  | 0x0F => catalogue0F
  | 0x10 => catalogue10
  | 0x11 => catalogue11
  | 0x12 => catalogue12
  | 0x13 => catalogue13
  | _ => []

/-- The groups 0x01 to 0x13. -/
def groups : List Nat := (List.range 19).map (· + 1)

/-- The row of an ID. -/
def paramDef (id : Nat) : Option ParamDef := (catalogueGroup (id / 256)).find? (fun d => d.id == id)

/-- PLLs with a sigma-delta modulator (18 Table 18-1). -/
def ditheredPlls : List Nat := (List.range 19).filter (fun k => k != 1 && k != 2)

/-- Is a number in an index set (R9)? -/
def IxSet.has (i : IxSet) (n : Nat) : Bool :=
  match i with
  | .below k => n < k
  | .groups => 1 ≤ n && n ≤ 19
  | .paged k => n < 65536 && n % 16384 < k
  | .seeds => ditheredPlls.contains n

/-- Every index of a set. -/
def IxSet.all (i : IxSet) : List Nat :=
  match i with
  | .below k => List.range k
  | .groups => (List.range 19).map (· + 1)
  | .paged k => (List.range 4).flatMap (fun h => (List.range k).map (fun p => h * 16384 + p))
  | .seeds => ditheredPlls

/-- Does a number lie in a parameter's Range (R10)? -/
def ParamDef.inRange (d : ParamDef) (v : Int) : Bool :=
  (decide (d.lo ≤ v) && decide (v ≤ d.hi) && v % d.step == 0) || d.extra.contains v

/-- The type code of a digest record (Table 2-6). -/
def PTy.code : PTy → Nat
  | .bool => 0
  | .u8 => 1
  | .u16 => 2
  | .u32 => 3
  | .u64 => 4
  | .s8 => 5
  | .s16 => 6
  | .s32 => 7
  | .enum8 => 8
  | .fixed => 9
  | .tbl => 10

/-- The class code of a digest record (Table 2-6). -/
def Cls.code : Cls → Nat
  | .imm => 0
  | .tick => 1
  | .stby => 2
  | .ro => 3

/-- Is a type signed? -/
def PTy.signed : PTy → Bool
  | .s8 => true
  | .s16 => true
  | .s32 => true
  | _ => false

end Sys2Proof.Machine
end

