-- ==== Sys2Proof/Config.lean ====
section
/-! DEFINITION. What one device's fuses, parts and firmware fix and the spec does not, and the free values: constants
without a body. -/

namespace Sys2Proof.Config

/-- The check byte of a 64-bit word: the Hsiao code's matrix is not given (05 R235). DESIGN CHOICE: assumption 35. -/
opaque hsiao : BitVec 64 → BitVec 8

/-- The die identifier in the fuses (00 Table 0-3, SYS_DIE_ID). DESIGN CHOICE: assumption 9. -/
opaque dieId : BitVec 64

/-- The variant the fuses set: true for LRD-4896-NX (00 Table 0-2). DESIGN CHOICE: assumption 9. -/
opaque variantNx : Bool

/-- The MAC address of a port, from fuses (04 ETH_MAC). DESIGN CHOICE: assumption 9. -/
opaque mac : PortIx → BitVec 48

/-- The Hsiao syndrome of an uncorrectable word: the code's matrix is not given (05 R235, Table 5-3). DESIGN CHOICE:
assumption 35. -/
opaque syndrome : Nat → BitVec 8

/-- The last 58 bits of a lane's scrambler after a run of IDLE beats, whose number is not given (09 R488). DESIGN CHOICE: assumption
103. -/
opaque laneState : Nat → Nat → BitVec 58

/-- The PTP port identity of a port (04 R216; the clock identity is the die's). DESIGN CHOICE: assumption 9. -/
opaque ptpIdentity : PortIx → BitVec 80

/-- Does an island image's signature verify against the island signing key, whose hash is fused (15 R696)? DESIGN CHOICE:
assumption 10. -/
opaque islandSignature : Bytes → Bool

/-- The CRC-32 of a sealed value whose serialisation is not given (15 Table 15-2 VALUE_CRC, kinds 1 to 3). -/
opaque sealValueCrc : Nat → BitVec 32

/-- Bytes 4 to 13 of an audit record whose write was interrupted (15 R714). -/
opaque incompleteRecord : Nat → BitVec 80

/-- The CIE 1931 2 degree colour-matching functions: entry i, function 0 to 2, U2.14 (08 R423). DESIGN CHOICE: assumption
9. -/
opaque cmf : Nat → Nat → BitVec 16

/-- The built-in blue-noise mask: page, byte (09 Table 9-1). DESIGN CHOICE: assumption 9. -/
opaque blueNoise : Nat → Nat → Byte

/-- Does a firmware image's signature verify against the public key whose hash is fused (19 R864)? DESIGN CHOICE:
assumption 10. -/
opaque fwSignature : Bytes → Bool

/-- The device's internal address map (03 R153): the parameter instance, as ID * 65536 + index, whose value a block holds
at an address, and which byte of it; none for an address of no parameter. DESIGN CHOICE: assumption 22. -/
opaque internalMap : Nat → Option (Nat × Nat)

/-- Which byte of LPDDR5 an internal address names: in the mirror pool or not, and its address; none for an address of none.
DESIGN CHOICE: assumption 22. -/
opaque internalMem : Nat → Option (Bool × Nat)

/-- A free temperature: what a thermal input reports where its formula gives no value for the field (20 R884, R885).
DESIGN CHOICE: assumption 8. -/
opaque openTemp : Nat → BitVec 16

/-- A free number: a value the spec leaves open. DESIGN CHOICE: assumption 8. -/
opaque freeNat : Nat → Nat

end Sys2Proof.Config
end

