-- ==== Sys2Proof/Machine/State.lean ====
section
/-! DEFINITION. The state of the block: everything the spec gives the device, plus the queue of commands that wait. -/

namespace Sys2Proof.Machine

/-- The reasons a step can stop with a fault. No rule of the spec gives a command a fault of its own: the device
answers, logs and goes on. The type is kept for the interface. -/
inductive Fault where
  /-- raised by nothing; safe -/
  | none
  deriving DecidableEq, Repr

/-- The reasons a step can be refused. -/
inductive Refusal where
  /-- raised by an arm of `exec` whose command has no meaning yet; safe -/
  | notModelled (mnemonic : String)
  deriving DecidableEq, Repr

/-! ## Device state and parameters (00, 02) -/

/-- Device states (00 Table 0-7). -/
inductive DevState where
  | boot
  | standby
  | armed
  | lit
  | hold
  | safe
  deriving DecidableEq, Repr

/-- The value of a parameter instance. -/
inductive PVal where
  | num (v : Int)
  | tbl (b : Bytes)
  deriving DecidableEq, Repr

/-- A full digest recomputation that runs (02 R101). -/
structure Recomp where
  /-- tick at which it began -/
  start   : Nat
  /-- groups written since (R102) -/
  written : List Nat
  deriving DecidableEq, Repr

/-- The parameter banks. Each list holds, by key = ID * 65536 + index, the values that differ from the reset value. -/
structure Par where
  /-- active values (00 Table 0-6, 02 R73) -/
  active : List (Nat × PVal)
  /-- staged values (02, The staged bank) -/
  staged : List (Nat × PVal)
  /-- what the blocks hold where a POKE made it differ from the active value (03 R154) -/
  held   : List (Nat × PVal)
  /-- what the accumulators of the active values stand for where it differs from the active value: what a recomputation
  took from the blocks (02 R99, R103) -/
  adopted : List (Nat × PVal)
  /-- incremental accumulators A_g of 02 R96, less the accumulator of the reset values, mod 2^256, groups 1 to 19 -/
  accA   : Vector Nat 19
  accS   : Vector Nat 19
  /-- SYS_BUDGET_STAGED and SYS_BUDGET_ACTIVE (01 R44) -/
  budgetStaged : Nat
  budgetActive : Nat
  /-- a recomputation that runs (02 R101) -/
  recomp : Option Recomp
  /-- TCK_RECOMP_AT (02 R104) -/
  recompAt : Nat
  deriving DecidableEq, Repr

/-! ## The tick (02) -/

/-- TCK_STATUS (02 Table 2-1). -/
inductive TckStatus where
  | free
  | locked
  | holdover
  | converging
  deriving DecidableEq, Repr

/-- The tick generator (02 R50 to R60). -/
structure Tick where
  /-- TCK_COUNT, always-on (R50) -/
  count : Nat
  /-- instant of the last edge, ns -/
  edgeAt : Nat
  /-- length of the running tick, ns (TCK_PERIOD_NS) -/
  period : Nat
  /-- the target of the pending commit (R72), none when none is pending -/
  commitAt : Option Nat
  status : TckStatus
  /-- TCK_OVERRUNS (R66) and TCK_HOLD_TICKS (19 R849) -/
  overruns : Nat
  holdTicks : Nat
  /-- solve completions of the last 256 ticks: (tick, ns after its edge) (TCK_SOLVE_NS) -/
  solves : List (Nat × Nat)
  /-- TICK_IN: last rising edge, last accepted edge, measured period and predicted next edge (R53, R54) -/
  tinRise : Option Nat
  tinAccepted : Option Nat
  tinPredicted : Option Nat
  /-- the period between the TICK_IN edges accepted last, ns (R53, R56) -/
  tinPeriod : Nat
  /-- last measured period of the source, ns (R56) -/
  measured : Nat
  /-- phase error of the tick against its source, ns, positive when the tick is late (R57) -/
  phaseErr : Int
  /-- the instant the generator places the next edge at -/
  nextEdge : Nat
  deriving DecidableEq, Repr

/-! ## Agfold Control Messages (03) -/

/-- How a message came, and where its answer goes (03 R108, 16). -/
inductive Via where
  | eth (p : PortIx)
  /-- forwarded over a Traverse port, with the forwarder's route (16) -/
  | trav (p : PortIx) (route : Nat)
  deriving DecidableEq, Repr

/-- The source of a request: where replies and events go. -/
structure ReplyTo where
  via : Via
  ip  : Nat
  udp : Nat
  deriving DecidableEq, Repr

/-- An authenticated request held or accepted (03 Mailboxes). -/
structure Msg where
  session : SessIx
  seq     : Nat
  typ     : Nat
  mailbox : Nat
  device  : Nat
  body    : Bytes
  reply   : ReplyTo
  /-- order of acceptance -/
  order   : Nat
  /-- accepted before the last WARM reset (R140) -/
  old     : Bool
  deriving DecidableEq, Repr

/-- A HELLO that waits for the earlier messages of its session (03 R125). -/
structure Hello where
  session : SessIx
  seq     : Nat
  mailbox : Nat
  epoch   : Nat
  body    : Bytes
  reply   : ReplyTo
  deriving DecidableEq, Repr

/-- A cached result (03 R137): what a duplicate is answered with. -/
structure Cached where
  seq     : Nat
  typ     : Nat
  mailbox : Nat
  /-- DEVICE of its header -/
  device  : Nat
  status  : Nat
  tick    : Nat
  epoch   : Nat
  /-- the payload was longer than 64 bytes -/
  trunc   : Bool
  payload : Bytes
  deriving DecidableEq, Repr

/-- A queued, unacknowledged event (03 R158 to R163). -/
structure QEvent where
  seq     : Nat
  payload : Bytes
  /-- TCK_COUNT when raised -/
  tick    : Nat
  /-- instant of the next transmission; none while it has not been sent, or a reset stopped its timer -/
  due     : Option Nat
  deriving DecidableEq, Repr

/-- One host session (03 Table 3-5, the command journal). -/
structure Session where
  open_       : Bool
  commission  : Bool
  /-- next expected sequence E -/
  next        : Nat
  /-- sequence of the last executed message -/
  lastExec    : Nat
  /-- sequence the next event carries -/
  evNext      : Nat
  mask        : Nat
  /-- last accepted HELLO_COUNT (R121) and HALT counter (R165) of the epoch -/
  helloCount  : Nat
  haltCount   : Nat
  /-- reply cache, newest first, at most 256 (R137) -/
  cache       : List Cached
  /-- held messages (Table 3-6) -/
  held        : List Msg
  /-- unacknowledged events, oldest first, at most 64 (R162) -/
  events      : List QEvent
  /-- events dropped since the last one queued (R162) -/
  lost        : Nat
  /-- source of the most recent authenticated request (R126) -/
  addr        : Option ReplyTo
  /-- instants of the last NAK, ERR_AUTH and R117 replies -/
  lastNak     : Option Nat
  lastAuth    : Option Nat
  lastRefusal : Option Nat
  /-- SYS_ACM_AUTHFAIL -/
  authFail    : Nat
  deriving DecidableEq, Repr

/-- A HALT on which the classifier has acted; the firmware's reply is due (03 R168). -/
structure HaltAct where
  session : SessIx
  mailbox : Nat
  counter : Nat
  reason  : Nat
  /-- where the reply goes: none for a HALT over a Traverse port when the session has no address -/
  reply   : Option ReplyTo
  /-- it blanked and latched; false for a counter not above the last (R168) -/
  acted   : Bool
  deriving DecidableEq, Repr

/-- The ACM unit. -/
structure Acm where
  sess     : Vector Session 4
  /-- accepted messages that have not executed, oldest first -/
  accepted : List Msg
  order    : Nat
  /-- the message a WARM reset interrupted (R136, R140) -/
  intent   : Option Msg
  hellos   : List Hello
  /-- EVENT_ACKs received: session and sequence -/
  acks     : List (SessIx × Nat)
  halts    : List HaltAct
  /-- keys loaded at the end of BOOT (19 R873) -/
  keys     : Vector (Option Bytes) 4
  commKey  : Vector Bool 4
  cascKey  : Option Bytes
  /-- current epoch (R118) -/
  epoch    : Nat
  /-- SYS_ACM_DROPS -/
  drops    : Nat
  deriving DecidableEq, Repr

/-! ## Faults (17) -/

/-- A fault log entry (17 Table 17-6). -/
structure LogEntry where
  seq   : Nat
  tick  : Nat
  block : Nat
  code  : Nat
  cls   : Nat
  unit  : Nat
  state : Nat
  data  : Bytes
  deriving DecidableEq, Repr

/-- A rope failure whose share is not yet handed over (17 R783). -/
structure RopeFail where
  rope  : RopeIx
  cause : RopeCause
  deriving DecidableEq, Repr

/-- Faults (17). -/
structure Flt where
  /-- SEQ of the last entry written -/
  seq       : Nat
  /-- newest first, at most 256 -/
  log       : List LogEntry
  /-- FLT_SAFE_CAUSE (Table 17-5) -/
  safeCause : Nat
  /-- FLT_ROPE_FAILED: failed ropes, out of service until the next COLD reset (R787) -/
  failed    : Vector Bool 34
  /-- spare ropes in service -/
  spare     : Vector Bool 34
  /-- ropes removed because a spare failed its self-test (R786) -/
  removed   : Vector Bool 34
  /-- the plan entry (task, head) whose work a rope carries -/
  share     : Vector (Option (Nat × Nat)) 34
  /-- what the memories of a spare rope hold: the (task, head) whose kernel pack and constant tables are loaded (R782) -/
  packs     : Vector (List (Nat × Nat)) 34
  /-- failures detected, not yet handed over -/
  waiting   : List RopeFail
  /-- plan entries that no rope carries any more (R785) -/
  bare      : List (Nat × Nat)
  /-- FLT_SPARED -/
  spared    : Nat
  deriving DecidableEq, Repr

/-! ## Supplies, reset, boot and flash (19) -/

/-- SYS_RESET_CAUSE (19 Table 19-11). -/
inductive ResetCause where
  | powerOn
  | resetN
  | watchdog
  | reset
  | brownout
  | bootTimeout
  | restore
  deriving DecidableEq, Repr

/-- Boot phases. -/
inductive BootPhase where
  /-- in reset: RESET_N asserted, or the reset sequence has not ended -/
  | inReset
  /-- the boot ROM and firmware load run -/
  | booting
  /-- service boot (19 R871) -/
  | service
  /-- neither bank qualifies (19 R866) -/
  | noBank
  /-- out of BOOT -/
  | done
  deriving DecidableEq, Repr

/-- Supplies and reset (19). -/
structure Pwr where
  /-- rails below their warning level (SYS_RAILS) -/
  coreLow   : Bool
  a18Low    : Bool
  /-- VDD_AON above its reset level -/
  aonUp     : Bool
  /-- HOLD: state at entry, instant of entry, rails involved, lowest level seen (mV), missed ticks -/
  holdFrom  : DevState
  holdAt    : Nat
  holdCore  : Bool
  holdA18   : Bool
  vmin      : Nat
  missed    : Nat
  /-- interlock drop with LIT at entry (Table 19-3) -/
  holdDrop  : Bool
  /-- cause of the SAFE to enter when HOLD ends (Table 19-3); 0 for none -/
  holdSafe  : Nat
  /-- SYS_HOLDS -/
  holds     : Nat
  /-- RESET_N pin -/
  resetPin  : Bool
  /-- a WARM reset that is due, with its cause -/
  due       : Option ResetCause
  /-- instant before which a RESET message's WARM reset does not begin (03 R152) -/
  dueAt     : Nat
  phase     : BootPhase
  cause     : ResetCause
  /-- end of the last reset, duration of the last boot -/
  bootAt    : Nat
  bootMs    : Nat
  /-- bank booted: false A, true B -/
  bankB     : Bool
  /-- take the bank the failed boot did not take (R867) -/
  otherBank : Bool
  /-- straps sampled at the end of reset -/
  gpio15    : Bool
  cascRole  : Bool
  deriving DecidableEq, Repr

/-- A firmware update (19 SYS_FW_UPDATE). -/
inductive FwState where
  | idle
  | opened
  | committed
  deriving DecidableEq, Repr

/-- The xSPI flash and its update (19 R863 to R880). -/
structure Flash where
  /-- commit record copies 0 and 1, 68 bytes each; shorter when erased or torn -/
  recs     : Vector Bytes 2
  /-- epoch sectors: 16-byte records in order -/
  epochs   : Vector (List Bytes) 2
  /-- key store -/
  keys     : Vector (Option Bytes) 4
  commKey  : Vector Bool 4
  cascKey  : Option Bytes
  /-- banks A and B: bytes programmed from the start -/
  banks    : Vector Bytes 2
  fw       : FwState
  fwBankB  : Bool
  fwLen    : Nat
  fwDone   : Nat
  deriving DecidableEq, Repr

/-- A session at the start of an epoch (03 R118, R121, R165). -/
def Session.closed : Session where
  open_ := false
  commission := false
  next := 0
  lastExec := 0
  evNext := 1
  mask := 0
  helloCount := 0
  haltCount := 0
  cache := []
  held := []
  events := []
  lost := 0
  addr := none
  lastNak := none
  lastAuth := none
  lastRefusal := none
  authFail := 0

def Par.reset : Par where
  active := []
  staged := []
  held := []
  adopted := []
  accA := Vector.replicate 19 0
  accS := Vector.replicate 19 0
  budgetStaged := 0
  budgetActive := 0
  recomp := none
  recompAt := 0

def Tick.reset : Tick where
  count := 0
  edgeAt := 0
  period := 16666667
  commitAt := none
  status := .free
  overruns := 0
  holdTicks := 0
  solves := []
  tinRise := none
  tinAccepted := none
  tinPredicted := none
  tinPeriod := 16666667
  measured := 16666667
  phaseErr := 0
  nextEdge := 16666667

def Acm.reset (epoch : Nat) : Acm where
  sess := Vector.replicate 4 Session.closed
  accepted := []
  order := 0
  intent := none
  hellos := []
  acks := []
  halts := []
  keys := Vector.replicate 4 none
  commKey := Vector.replicate 4 false
  cascKey := none
  epoch := epoch
  drops := 0

/-- Ropes 32 and 33 are the spares at COLD reset (17). -/
def Flt.reset : Flt where
  seq := 0
  log := []
  safeCause := 0
  failed := Vector.replicate 34 false
  spare := Vector.ofFn (fun (i : Fin 34) => decide (32 ≤ i.1))
  removed := Vector.replicate 34 false
  share := Vector.replicate 34 none
  packs := Vector.replicate 34 []
  waiting := []
  bare := []
  spared := 0

def Pwr.reset : Pwr where
  coreLow := false
  a18Low := false
  aonUp := true
  holdFrom := .standby
  holdAt := 0
  holdCore := false
  holdA18 := false
  vmin := 0
  missed := 0
  holdDrop := false
  holdSafe := 0
  holds := 0
  resetPin := true
  due := none
  dueAt := 0
  phase := .inReset
  cause := .powerOn
  bootAt := 0
  bootMs := 0
  bankB := false
  otherBank := false
  gpio15 := false
  cascRole := false

/-- The epoch record of epoch 1 (19 R868): U32, eight reserved bytes and the CRC-32 of both, little-endian. -/
def epochRecord1 : Bytes :=
  [0x01#8, 0x00#8, 0x00#8, 0x00#8, 0x00#8, 0x00#8, 0x00#8, 0x00#8, 0x00#8, 0x00#8, 0x00#8, 0x00#8, 0x00#8, 0x8A#8, 0x70#8, 0xE0#8]

/-- A flash on which nothing has been written but the first epoch: no commit record, no image, no key. -/
def Flash.blank : Flash where
  recs := Vector.replicate 2 []
  epochs := #v[[epochRecord1], []]
  keys := Vector.replicate 4 none
  commKey := Vector.replicate 4 false
  cascKey := none
  banks := Vector.replicate 2 []
  fw := .idle
  fwBankB := false
  fwLen := 0
  fwDone := 0

/-! ## Outputs -/

/-- A group record of an IGMP report (04 R186): record type of RFC 3376 (1 and 2 the INCLUDE or EXCLUDE state, 3 and 4 the change
to it, 5 and 6 sources allowed and blocked), group, sources. -/
abbrev IgmpRec := Nat × Nat × List Nat

/-- What leaves the device. -/
inductive Out where
  /-- an ACM datagram: header, payload and tag -/
  | acm (dst : ReplyTo) (srcPort : Nat) (dgram : Bytes)
  /-- an ARP message: a reply, or the gratuitous one of Table 4-2 -/
  | arp (p : PortIx) (reply : Bool) (targetMac targetIp : Nat)
  /-- an ICMP echo reply with the request's identifier, sequence and data -/
  | echo (p : PortIx) (ip : Nat) (data : Bytes)
  /-- an IGMP report of a version (R186) -/
  | igmp (p : PortIx) (version : Nat) (records : List IgmpRec)
  /-- a Delay_Req, multicast (ip 0) or to the master -/
  | delayReq (p : PortIx) (seq ip : Nat)
  /-- a Traverse frame: header and body, before its tag -/
  | trav (p : PortIx) (frame : Bytes)
  /-- a pulse of a channel from one of its current cores: code, start in 25 ps steps after its slot boundary, line start or DARK
  slot, length in steps (11 R539, R540) -/
  | pulse (c : ChanIx) (core : Fin 2) (code : Nat) (start : Int) (len : Nat)
  /-- a beat of a plane link: the sync header, the payload of each of the 32 lanes, and what the lanes send for it, scrambled, bit
  0 first (09 R487 to R492) -/
  | beat (h : HeadIx) (header : BitVec 2) (payload sent : List (BitVec 64))
  /-- IDLE beats of this payload until the next beat (09 R492, R496) -/
  | idle (h : HeadIx) (payload : BitVec 64)
  /-- the presentation record of a head frame: tick, second of its tick, blanked (02 R91) -/
  | record (h : HeadIx) (tick : Nat) (second blank : Bool)
  /-- PLh_STB rises for a block, at an instant in 2.5 ns after its head frame began, none for a clear, and stays high for 20 ns (09
  R493, R498) -/
  | strobe (h : HeadIx) (block : Nat) (at_ : Option Nat)
  /-- a pulse of 1 us of a GPIO for an event of a head at an absolute instant in 2.5 ns, or more of the pulse that runs (13 R642 to
  R644) -/
  | gpio (g : Fin 16) (low : Bool) (h : HeadIx) (event step : Nat) (extends_ : Bool)
  /-- LOCK is asserted for 5 ns (18 R836) -/
  | lock
  /-- TICK_OUT is high for a time from an instant, ns (02 R59) -/
  | tickOut (at_ width : Nat)
  /-- LAMP_SYNC rises (20 R904) -/
  | lampSync
  /-- a row is on, at a high level or a low one, for steps of 10 ns after its blanking steps (20 R902, R903) -/
  | lampRow (row : Fin 16) (high : Bool) (blank steps : Nat)
  /-- a lamp's sink draws its column's current in uA for steps of 10 ns from the start of the row window (20 R906) -/
  | lamp (n : Fin 256) (current steps : Nat)
  /-- a probe of 400 ns at a sixteenth of the current, from a step of the row window (20 R911) -/
  | lampProbe (n : Fin 256) (current start : Nat)
  /-- touch pulse trains are pulses; a line of the boot log on the UART (19 R871) -/
  | bootLog (bank : Nat)
  /-- a line of the island terminal (15) -/
  | line (text : Bytes) (deFrom deUntil : Nat)
  deriving DecidableEq, Repr

/-! ## Ethernet, receiver sessions and time (04) -/

/-- Bring-up of a port (04 Table 4-2). -/
inductive LinkPhase where
  /-- step 1: DOWN, auto-negotiation pages, or waiting for signal -/
  | down
  /-- step 2: TRAINING -/
  | training
  /-- step 3: trained, alignment under way -/
  | trained
  /-- step 5: UP -/
  | up
  deriving DecidableEq, Repr

/-- What a buffered frame carries, after the classifier's parse. -/
inductive Payload where
  | acm (srcIp srcPort : Nat) (data : Bytes)
  | ptp (dstPort srcIp : Nat) (data : Bytes)
  | arp (data : Bytes)
  | icmp (srcIp : Nat) (data : Bytes)
  | igmp (srcIp : Nat) (data : Bytes)
  | surface (srcIp : Nat) (data : Bytes)
  /-- a session datagram of the named sessions' path -/
  | video (sessions : List RxIx) (data : Bytes)
  /-- of no kind that Table 4-3 names -/
  | other
  deriving DecidableEq, Repr

/-- A buffered frame. -/
structure Buffered where
  p       : PortIx
  cls     : Nat
  len     : Nat
  t       : Nat
  payload : Payload
  deriving DecidableEq, Repr

/-- One Ethernet port. -/
structure Port where
  phase     : LinkPhase
  /-- policer buckets of classes 5, 6 and 7, in thousandths of a bit, and the instant they were last filled (R189) -/
  tokens    : Vector Nat 3
  filledAt  : Nat
  fecCorr   : Nat
  fecUncorr : Nat
  badFrames : Nat
  drops     : Vector Nat 8
  policed   : Vector Nat 8
  haltDrops : Nat
  /-- instants of ICMP echo answers in the last second (R184) -/
  echoes    : List Nat
  /-- until when an IGMPv1, and an IGMPv2, querier is taken to be present (R186) -/
  v1Until   : Nat
  v2Until   : Nat
  /-- membership changes to be reported again: instant, records (R186) -/
  repeats   : List (Nat × List IgmpRec)
  deriving DecidableEq, Repr

/-- The Ethernet ports and the ingress buffer. -/
structure Eth where
  ports   : Vector Port 2
  /-- frames in the reserves and the shared pool, oldest first (R189, R192) -/
  buf     : List Buffered
  /-- HALT slots, oldest first (R194) -/
  halt    : Vector (List Buffered) 2
  /-- levels of the GPIO inputs (R174) -/
  gpio    : Vector Bool 16
  deriving DecidableEq, Repr

/-- An open frame of a receiver session (04 R203, R205). -/
structure OpenFrame where
  ts      : Nat
  entry   : Fin 4
  handle  : Nat
  /-- arrival of its first accepted packet, of its marker, and of the first packet of a later frame -/
  firstAt : Nat
  markAt  : Option Nat
  laterAt : Option Nat
  /-- written pixel groups, as rising disjoint half-open spans of row * groups per row + group -/
  cover   : List (Nat × Nat)
  deriving DecidableEq, Repr

/-- A receiver session. -/
structure Rx where
  /-- learned SSRC (R200), instant of the last packet -/
  ssrc     : Option Nat
  lastAt   : Nat
  /-- last ring entry taken (R203) -/
  last     : Option (Fin 4)
  frames   : List OpenFrame
  /-- timestamps of frames for which no entry qualified -/
  noSurf   : List Nat
  /-- RTP timestamp of the newest completed frame (R206) -/
  newest   : Option Nat
  /-- ETH_RX_CURRENT -/
  current  : Nat
  /-- timestamps of the last frames that completed or were discarded, newest first -/
  closed   : List Nat
  /-- merge window (R211, R212), numbers unwrapped: the highest, the lowest not yet judged, and the numbers written, as
  rising disjoint half-open spans -/
  hi       : Option Nat
  lo       : Nat
  seen     : List (Nat × Nat)
  /-- of those, the numbers whose packet was written (R212) -/
  wrote    : List (Nat × Nat)
  /-- arrivals of first copies in the last second: number, port, instant; and differences found: instant, E1 - E0 in ns -/
  arrivals : List (Nat × Nat × Nat)
  diffs    : List (Nat × Int)
  /-- counters of Table 4-4 -/
  framesOk : Nat
  discards : Nat
  nosurfs  : Nat
  badPkt   : Vector Nat 2
  late     : Vector Nat 2
  lost     : Nat
  deriving DecidableEq, Repr

/-- ETH_PTP_STATE (04 Table 4-6). -/
inductive PtpState where
  | listening
  | uncalibrated
  | slave
  | holdover
  | faulty
  deriving DecidableEq, Repr

/-- A foreign master heard on a port (04 R219). -/
structure Master where
  p        : PortIx
  /-- source port identity -/
  source   : Nat
  srcIp    : Nat
  gm       : Nat
  /-- priority1, clock class, accuracy, variance, priority2, as one number, most significant first -/
  rank     : Nat
  steps    : Nat
  /-- log2 of the announce interval -/
  logInt   : Int
  /-- instants of the last Announce messages, newest first -/
  heard    : List Nat
  deriving DecidableEq, Repr

/-- The PTP ordinary clock (04 R216 to R225). -/
structure Ptp where
  state    : PtpState
  masters  : List Master
  /-- the selected master: port and source port identity -/
  sel      : Option (PortIx × Nat)
  gm       : Nat
  offset   : Int
  meanDelay : Nat
  /-- PTP time less the model's clock, ns -/
  ahead    : Int
  /-- frequency correction in use, ppb, and its record in SLAVE: instant, ppb -/
  freq     : Int
  freqLog  : List (Nat × Int)
  /-- consecutive Sync messages within the lock limit, and beyond four times it (R220) -/
  good     : Nat
  bad      : Nat
  /-- two-step Sync that waits for its Follow_Up: sequence, receive time, correction -/
  waiting  : Option (Nat × Int × Int)
  /-- last Sync: origin (master time, corrected) and receive time; its interval's log2 and instant -/
  t1       : Int
  t2       : Int
  syncLog  : Int
  syncAt   : Nat
  /-- the last measurement since the master was followed (R222) -/
  measAt   : Option Nat
  /-- Delay_Req sent and not answered: sequence -/
  reqSeq   : Nat
  holdAt   : Nat
  /-- when HOLDOVER was entered (ETH_PTP_HOLD_MS) -/
  holdSince : Nat
  deriving DecidableEq, Repr

def Port.reset : Port where
  phase := .down
  tokens := #v[8 * 8192 * 1000, 16 * 8192 * 1000, 64 * 8192 * 1000]
  filledAt := 0
  fecCorr := 0
  fecUncorr := 0
  badFrames := 0
  drops := Vector.replicate 8 0
  policed := Vector.replicate 8 0
  haltDrops := 0
  echoes := []
  v1Until := 0
  v2Until := 0
  repeats := []

def Eth.reset : Eth where
  ports := Vector.replicate 2 Port.reset
  buf := []
  halt := Vector.replicate 2 []
  gpio := Vector.replicate 16 false

def Rx.reset : Rx where
  ssrc := none
  lastAt := 0
  last := none
  frames := []
  noSurf := []
  newest := none
  current := 0
  closed := []
  hi := none
  lo := 0
  seen := []
  wrote := []
  arrivals := []
  diffs := []
  framesOk := 0
  discards := 0
  nosurfs := 0
  badPkt := Vector.replicate 2 0
  late := Vector.replicate 2 0
  lost := 0

def Ptp.reset : Ptp where
  state := .listening
  masters := []
  sel := none
  gm := 0
  offset := 0
  meanDelay := 0
  ahead := 0
  freq := 0
  freqLog := []
  good := 0
  bad := 0
  waiting := none
  t1 := 0
  t2 := 0
  syncLog := 0
  syncAt := 0
  measAt := none
  reqSeq := 0
  holdAt := 0
  holdSince := 0

/-! ## Memory and surfaces (05) -/

/-- A queued request of an LPDDR5 channel (05 R239 to R242). -/
structure QReq where
  req    : MemReq
  /-- younger requests of its bank served before it (R240) -/
  passed : Nat
  /-- a write whose row a queued read also addresses (R242) -/
  conf   : Bool
  deriving DecidableEq, Repr

/-- One LPDDR5 channel. -/
structure Chan where
  /-- oldest first, at most 64 -/
  queue    : List QReq
  /-- open row of each bank (R244) -/
  openRow  : Vector (Option Nat) 16
  /-- MEM_REFRATE: 0 1x, 1 2x, 2 4x; and the last MR4 reading was below 85 degC (R246) -/
  rate     : Nat
  below    : Bool
  /-- all-bank refreshes issued (R245) -/
  refreshes : Nat
  /-- refreshes missed while the controller's PLL is out of lock (18 R834) -/
  owed     : Nat
  /-- SRE has been issued (R248) -/
  selfRef  : Bool
  /-- MR4 is to be read after self-refresh exit (R251) -/
  mr4Due   : Bool
  /-- MEM_CE, MEM_UE -/
  ce       : Nat
  ue       : Nat
  /-- the last data delivered, with its error flag (R252, R253), or a FAILED controller's answer to a write (R262) -/
  resp     : Option (Bytes × Bool)
  /-- instant of the last access of each bank's page (R244), and of the last request (R248) -/
  lastAcc  : Vector Nat 16
  lastReq  : Nat
  deriving DecidableEq, Repr

/-- Memory: what an unlisted byte reads as is 0. -/
structure Mem where
  /-- the normal region by data address D; the two copies of the mirror pool by pool address (R236, R263) -/
  normal   : List Host.Cell
  primary  : List Host.Cell
  mirror   : List Host.Cell
  /-- 64-bit words whose check byte was complemented (R254), by address / 8, rising -/
  poison   : List Nat
  poisonP  : List Nat
  poisonM  : List Nat
  /-- QDR data by byte (R269) -/
  qdr      : Vector (List Host.Cell) 2
  /-- QDR words that read as uncorrectable, rising (R273) -/
  qpoison  : Vector (List Nat) 2
  /-- the last QDR word delivered, with its error flag (R271, R273) -/
  qresp    : Vector (Option (Bytes × Bool)) 2
  ch       : Vector Chan 8
  /-- MEM_MC_STATE: FAILED (R261) -/
  failed   : Vector Bool 4
  /-- a controller stood FAILED at the last tick edge (17 R788) -/
  shut     : Bool
  /-- instants of uncorrectable bursts in the last ms, per controller (R261) -/
  ueAt     : Vector (List Nat) 4
  /-- instant of the last EV_MEM_UNCORR per controller, then per QDR interface (R258) -/
  evAt     : Vector (Option Nat) 6
  /-- error log, newest first, at most 64 entries of 32 bytes; entries ever written (R259) -/
  errLog   : List Bytes
  errCount : Nat
  /-- MEM_QDR_CE, MEM_QDR_UE -/
  qce      : Vector Nat 2
  que      : Vector Nat 2
  /-- MEM_DENSITY (R232) -/
  density  : Nat
  deriving DecidableEq, Repr

/-- Surface states (05 Table 5-9); FREE is an index that is not listed. -/
inductive SurfState where
  | ready
  | filling
  | inUse
  | freePending
  deriving DecidableEq, Repr

/-- Surface kinds (05 Table 5-7). -/
inductive SurfKind where
  | planar
  | packed
  | atc
  | bytes
  deriving DecidableEq, Repr

/-- An open host transfer (05 R299, R300). -/
structure Transfer where
  session : SessIx
  writeId : Nat
  off     : Nat
  len     : Nat
  deriving DecidableEq, Repr

/-- A surface. -/
structure Surf where
  gen      : Nat
  st       : SurfState
  valid    : Bool
  kind     : SurfKind
  /-- CRITICAL: in the mirror pool (R263) -/
  pool     : Bool
  /-- NOTIFY (R296) -/
  notify   : Bool
  /-- ZERO clearing under way (R968) -/
  clearing : Bool
  width    : Nat
  height   : Nat
  format   : Nat
  /-- BYTES, and where the surface starts in its region (R971) -/
  size     : Nat
  off      : Nat
  writer   : Option Transfer
  /-- uncorrectable bursts met; last tick at which it was latched -/
  uncorr   : Nat
  lastTick : Nat
  /-- written in full as a writeback target in the running tick (R289) -/
  wbFull   : Bool
  deriving DecidableEq, Repr

/-- The surface table (05 R278 to R310). -/
structure SurfTab where
  /-- by index -/
  tbl      : List (Nat × Surf)
  /-- last generation of every index ever used -/
  gens     : List (Nat × Nat)
  /-- OPENs refused with ERR_SURFACE_BUSY: session, WRITE_ID, handle (R301) -/
  refused  : List (Nat × Nat × Nat)
  /-- MEM_SURF_DROPS, MEM_SURF_BUSYDROPS -/
  drops    : Vector Nat 4
  busy     : Vector Nat 4
  /-- other allocations of the mirror pool: plane store of head h under key h, the trace buffer under 4: offset, length
  (R971) -/
  extra    : List (Nat × (Nat × Nat))
  deriving DecidableEq, Repr

def Chan.reset : Chan where
  queue := []
  openRow := Vector.replicate 16 none
  rate := 0
  below := false
  refreshes := 0
  owed := 0
  selfRef := false
  mr4Due := false
  ce := 0
  ue := 0
  resp := none
  lastAcc := Vector.replicate 16 0
  lastReq := 0

def Mem.reset : Mem where
  normal := []
  primary := []
  mirror := []
  poison := []
  poisonP := []
  poisonM := []
  qdr := Vector.replicate 2 []
  qpoison := Vector.replicate 2 []
  qresp := Vector.replicate 2 none
  ch := Vector.replicate 8 Chan.reset
  failed := Vector.replicate 4 false
  shut := false
  ueAt := Vector.replicate 4 []
  evAt := Vector.replicate 6 none
  errLog := []
  errCount := 0
  qce := Vector.replicate 2 0
  que := Vector.replicate 2 0
  density := 0

def SurfTab.reset : SurfTab where
  tbl := []
  gens := []
  refused := []
  drops := Vector.replicate 4 0
  busy := Vector.replicate 4 0
  extra := []

/-! ## Composition (06) -/

/-- A working-space pixel (06 R311). -/
structure Px where
  r : Nat
  g : Nat
  b : Nat
  deriving DecidableEq, Repr

/-- A sample of a layer before scaling: colour, alpha, and whether a failing ATC tile holds it (06 R372). -/
structure Smp where
  px  : Px
  a   : Nat
  bad : Bool
  deriving DecidableEq, Repr

/-- The box-stage samples of a layer that the current head frame uses: those of some box-stage rows and columns, rising. -/
structure LayerImg where
  ys   : List Nat
  xs   : List Nat
  rows : List (List Smp)
  deriving DecidableEq, Repr

/-- A frame plan (06 Table 6-9). -/
structure Plan where
  wb       : Bool
  wbHandle : Nat
  target   : Nat
  /-- the edge at which it becomes active (R357) -/
  edge     : Nat
  src      : List Nat
  deriving DecidableEq, Repr

/-- The composition pipeline of a head, and its plans. -/
structure Comp where
  plan     : Option Plan
  pend     : Option Plan
  /-- handle latched by layer j at the last edge; 0 for none -/
  latched  : Vector Nat 16
  /-- writeback target of the running tick; 0 for none -/
  wbNow    : Nat
  /-- rows written into it in the running tick -/
  wbRows   : Nat
  held     : Vector Nat 16
  noSrc    : Vector Nat 16
  mismatch : Vector Nat 16
  uncorr   : Nat
  atcErr   : Nat
  legalCrc : Nat
  /-- a head frame is being composed -/
  busy     : Bool
  /-- it is the second of its tick -/
  half     : Bool
  /-- what the layers read for it; none before its first row -/
  images   : Option (List (Option LayerImg))
  /-- composed rows of the head frame, from row 0 on -/
  canvas   : List (List Px)
  deriving DecidableEq, Repr

def Comp.reset : Comp where
  plan := none
  pend := none
  latched := Vector.replicate 16 0
  wbNow := 0
  wbRows := 0
  held := Vector.replicate 16 0
  noSrc := Vector.replicate 16 0
  mismatch := Vector.replicate 16 0
  uncorr := 0
  atcErr := 0
  legalCrc := 0
  busy := false
  half := false
  images := none
  canvas := []

/-! ## The tile codec (07) -/

/-- Codec results and counters (07 Table 7-5). -/
structure Codec where
  /-- ATC_RESULT, 32 bytes -/
  result : Bytes
  jobs   : Nat
  raw    : Nat
  failed : Nat
  deriving DecidableEq, Repr

def Codec.reset : Codec where
  result := List.replicate 32 0#8
  jobs := 0
  raw := 0
  failed := 0

/-! ## Colour constancy (08) -/

/-- The estimate of one channel (08 R417, R419). -/
structure Est where
  lambda   : Nat          -- U12.4 nm
  power    : Nat          -- uW
  /-- 0 RATIO, 1 THERMAL, 2 FIXED, 3 CAL -/
  src      : Nat
  stale    : Bool
  ratioOut : Bool
  age      : Nat
  deriving DecidableEq, Repr

/-- What a solve gives one channel (08 R426, R444). -/
structure ChanUse where
  chan     : Nat
  role     : Nat
  excluded : Bool
  k        : Nat          -- U1.15
  scale    : Nat          -- U1.15
  range    : Nat
  est      : Est
  deriving DecidableEq, Repr

/-- A solve (08 R432 to R445, Table 8-7). -/
structure Solve where
  groups  : Nat
  active  : Nat
  held    : Bool
  cal     : Bool
  limited : Bool
  floor   : Bool
  clip    : Bool
  failed  : Bool
  /-- coefficients R, G, B of group g at 3g, U1.15 -/
  m       : List Nat
  dt      : Nat           -- U1.31
  di      : Nat           -- U1.31
  lum     : Nat
  sat     : Nat
  forTick : Nat
  chans   : List ChanUse
  deriving DecidableEq, Repr

/-- What a completed solve of one head gave: nothing for a head that needed none. -/
inductive SolveRes where
  | none
  | failed
  | ok (s : Solve)
  deriving DecidableEq, Repr

/-- The colour solve of one head. -/
structure Col where
  /-- in use for the current frame; none before the head first runs -/
  cur        : Option Solve
  /-- calibration solve of the active configuration, and of the pending commit (R437) -/
  cal        : Option Solve
  calNext    : Option Solve
  /-- the head has produced a solve since it last started (R65) -/
  produced   : Bool
  /-- completed for the next frame -/
  next       : SolveRes
  /-- the last solve failed (R436) -/
  lastFailed : Bool
  fails      : Nat
  /-- blank for the current frame under R64 -/
  blank      : Bool
  deriving DecidableEq, Repr

/-- The SOLVE task in the running tick (02 R62 to R66). -/
structure SolveTask where
  /-- the solve for the next frame has completed -/
  done     : Bool
  /-- the deadline has passed -/
  deadline : Bool
  /-- heads whose solve for the next frame is held -/
  held     : Nat
  /-- heads dimmed by the solve for the next frame, and for the current one (20 R895) -/
  dimNext  : Nat
  dim      : Nat
  deriving DecidableEq, Repr

def Est.reset : Est where
  lambda := 0
  power := 0
  src := 0
  stale := false
  ratioOut := false
  age := 0

def Col.reset : Col where
  cur := none
  cal := none
  calNext := none
  produced := false
  next := .none
  lastFailed := false
  fails := 0
  blank := false

def SolveTask.reset : SolveTask where
  done := false
  deadline := false
  held := 0
  dimNext := 0
  dim := 0

/-! ## Plane heads (09) -/

/-- A head frame in the plane store (R484). -/
structure PlaneBuf where
  /-- HDT_FRAMES of the head frame it holds, and the stripes whose slices are complete -/
  frame : Nat
  done  : List Nat
  deriving DecidableEq, Repr

/-- A head frame on its way to the array. -/
structure PlaneFrame where
  /-- the schedule it follows (R471) -/
  sched : Bytes
  /-- the solve it is presented with, none without one (11 R544) -/
  use   : Option Solve
  /-- it is the first head frame of its tick (11 R562) -/
  first : Bool
  /-- it is presented blank (02 R64) -/
  blank : Bool
  /-- its number, HDT_FRAMES at its start (R484) -/
  frame : Nat
  /-- when it began, ns (R469) -/
  t0    : Nat
  deriving DecidableEq, Repr

/-- A buffer of the stripe store (R482). -/
structure StripeBuf where
  /-- number of the head frame whose stripe it holds -/
  frame  : Nat
  /-- the stripe -/
  stripe : Nat
  /-- the field codes by row, used field and column -/
  codes  : List (List (List Nat))
  deriving DecidableEq, Repr

/-- The plane side of a head. -/
structure Pln where
  /-- PLh_RDY is asserted -/
  rdy      : Bool
  /-- a loss of PLh_RDY blanks from the next slot boundary (R500) -/
  losing   : Bool
  /-- buffers of the plane store; head frame k stands in buffer k mod 3 -/
  bufs     : Vector PlaneBuf 3
  /-- the two buffers of the stripe store (R482) -/
  stripes  : Vector (Option StripeBuf) 2
  /-- the second buffer of the stripe store is written next (R482) -/
  second   : Bool
  /-- the head frame that is shown (R471) -/
  shown    : PlaneFrame
  /-- the head frame whose slots load (R471, R485) -/
  loading  : PlaneFrame
  /-- the head frame that runs and will load (R481) -/
  coming   : PlaneFrame
  /-- the loads of slot 0 of the running head frame wait for a SYNC_IN edge; have begun -/
  waiting  : Bool
  begun    : Bool
  /-- slot being loaded, block to load next, slices that failed in it -/
  loadSlot : Option Nat
  loadBlk  : Nat
  /-- slot shown; it has emitted -/
  slot     : Option Nat
  emitted  : Bool
  /-- the slot being loaded, the slot shown, are dark for a failed slice (R502) -/
  darkNext : Bool
  dark     : Bool
  /-- for each field: the head frame each stripe is shown from, none for dark (R485) -/
  src      : List (Nat × List (Option Nat))
  /-- running CRC-32 of the slice being sent (R501) -/
  crc      : BitVec 32
  /-- a failing slice of the head frame has been logged (R502) -/
  logged   : Bool
  /-- ps from the head frame's start to Λ of the one that loads, to the boundary of the one shown -/
  lambdaPs : Nat
  sigmaPs  : Nat
  /-- blocks that the PHASE_STROBEs of the slot being loaded have named, oldest first (R493) -/
  strobes  : List Nat
  /-- the last 58 bits of each lane's scrambler, the oldest in bit 0 (R488) -/
  lanes    : Vector (BitVec 58) 32
  underruns : Nat
  checkErr : Nat
  rdyLoss  : Nat
  deriving DecidableEq, Repr

def PlaneBuf.reset : PlaneBuf where
  frame := 0
  done := []

def PlaneFrame.none : PlaneFrame where
  sched := []
  use := Option.none
  first := false
  blank := true
  frame := 0
  t0 := 0

def Pln.reset : Pln where
  rdy := false
  losing := false
  bufs := Vector.replicate 3 PlaneBuf.reset
  stripes := Vector.replicate 2 none
  second := false
  shown := PlaneFrame.none
  loading := PlaneFrame.none
  coming := PlaneFrame.none
  waiting := false
  begun := false
  loadSlot := none
  loadBlk := 0
  slot := none
  emitted := false
  darkNext := false
  dark := false
  src := []
  crc := 0
  logged := false
  lambdaPs := 0
  sigmaPs := 0
  strobes := []
  lanes := Vector.replicate 32 0
  underruns := 0
  checkErr := 0
  rdyLoss := 0

/-! ## Scan heads (10) -/

/-- Fast-axis states (10 Table 10-5). -/
inductive FastState where
  | stopped
  | sweep
  | locking
  | locked
  | failed
  deriving DecidableEq, Repr

/-- How long conditions on the values delivered by a fast axis have held without a break: as phase that has passed, in
units of 2^-31 / 192000000 turn (Tables 10-5, 10-6), and active lines for SLOW. -/
structure AxisWatch where
  /-- the windows of LOCKING hold (Table 10-5) -/
  window    : Option Nat
  /-- the sense amplitude is below the limit of SENSE (Table 10-6) -/
  sense     : Option Nat
  /-- the phase error is beyond the limit of LOCK (Table 10-6) -/
  lock      : Option Nat
  /-- the amplitude is beyond the limit of AMPLITUDE (Table 10-6) -/
  amplitude : Option Nat
  /-- the frequency is outside f_lo to f_hi (Table 10-6) -/
  frequency : Bool
  /-- active lines in a row with the slow axis off its position (Table 10-6) -/
  slow      : Nat
  /-- rho - j at the last judged midpoint, S15.16 (Table 10-7) -/
  offset    : Int
  /-- the midpoint of the running line has been judged (Table 10-6) -/
  judged    : Bool
  deriving DecidableEq, Repr

def AxisWatch.reset : AxisWatch where
  window := none
  sense := none
  lock := none
  amplitude := none
  frequency := false
  slow := 0
  offset := 0
  judged := false

/-- The scan side of a head. -/
structure Scn where
  st        : FastState
  /-- instant SWEEP began, FAILED was entered; a STOPPED axis starts its sweep at the next base period -/
  since     : Nat
  sweepDue  : Bool
  /-- the axis has been LOCKED since its sweep began -/
  reached   : Bool
  /-- A latched at the line start, S1.30 (R515) -/
  amp       : Int
  /-- f latched at the line start, 2^-30 mHz (R515) -/
  freq      : Nat
  /-- phi latched at the line start, 2^-31 / 192000000 turn (R515) -/
  phase     : Nat
  /-- A delivered by the MIRROR slot at the start of its last sample (12 R623) -/
  ampNow    : Int
  /-- f delivered then (12 R623) -/
  freqNow   : Nat
  /-- phi delivered then (12 R623) -/
  phaseNow  : Nat
  /-- the phase error delivered then (12 R623; Table 10-6) -/
  errNow    : Int
  /-- how long the conditions of Tables 10-5 and 10-6 have held -/
  watch     : AxisWatch
  /-- active line running (R512) -/
  active    : Option Nat
  /-- active lines begun in the head frame (R512) -/
  begun     : Nat
  /-- the line runs forward (R508) -/
  forward   : Bool
  /-- start of the line, ns (R512) -/
  lineAt    : Nat
  /-- end of active line L_a - 1 of the last head frame, ns -/
  endAt     : Nat
  /-- SCN_BIDIR as latched at the line start (R508); samples of the line emitted, and chips passed -/
  bidir     : Int
  emitted   : Nat
  chips     : Nat
  /-- band rows written, released (R530), and those written when the running line began (R531) -/
  written   : Nat
  released  : Nat
  avail     : Nat
  /-- the running line holds a sample not reached; it is emitted with code 0 (13 R663) -/
  unreached : Bool
  dark      : Bool
  /-- the turning point of a probe zone after the last active line: side of it, 0 for none (11 R562) -/
  turn      : Nat
  /-- the head frame has a band underrun -/
  underrun  : Bool
  /-- SCN_TIMING of the last head frame (Table 10-4) -/
  leadNs    : Nat
  flyNs     : Nat
  underruns : Nat
  notReached : Nat
  uncorr    : Nat
  legalErr  : Nat
  fails     : Nat
  deriving DecidableEq, Repr

def Scn.reset : Scn where
  st := .stopped
  since := 0
  sweepDue := false
  reached := false
  amp := 0
  freq := 0
  phase := 0
  ampNow := 0
  freqNow := 0
  phaseNow := 0
  errNow := 0
  watch := AxisWatch.reset
  active := none
  begun := 0
  forward := true
  lineAt := 0
  endAt := 0
  bidir := 0
  emitted := 0
  chips := 0
  written := 0
  released := 0
  avail := 0
  unreached := false
  dark := false
  turn := 0
  underrun := false
  leadNs := 0
  flyNs := 0
  underruns := 0
  notReached := 0
  uncorr := 0
  legalErr := 0
  fails := 0

/-! ## Emitter channels and the Anchor (11) -/

/-- A sense front end (11 R550, R551). -/
structure SenseEnd where
  range   : Nat
  /-- consecutive samples below 6,000, at most 64 -/
  low     : Nat
  /-- the last sample was above 60,000 -/
  overR    : Bool
  /-- the next sample follows a move -/
  moved   : Bool
  /-- last normalised count -/
  last    : Nat
  deriving DecidableEq, Repr

/-- Sums of the running tick (08 R414) and of the diagnosis (11 R559, R560). -/
structure TickSums where
  nl : Nat
  sp : Nat
  sw : Nat
  /-- drive integrals, over 2^32 * 4095 -/
  sd : Nat
  nd : Nat
  zp : Nat
  zw : Nat
  /-- every sample of the tick: number and PD_P counts -/
  n  : Nat
  q  : Nat
  /-- sum of code * duration * gain over the pulses, in code * 25 ps * 2^-16 -/
  e  : Nat
  /-- lit samples of the probe: number and PD_P counts; a probe was emitted -/
  pn : Nat
  pp : Nat
  probed : Bool
  deriving DecidableEq, Repr

/-- One emitter channel. -/
structure Emit where
  openF      : Bool
  shortF     : Bool
  driverF    : Bool
  faults     : Nat
  probes     : Nat
  clamps     : Nat
  pdp        : SenseEnd
  pdw        : SenseEnd
  /-- normalised PD_P samples of the last millisecond, newest first, at most 2,000 (R578) -/
  mean       : List Nat
  sums       : TickSums
  /-- most recent non-zero dark means: number of samples and sums (08 R415) -/
  dark       : Nat × Nat × Nat
  /-- permitted to emit throughout the running tick so far (R557) -/
  steady     : Bool
  /-- INTEGRAL accumulators of the window (R560): counts, samples, dark sum and dark number of each tick; E as in the
  sums -/
  winQ       : List (Nat × Nat × Nat × Nat)
  winE       : Nat
  /-- a test has been evaluated in the window -/
  evaluated  : Bool
  /-- a probe is scheduled in the running tick (R561) -/
  probeDue   : Bool
  /-- the last window ended with no evaluation (R563) -/
  windowOver : Bool
  /-- consecutive ticks in which Z_P exceeds the short threshold (R564) -/
  shortRun   : Nat
  undetermined : Bool
  ratio      : Nat
  method     : Nat
  evalTick   : Nat
  /-- closed estimate, and whether sums have been valid since the head started (08 R422) -/
  est        : Est
  fresh      : Bool
  /-- driver range on ECn_RNG -/
  range      : Nat
  /-- the bias output of its Belay slot, as a code (R546) -/
  belayBias  : Nat
  /-- bias code applied (R577) -/
  bias       : Nat
  /-- ECn_EN: the instant since which it is asserted (R547) -/
  en         : Option Nat
  /-- PD_P samples ever taken: number and counts, of all and of the dark ones (12 Table 12-2) -/
  tot        : Nat × Nat
  totDark    : Nat × Nat
  /-- start and end of the last pulse of the running scan line, in 25 ps steps (R541) -/
  pulseAt    : Option (Int × Int)
  /-- the codes loaded into the two current cores, and the core of the last pulse (R540) -/
  cores      : Vector Nat 2
  core       : Fin 2
  deriving DecidableEq, Repr

/-- The Anchor. -/
structure Anchor where
  pinA     : Bool
  pinB     : Bool
  /-- the pins differ since (R573) -/
  differAt : Option Nat
  /-- latched faults -/
  discrepancy : Bool
  power    : Bool
  halt     : Bool
  /-- code of the first one, channel of a POWER fault, and tick (Table 11-11) -/
  fault    : Nat
  faultCh  : Nat
  faultTick : Nat
  /-- motion of each head is valid (R579) -/
  motion   : Vector Bool 4
  deriving DecidableEq, Repr

def SenseEnd.reset : SenseEnd where
  range := 0
  low := 0
  overR := false
  moved := false
  last := 0

def TickSums.reset : TickSums where
  nl := 0
  sp := 0
  sw := 0
  sd := 0
  nd := 0
  zp := 0
  zw := 0
  n := 0
  q := 0
  e := 0
  pn := 0
  pp := 0
  probed := false

def Emit.reset : Emit where
  openF := false
  shortF := false
  driverF := false
  faults := 0
  probes := 0
  clamps := 0
  pdp := SenseEnd.reset
  pdw := SenseEnd.reset
  mean := []
  sums := TickSums.reset
  dark := (0, 0, 0)
  steady := false
  winQ := []
  winE := 0
  evaluated := false
  probeDue := false
  windowOver := false
  shortRun := 0
  undetermined := false
  ratio := 0
  method := 0
  evalTick := 0
  est := Est.reset
  fresh := false
  range := 0
  belayBias := 0
  bias := 0
  en := none
  tot := (0, 0)
  totDark := (0, 0)
  pulseAt := none
  cores := Vector.replicate 2 0
  core := 0

def Anchor.reset : Anchor where
  pinA := false
  pinB := false
  differAt := none
  discrepancy := false
  power := false
  halt := false
  fault := 0
  faultCh := 255
  faultTick := 0
  motion := Vector.replicate 4 false

/-! ## The Belay engine (12) -/

/-- A blend in progress (R615): old output, step, steps. -/
structure Blend where
  uo : Int
  k  : Nat
  n  : Nat
  deriving DecidableEq, Repr

/-- What a slot computes with: descriptor, coefficient bank, profile, and for a MIRROR slot the head's set points. -/
structure BlyCfg where
  desc : Bytes
  coef : Bytes
  prof : Bytes
  /-- SCN_FREQ, SCN_AMP_SET, SCN_FTOL -/
  fSet : Nat
  aSet : Nat
  ftol : Nat
  deriving DecidableEq, Repr

/-- One loop slot. Values are S1.30; integrators S3.60. -/
structure BlySlot where
  /-- it has been enabled since BOOT and its law is not OFF -/
  on       : Bool
  cfg      : BlyCfg
  /-- BANK: B is active; tick of the commit edge of the last swap -/
  bankB    : Bool
  swapTick : Nat
  /-- output applied, and the result to apply at the next sample -/
  u        : Int
  next     : Int
  /-- last input, previous input of the derivative, integrator, derivative -/
  y        : Int
  yPrev    : Int
  i        : Int
  d        : Int
  /-- filter and state values: x1, x2, v1, v2 of each BIQUAD section; e1, u1 of LEADLAG; x0 to x3 of STATESPACE -/
  x        : List Int
  blend    : Option Blend
  /-- a hand-over waits for the next sample that is not stale -/
  hand     : Bool
  /-- MIRROR: amplitude integrator, x, target amplitude, blend of x -/
  iAmp     : Int
  mx       : Int
  aTgt     : Int
  /-- MIRROR: the phase of the NCO and of the sense fundamental at the last sample, in 2^-31 / 192000000 turn, and e_phi -/
  theta    : Nat
  sense    : Nat
  err      : Int
  /-- the mode of the last sample was LOCK, SWEEP -/
  lock     : Bool
  sweep    : Bool
  /-- profile position, velocity, acceleration: binary64 bit patterns -/
  pp       : Nat
  pv       : Nat
  pa       : Nat
  /-- flags of Table 12-13: u at a limit, integrator at a limit, stale, integration stopped -/
  fLim     : Bool
  fInt     : Bool
  fStale   : Bool
  fStop    : Bool
  /-- values of the nodes of Table 12-11 at the last sample -/
  nodes    : Vector Int 18
  /-- instant of the last sample, ns, and the channel's totals then (Table 12-2) -/
  at_      : Nat
  tot      : Nat × Nat
  totDark  : Nat × Nat
  handovers : Nat
  deriving DecidableEq, Repr

/-- Trace states (R634). -/
inductive TraceSt where
  | idle
  | armed
  | triggered
  | done
  deriving DecidableEq, Repr

/-- A trace channel: its slot (none when off), node, decimation, samples of the slot seen, and what is recorded before and
from the trigger on, newest first. -/
structure TraceCh where
  slot  : Option (Fin 128)
  node  : Nat
  decim : Nat
  seen  : Nat
  pre   : List Int
  post  : List Int
  deriving DecidableEq, Repr

/-- The traces (R630 to R635). -/
structure Trace where
  st    : TraceSt
  trig  : Nat
  pre   : Nat
  trigCh : Nat
  level : Int
  ch    : Vector TraceCh 8
  /-- samples the trigger channel has recorded, and the last one -/
  count : Nat
  last  : Option Int
  trigBase : Nat
  trigTick : Nat
  deriving DecidableEq, Repr

/-- The engine. -/
structure Bly where
  slot    : Vector BlySlot 128
  /-- base count b, and the instant of base period 0, ns -/
  base    : Nat
  startNs : Nat
  /-- the base count at which the domain went to its guard clock, while it runs on it (18 R832) -/
  guardAt : Option Nat
  /-- tick of the last commit edge -/
  edge    : Nat
  trace   : Trace
  deriving DecidableEq, Repr

def BlyCfg.off : BlyCfg where
  desc := []
  coef := []
  prof := []
  fSet := 0
  aSet := 0
  ftol := 0

def BlySlot.reset : BlySlot where
  on := false
  cfg := BlyCfg.off
  bankB := false
  swapTick := 0
  u := 0
  next := 0
  y := 0
  yPrev := 0
  i := 0
  d := 0
  x := []
  blend := none
  hand := false
  iAmp := 0
  mx := 0
  aTgt := 0
  theta := 0
  sense := 0
  err := 0
  lock := false
  sweep := false
  pp := 0
  pv := 0
  pa := 0
  fLim := false
  fInt := false
  fStale := false
  fStop := false
  nodes := Vector.replicate 18 0
  at_ := 0
  tot := (0, 0)
  totDark := (0, 0)
  handovers := 0

def TraceCh.off : TraceCh where
  slot := none
  node := 0
  decim := 1
  seen := 0
  pre := []
  post := []

def Trace.reset : Trace where
  st := .idle
  trig := 0
  pre := 0
  trigCh := 0
  level := 0
  ch := Vector.replicate 8 TraceCh.off
  count := 0
  last := none
  trigBase := 0
  trigTick := 0

def Bly.reset : Bly where
  slot := Vector.replicate 128 BlySlot.reset
  base := 0
  startNs := 0
  guardAt := none
  edge := 0
  trace := Trace.reset

/-! ## Heads (02, 13) -/

/-- A signature region (13 R655 to R661). -/
structure Sig where
  sig     : Nat
  /-- LIVE: signature of the first head frame of the previous tick; STATIC: the reference learned -/
  prev    : Option Nat
  /-- LIVE: the signature last compared against (Table 13-6 REF) -/
  against : Nat
  /-- LIVE: ticks unchanged (R656); -/
  count   : Nat
  alarm   : Bool
  /-- STATIC: head frames of the tick that differed -/
  diffs   : Nat
  /-- an alarm began or ended in the running tick -/
  changed : Bool
  freezes : Nat
  deriving DecidableEq, Repr

/-- A head port. -/
structure Head where
  /-- the head runs: started on leaving STANDBY, not stopped since -/
  on       : Bool
  /-- waits for PLh_RDY, a first SYNC_IN edge, a LOCKED fast axis or PLL lock before it restarts as a retime -/
  wait     : Bool
  /-- PLh_RDY, or a first SYNC_IN edge, is outstanding; loads may begin once it is not (09 R496, R497) -/
  rdyWait  : Bool
  /-- it stands since the head started: R497 may still apply -/
  starting : Bool
  /-- HDT_STATUS flag 5: R497 has applied -/
  late     : Bool
  /-- first tick whose frame it presents; ARMED-blank before -/
  showAt   : Nat
  /-- HDT_FRAMES -/
  frames   : Nat
  /-- a head frame is running, began at, is the second of its tick, its number (09 R469) -/
  t0       : Nat
  second   : Bool
  number   : Nat
  /-- it is presented blank: code 0 (02 R64; 13 R660; 15 R723; 17 R785) -/
  blank    : Bool
  /-- SOB, LINE_MATCH and FRAME_DONE of it, ns after it began (Table 13-4) -/
  sobNs    : Nat
  lineNs   : Option Nat
  doneNs   : Nat
  /-- head frames of the tick with an underrun; the running one has one -/
  under    : Nat
  underNow : Bool
  /-- timing events of the running head frame in the order they are recorded: instant in 2.5 ns, code (13 R642) -/
  marks    : List (Nat × Nat)
  underruns : Nat
  /-- SYNC_IN: edge since t0, delta of the last head frame, sync misses in a row, HDT_SYNC_MISS, logged (13 R646 to R650) -/
  syncEdge : Bool
  syncDelta : Nat
  syncAt   : Bool
  syncRun  : Nat
  syncMiss : Nat
  shadowErr : Nat
  regions  : Vector Sig 16
  deriving DecidableEq, Repr

def Sig.reset : Sig where
  sig := 0
  prev := none
  against := 0
  count := 0
  alarm := false
  diffs := 0
  changed := false
  freezes := 0

def Head.reset : Head where
  on := false
  wait := false
  rdyWait := false
  starting := false
  late := false
  showAt := 0
  frames := 0
  t0 := 0
  second := false
  number := 0
  blank := false
  sobNs := 0
  lineNs := some 0
  doneNs := 0
  under := 0
  underNow := false
  marks := []
  underruns := 0
  syncEdge := false
  syncDelta := 0
  syncAt := false
  syncRun := 0
  syncMiss := 0
  shadowErr := 0
  regions := Vector.replicate 16 Sig.reset

/-! ## Touch (14) -/

/-- TICK parameters of Table 14-1 in the coding of their table, as a head frame uses them (R686). -/
structure TouchCfg where
  thresh  : Nat
  ratio   : Nat
  areaMin : Nat
  areaMax : Nat
  shift   : Nat
  learn   : Nat
  track   : Nat
  move    : Nat
  deriving DecidableEq, Repr

/-- Chip sums of one cell (R672): chips counted, S_A, S_B. -/
structure ChipSum where
  n  : Nat
  a  : Int
  b  : Int
  deriving DecidableEq, Repr

/-- The chips of a head frame: sums by cell number 128 y + x, and blind cells (R670). -/
structure TouchFrame where
  tick  : Nat
  half  : Bool
  /-- presented blank under R64, R88 or R660 (R683) -/
  blank : Bool
  /-- the channel was permitted to emit at some instant of an active line (R683) -/
  lit   : Bool
  cfg   : TouchCfg
  /-- its last active line ended, ns -/
  ended : Nat
  sums  : List (Nat × ChipSum)
  blind : List Nat
  deriving DecidableEq, Repr

/-- A contact that is tracked (R679, R680). -/
structure Contact where
  id       : Nat
  x        : Nat
  y        : Nat
  strength : Nat
  /-- tick since which its ID is present -/
  since    : Nat
  isNew    : Bool
  /-- position last reported -/
  rx       : Nat
  ry       : Nat
  /-- TOUCH_STUCK has come; suppressed -/
  stuck    : Bool
  hidden   : Bool
  deriving DecidableEq, Repr

/-- The background model (R684, R685): restarts at the next head frame that is not unlit, then learns, then runs. -/
inductive TouchStage where
  | restart
  | learn (n : Nat)
  | run
  deriving DecidableEq, Repr

/-- Touch of one head. -/
structure Touch where
  /-- the running head frame, and those whose active lines have ended and that are not evaluated, oldest first -/
  acc      : Option TouchFrame
  ready    : List TouchFrame
  stage    : TouchStage
  /-- no EV_TOUCH has been raised since the last restart -/
  announce : Bool
  contacts : List Contact
  /-- IDs lifted since the last event -/
  lifted   : Nat
  /-- FLAGS of the last event; of the last head frame -/
  repFlags : Nat
  flags    : Nat
  unlit    : Bool
  count    : Nat
  blindCells : Nat
  filmCells : Nat
  tick     : Nat
  /-- m_A and m_B of the last head frame by cell; an unlisted cell reads 0, 0 -/
  map      : List (Nat × (Nat × Nat))
  films    : Nat
  late     : Nat
  blinds   : Nat
  deriving DecidableEq, Repr

def Touch.reset : Touch where
  acc := none
  ready := []
  stage := .restart
  announce := true
  contacts := []
  lifted := 0
  repFlags := 0
  flags := 0
  unlit := false
  count := 0
  blindCells := 0
  filmCells := 0
  tick := 0
  map := []
  films := 0
  late := 0
  blinds := 0

/-! ## The Cairn island (15) -/

/-- What the island does. SEAL_OPEN of ISL_STATE is RUN with SEAL_BREAK asserted. -/
inductive IslRun where
  | off
  | run
  | fault
  deriving DecidableEq, Repr

/-- A written slot of the island's program store (15 R695). -/
structure IslSlot where
  version : BitVec 16
  image   : Bytes
  deriving DecidableEq, Repr

/-- A posted window image (15 R719). -/
structure IslBuf where
  image  : Bytes
  rw     : Nat
  rh     : Nat
  /-- it shows the weight, not the invalid form -/
  weight : Bool
  deriving DecidableEq, Repr

/-- A readback that waits for the island's check unit (15 R725). -/
structure Readback where
  composing : Bool
  crc       : Nat
  /-- the buffer latched for the head frame, and the zoom it was placed with -/
  buf       : Option IslBuf
  zoom      : Nat
  deriving DecidableEq, Repr

/-- The check unit's view of one head (15 R725 to R727). -/
structure IslHead where
  composing  : Bool
  inMismatch : Bool
  /-- consecutive mismatches and matches -/
  bad        : Nat
  good       : Nat
  /-- matched in a head frame showing the current weight image -/
  shown      : Bool
  expect     : Nat
  read       : Nat
  mismatches : Nat
  /-- readbacks not yet judged, oldest first -/
  queue      : List Readback
  deriving DecidableEq, Repr

/-- One bridge input. -/
structure Bridge where
  /-- last code, for pairs under AC excitation -/
  last  : Int
  /-- consecutive conversions with a low sense or a saturated code, and without -/
  bad   : Nat
  good  : Nat
  fault : Bool
  deriving DecidableEq, Repr

/-- The island. -/
structure Isl where
  run       : IslRun
  /-- the device has had the island's state since the last COLD reset (ISL_STATE) -/
  reported  : Bool
  sealOpen  : Bool
  /-- PLL_ISL has lost lock: the indication is held (18 Table 18-3) -/
  pllOut    : Bool
  slots     : Vector (Option IslSlot) 4
  slot      : Nat
  /-- audit records, oldest first -/
  audit     : List Bytes
  metro     : Metro
  /-- sealed window geometry -/
  geom      : Vector Window 4
  bridges   : Vector Bridge 4
  /-- last raw loads W, newest first, and last values of G, newest first; value units * 2^33 -/
  raws      : List Int
  hist      : List Int
  /-- W_f, and the current zero Z_0 -/
  wf        : Int
  zero      : Int
  /-- the initial zero, and whether the first stable indication has been judged (R707) -/
  zeroInit  : Option Int
  zeroTried : Bool
  tare      : Int
  net       : Bool
  stable    : Bool
  /-- the identification line shows until, ns (R698) -/
  ident     : Option Nat
  /-- ISL_DE is asserted until, ns (R716) -/
  deUntil   : Nat
  /-- the buffer that has been posted (R719) -/
  posted    : Option IslBuf
  /-- a buffer has been posted since the island last entered RUN (R724) -/
  postedNow : Bool
  heads     : Vector IslHead 4
  legalOk   : Bool
  /-- LEGAL_OK at the last tick edge, and the first deassertion since: cause, head, expected and read CRC (R730) -/
  legalEdge : Bool
  cause     : Option (Nat × Nat × Nat × Nat)
  deriving DecidableEq, Repr

/-- What the device keeps of the island's window (15 R720, R722, R724). -/
structure LegalWin where
  /-- last geometry received, in the always-on domain; all disabled until one is received -/
  win     : Vector Window 4
  /-- the buffer latched at the last edge; none for an image whose bytes are all 0 -/
  latched : Option IslBuf
  /-- heads whose window-not-contained fault is logged (R723) -/
  logged  : Vector Bool 4
  deriving DecidableEq, Repr

def Window.none : Window where
  enable := false
  zoom := 1
  x := 0
  y := 0
  rw := 16
  rh := 8

/-- The weighing parameters before Birtia Seal has set any. -/
def Metro.unset : Metro where
  mask := 0#4
  k := Vector.replicate 4 0
  z := Vector.replicate 4 0
  zCal := 0
  unitTonne := false
  dec := 0
  max := 100
  e := 1
  min := 1
  rate := 10
  avg := 1
  ac := false
  tareSemi := false
  zeroTrack := false
  everyUpdate := false
  baud := 9600

def Bridge.reset : Bridge where
  last := 0
  bad := 0
  good := 0
  fault := false

def IslHead.reset : IslHead where
  composing := false
  inMismatch := false
  bad := 0
  good := 0
  shown := false
  expect := 0
  read := 0
  mismatches := 0
  queue := []

def Isl.reset : Isl where
  run := .off
  reported := false
  sealOpen := false
  pllOut := false
  slots := Vector.replicate 4 none
  slot := 0
  audit := []
  metro := Metro.unset
  geom := Vector.replicate 4 Window.none
  bridges := Vector.replicate 4 Bridge.reset
  raws := []
  hist := []
  wf := 0
  zero := 0
  zeroInit := none
  zeroTried := false
  tare := 0
  net := false
  stable := false
  ident := none
  deUntil := 0
  posted := none
  postedNow := false
  heads := Vector.replicate 4 IslHead.reset
  legalOk := false
  legalEdge := false
  cause := none

def LegalWin.reset : LegalWin where
  win := Vector.replicate 4 Window.none
  latched := none
  logged := Vector.replicate 4 false

/-! ## Cascade (16) -/

/-- A seam entry of the receiver (16 R775). -/
structure Seam where
  /-- newest complete surface of the pair; 0 for none -/
  newest : Nat
  /-- the surface being filled, and its next row -/
  filling : Option (Nat × Nat)
  late   : Nat
  deriving DecidableEq, Repr

/-- CAS_LINK (Table 16-9). -/
inductive CasLink where
  | down
  | training
  | up
  deriving DecidableEq, Repr

/-- One Traverse port. -/
structure CasPort where
  link     : CasLink
  /-- held DOWN for a duplicate device number (R743) -/
  held     : Bool
  /-- CAS_LINK_DELAY, ps; CAS_LINK_ERR; CAS_FWD_DROPS -/
  delay    : Nat
  errs     : Nat
  fwdDrops : Nat
  /-- time stamp of the neighbour's last LINK frame, and when it arrived, ps (R743) -/
  stamp    : Option (Nat × Nat)
  /-- hops to each device through this port, and own edges since it was last heard -/
  hops     : Vector (Option (Nat × Nat)) 8
  /-- VIDEO and SEAM frames of the last ms: instant, bits (R772) -/
  sent     : List (Nat × Nat)
  deriving DecidableEq, Repr

/-- What a device's LINK frames told of it. -/
structure CasDev where
  eligible : Bool
  priority : Nat
  /-- advertised video paths: Ethernet port, group, source, UDP port (R771) -/
  paths    : List (Nat × Nat × Nat × Nat)
  deriving DecidableEq, Repr

/-- CAS_ROLE (Table 16-9). -/
inductive CasRole where
  | alone
  | master
  | slave
  | waiting
  deriving DecidableEq, Repr

/-- A decision on a cascade commit, carried until its target edge (R757 to R759). -/
inductive CasDecision where
  | none
  | go
  | abort
  deriving DecidableEq, Repr

/-- A surface route of the master (R767). -/
structure Route where
  session : Nat
  writeId : Nat
  device  : Nat
  handle  : Nat
  deriving DecidableEq, Repr

/-- A request the master forwarded and whose reply it has not relayed: what a route needs of it (R767). -/
structure Forwarded where
  session : Nat
  seq     : Nat
  device  : Nat
  typ     : Nat
  op      : Nat
  writeId : Nat
  handle  : Nat
  deriving DecidableEq, Repr

/-- A transfer of an OPEN that came over a Traverse port: the master is told when it ends (R768). -/
structure Remote where
  session : Nat
  writeId : Nat
  port    : PortIx
  master  : Nat
  deriving DecidableEq, Repr

/-- The cascade. -/
structure Cas where
  port     : Vector CasPort 2
  devs     : Vector CasDev 8
  role     : CasRole
  /-- CAS_MASTER; none for 0xFF -/
  master   : Option Nat
  epoch    : Nat
  /-- consecutive own edges without a TICK frame (R750); one has come since the last edge -/
  silent   : Nat
  heard    : Bool
  /-- the master's edge that the last TICK frame gave: number, instant in ps; the master's period, ns -/
  edge     : Option (Nat × Int × Nat)
  /-- the number to take at the next edge (R745) -/
  adopt    : Option Nat
  /-- the pending commit was prepared here as master: participants, those whose ACK is held (R755, R757) -/
  mine     : Bool
  parts    : Nat
  acks     : Nat
  /-- decision that the TICK frames carry, and its target -/
  decision : CasDecision
  target   : Nat
  /-- GO is held for the pending commit, or it was accepted with no other device to ask -/
  go       : Bool
  /-- the vote a slave repeats: none while it has none; cause 0 for ACK (R756) -/
  vote     : Option Nat
  /-- SHARED of the last TICK frame followed (R748) -/
  shared   : Nat
  /-- CAS_LAST_ABORT, CAS_ABORTS -/
  lastAbort : Nat
  aborts   : Nat
  /-- CAS_SPLIT, and the groups that differed at the last TICK frame (R762) -/
  split    : Nat
  differ   : Nat
  routes   : List Route
  fwd      : List Forwarded
  remote   : List Remote
  /-- first copies taken in a ring: port and content (R741) -/
  seen     : List (PortIx × Bytes)
  seam     : Vector Seam 8
  deriving DecidableEq, Repr

def Seam.reset : Seam where
  newest := 0
  filling := none
  late := 0

def CasPort.reset : CasPort where
  link := .down
  held := false
  delay := 0
  errs := 0
  fwdDrops := 0
  stamp := none
  hops := Vector.replicate 8 none
  sent := []

def CasDev.unknown : CasDev where
  eligible := false
  priority := 128
  paths := []

def Cas.reset : Cas where
  port := Vector.replicate 2 CasPort.reset
  devs := Vector.replicate 8 CasDev.unknown
  role := .alone
  master := none
  epoch := 0
  silent := 0
  heard := false
  edge := none
  adopt := none
  mine := false
  parts := 0
  acks := 0
  decision := .none
  target := 0
  go := false
  vote := none
  shared := 8
  lastAbort := 0
  aborts := 0
  split := 0
  differ := 0
  routes := []
  fwd := []
  remote := []
  seen := []
  seam := Vector.replicate 8 Seam.reset

/-! ## Clocks (18) -/

/-- CLK_STATUS STATE (18 Table 18-6). -/
inductive PllState where
  | off
  | acquiring
  | locked
  | unlocked
  | failed
  deriving DecidableEq, Repr

/-- One PLL. -/
structure Pll where
  st       : PllState
  /-- consecutive comparisons in and out of window (R828) -/
  inRun    : Nat
  outRun   : Nat
  /-- the last comparison was out of window (R836) -/
  outNow   : Bool
  /-- the outputs are aligned (R821, R822) -/
  aligned  : Bool
  unlocks  : Nat
  lostAt   : Nat
  /-- phase errors of the last ms that are not followed by a larger one: instant, ps; newest first -/
  peaks    : List (Nat × Nat)
  lockTick : Nat
  /-- the VCO frequency, from which it slews, mHz (R817, R818) -/
  vco      : Nat
  /-- the frequency it runs at or slews to, mHz (R818) -/
  target   : Nat
  /-- instant the slew began, ns (R817) -/
  slewAt   : Nat
  /-- the seed from which the modulator runs since the last realignment (R824); none before one, or without a modulator -/
  seed     : Option Nat
  /-- losses of lock in the running tick; an event has been raised in it -/
  losses   : Nat
  raised   : Bool
  /-- PEAK of the events after a loss: the largest error in the ms before it (R835) -/
  lostPeak : Nat
  deriving DecidableEq, Repr

/-- Clock generation. -/
structure Clk where
  pll     : Vector Pll 20
  /-- REFCLK_SYS is missing (R808) -/
  refMissing : Bool
  /-- CLK_ROPE_LEVEL (R816), and the level of a DIV_GO that is held (R833) -/
  level   : Nat
  divHeld : Option Nat
  deriving DecidableEq, Repr

def Pll.reset : Pll where
  st := .acquiring
  inRun := 0
  outRun := 0
  outNow := false
  aligned := false
  unlocks := 0
  lostAt := 0
  peaks := []
  lockTick := 0
  lostPeak := 0
  vco := 0
  target := 0
  slewAt := 0
  seed := none
  losses := 0
  raised := false

def Clk.reset : Clk where
  pll := Vector.replicate 20 Pll.reset
  refMissing := false
  level := 0
  divHeld := none

/-! ## Thermal sensing (20) -/

/-- A thermal input. -/
structure Therm where
  /-- latest conversion, 0.01 degC, truncated; rounded down; last good one -/
  temp    : Int
  low     : Int
  good    : Int
  /-- consecutive conversions at or above the warning, throttle and step-2 levels, at most 2 -/
  nWarn   : Nat
  nThrot  : Nat
  nStep   : Nat
  /-- levels entered and not left -/
  warn    : Bool
  throt   : Bool
  crit    : Bool
  /-- consecutive bad conversions, at most 2; good ones, at most 16; faulted (R886) -/
  nBad    : Nat
  nGood   : Nat
  fault   : Bool
  /-- sum and number of the running tick's conversions; of the last tick with good ones (R421, R887) -/
  sum     : Int
  n       : Nat
  mean    : Int × Nat
  /-- last transition of the running tick: EV_THERMAL DATA (R897) -/
  ev      : Option Bytes
  deriving DecidableEq, Repr

/-- Thermal sensing. -/
structure Thm where
  die       : Vector Therm 24
  rem       : Vector Therm 16
  /-- a die sensor has called for level 2 (R893); instant of the last change of level; EV_THERMAL of a change -/
  step2     : Bool
  levelAt   : Option Nat
  levelEv   : Option Bytes
  throttles : Nat
  deriving DecidableEq, Repr

/-! ## The lamp matrix (20) -/

/-- The parameters in use: those at the last scan frame start (R904). -/
structure LampCfg where
  enable  : Bool
  rowblank : Bool
  rate    : Nat
  blank   : Nat
  bits    : Nat
  curve   : Nat
  icol    : List Nat
  probe   : Bool
  shortV  : Nat
  deriving DecidableEq, Repr

/-- One lamp. -/
structure Lamp where
  /-- accumulator (R906) -/
  acc    : Nat
  /-- latched fault: 0 none, 1 OPEN, 2 SHORT; last finding; scan frames since the last evaluation (R910 to R913) -/
  fault  : Nat
  last   : Nat
  since  : Nat
  undet  : Bool
  deriving DecidableEq, Repr

/-- The lamp matrix. -/
structure Lmp where
  cfg    : LampCfg
  run    : Bool
  frame  : Nat
  row    : Nat
  /-- levels shown, and the back buffer (R907) -/
  front  : Bytes
  back   : Option Bytes
  lamps  : Vector Lamp 256
  swaps  : Nat
  faults : Nat
  deriving DecidableEq, Repr

def Therm.reset : Therm where
  temp := 0
  low := 0
  good := 0
  nWarn := 0
  nThrot := 0
  nStep := 0
  warn := false
  throt := false
  crit := false
  nBad := 0
  nGood := 0
  fault := false
  sum := 0
  n := 0
  mean := (0, 0)
  ev := none

def Thm.reset : Thm where
  die := Vector.replicate 24 Therm.reset
  rem := Vector.replicate 16 Therm.reset
  step2 := false
  levelAt := none
  levelEv := none
  throttles := 0

def LampCfg.reset : LampCfg where
  enable := false
  rowblank := false
  rate := 400
  blank := 500
  bits := 8
  curve := 1
  icol := List.replicate 16 500
  probe := true
  shortV := 4000

def Lamp.reset : Lamp where
  acc := 0
  fault := 0
  last := 0
  since := 0
  undet := false

def Lmp.reset : Lmp where
  cfg := LampCfg.reset
  run := false
  frame := 0
  row := 16
  front := List.replicate 512 0#8
  back := none
  lamps := Vector.replicate 256 Lamp.reset
  swaps := 0
  faults := 0



/-- The machine. -/
structure State where
  /-- commands that wait, first in, first out -/
  pending : List Instr
  /-- instant of the last timed command, in ns -/
  now : Nat
  /-- counter of the free values drawn -/
  free : Nat
  /-- the device state (00 Table 0-7) -/
  dev : DevState
  /-- parameter banks, digests (00, 01, 02) -/
  par : Par
  /-- the tick generator (02) -/
  tick : Tick
  /-- Agfold Control Messages (03) -/
  acm : Acm
  /-- bytes that POKEs wrote at addresses of the device's internal map that no parameter is known at (03 R153, R154) -/
  internal : List Host.Cell
  /-- faults and rope sparing (17) -/
  flt : Flt
  /-- supplies, reset, boot (19) -/
  pwr : Pwr
  /-- flash and firmware update (19) -/
  fw : Flash
  /-- Ethernet ports and ingress buffer (04) -/
  eth : Eth
  /-- receiver sessions (04) -/
  rx : Vector Rx 8
  /-- the PTP clock (04) -/
  ptp : Ptp
  /-- LPDDR5 and QDR memory (05) -/
  mem : Mem
  /-- the surface table (05) -/
  surf : SurfTab
  /-- composition pipelines and frame plans (06) -/
  comp : Vector Comp 4
  /-- the tile codec (07) -/
  codec : Codec
  /-- the colour solve of each head (08) -/
  col : Vector Col 4
  /-- the SOLVE task (02, 08) -/
  sol : SolveTask
  /-- plane heads (09) -/
  pln : Vector Pln 4
  /-- plane stores taken for the pending commit: head, offset, length; a head that stops being a plane head has length 0 (09 R484) -/
  stores : List (Nat × (Nat × Nat))
  /-- scan heads (10) -/
  scn : Vector Scn 4
  /-- emitter channels (11) -/
  em : Vector Emit 48
  /-- the Anchor (11) -/
  anc : Anchor
  /-- the Belay engine and its traces (12) -/
  bly : Bly
  /-- heads: runs, head frames, freeze detector (13) -/
  head : Vector Head 4
  /-- the heads run from the next tick edge on: ARMED has been entered and not left for STANDBY (02 R93) -/
  headsRun : Bool
  /-- the heads that run stop at the next tick edge, before any starts: ARMED or LIT has been left for STANDBY -/
  headsStop : Bool
  /-- end of the last event pulse of each GPIO, ns (13 R643, R644) -/
  gpio : Vector Nat 16
  /-- touch sensing (14) -/
  tch : Vector Touch 4
  /-- the Cairn island (15) -/
  isl : Isl
  /-- what the device keeps of the island's window (15) -/
  lw : LegalWin
  /-- the cascade (16) -/
  cas : Cas
  /-- PLLs and clock domains (18) -/
  clk : Clk
  /-- thermal sensing (20) -/
  thm : Thm
  /-- the lamp matrix (20) -/
  lmp : Lmp
  /-- the instruction in the boundary-scan instruction register (21 R944) -/
  jtag : JtagInstr
  /-- what has left the device, newest first -/
  out : List Out
  deriving DecidableEq, Repr

/-- The machine right after a COLD reset (19 R854). -/
def State.reset : State where
  pending := []
  now := 0
  free := 0
  dev := .boot
  par := Par.reset
  tick := Tick.reset
  acm := Acm.reset 1
  internal := []
  flt := Flt.reset
  pwr := Pwr.reset
  fw := Flash.blank
  eth := Eth.reset
  rx := Vector.replicate 8 Rx.reset
  ptp := Ptp.reset
  mem := Mem.reset
  surf := SurfTab.reset
  comp := Vector.replicate 4 Comp.reset
  codec := Codec.reset
  col := Vector.replicate 4 Col.reset
  sol := SolveTask.reset
  pln := Vector.replicate 4 Pln.reset
  stores := []
  scn := Vector.replicate 4 Scn.reset
  em := Vector.replicate 48 Emit.reset
  anc := Anchor.reset
  bly := Bly.reset
  head := Vector.replicate 4 Head.reset
  headsRun := false
  headsStop := false
  gpio := Vector.replicate 16 0
  tch := Vector.replicate 4 Touch.reset
  isl := Isl.reset
  lw := LegalWin.reset
  cas := Cas.reset
  clk := Clk.reset
  thm := Thm.reset
  lmp := Lmp.reset
  jtag := .idcode
  out := []

end Sys2Proof.Machine
end

