-- ==== Sys2Proof/Machine/Resets.lean ====
section
/-! DEFINITION. Reset values of the parameters whose reset value is not one number of the catalogue. -/

namespace Sys2Proof.Machine

/-- The identity matrix with zero offsets: CMP_CSC and CMP_GAMUT (06 Table 6-7). -/
def identityTable : Bytes := [16384, 0, 0, 0, 16384, 0, 0, 0, 16384].flatMap (toLE 4) ++ zeros 16

/-- BILINEAR taps: CMP_FILTER (06 R331). -/
def bilinearTable : Bytes := (List.range 64).flatMap (fun ph => toLE 2 0 ++ toLE 2 (4096 - 64 * ph) ++ toLE 2 (64 * ph) ++ toLE 2 0)

/-- The class of each DSCP (04 R187). -/
def dscpTable : Bytes := (List.range 64).map (fun d => byteOf (
  if d = 48 then 7 else if d = 46 then 6 else if d = 16 then 4 else if d = 34 then 3 else if d = 26 then 2
  else if d = 18 then 1 else 0))

/-- BT.2020 primaries, D65 white, 100 cd/m^2 (08 Table 8-4, Table 8-3). PRESUMED: assumption 15. -/
def targetTable : Bytes :=
  let xy (v : Nat) : Bytes := toLE 2 (divHalfUp (v * 65536) 10000)
  xy 3127 ++ xy 3290 ++ xy 7080 ++ xy 2920 ++ xy 1700 ++ xy 7970 ++ xy 1310 ++ xy 460 ++ toLE 4 100000 ++ zeros 4

/-- Page `p` of the identity mesh of 61 columns and 35 rows of nodes (09 R460, 10 R522). -/
def meshTable (p : Nat) : Bytes := (List.range 512).flatMap (fun k =>
  let n := 512 * p + k
  if n < 2135 then toLE 4 ((n % 61) * 2 ^ 24) ++ toLE 4 ((n / 61) * 2 ^ 24) else zeros 8)

/-- A page of gains 1.0 (09 R465, 10 R526). -/
def unityTable : Bytes := (List.range 2048).flatMap (fun _ => [0x00#8, 0x80#8])

/-- A page of the built-in mask (09 R468). -/
def ditherTable (p : Nat) : Bytes := (List.range 4096).map (fun k => Config.blueNoise p k)

/-- The reset values of tables that are not all 0; `p` is the index, less the head bits of a paged table. PRESUMED:
assumption 15. -/
def resetTable (id p : Nat) (len : Nat) : Bytes :=
  if id == P.CMP_CSC || id == P.CMP_GAMUT then identityTable
  else if id == P.CMP_FILTER then bilinearTable
  else if id == P.ETH_DSCP_MAP then dscpTable
  else if id == P.COL_TARGET then targetTable
  else if id == P.PLN_MESH || id == P.SCN_MESH then meshTable p
  else if id == P.PLN_UNIF || id == P.SCN_UNIF then unityTable
  else if id == P.PLN_DITHER then ditherTable p
  else zeros len

/-- The reset value of a parameter instance. -/
def resetValue (id ix : Nat) : PVal :=
  match paramDef id with
  | none => .num 0
  | some d =>
    if d.ty == .tbl then .tbl (resetTable id (ix % 16384) d.len)
    else if id == P.MEM_QDR_SEL then .num (ix % 2)
    else if id == P.SCN_FAST_SLOT then .num (2 * ix)
    else if id == P.SCN_SLOW_SLOT then .num (2 * ix + 1)
    else .num d.reset

end Sys2Proof.Machine
end

