-- ==== Sys2Proof/Machine/Sha.lean ====
section
/-! DEFINITION. SHA-256, HMAC-SHA-256 and SHA-384 (02 R95, 03 R110, 19 Table 19-6): the named standards, computed. -/

namespace Sys2Proof.Machine

/-- Round constants of SHA-256: fractions of the cube roots of the first 64 primes. -/
def sha256K : List (BitVec 32) :=
  [0x428A2F98#32, 0x71374491#32, 0xB5C0FBCF#32, 0xE9B5DBA5#32, 0x3956C25B#32, 0x59F111F1#32,
   0x923F82A4#32, 0xAB1C5ED5#32, 0xD807AA98#32, 0x12835B01#32, 0x243185BE#32, 0x550C7DC3#32,
   0x72BE5D74#32, 0x80DEB1FE#32, 0x9BDC06A7#32, 0xC19BF174#32, 0xE49B69C1#32, 0xEFBE4786#32,
   0x0FC19DC6#32, 0x240CA1CC#32, 0x2DE92C6F#32, 0x4A7484AA#32, 0x5CB0A9DC#32, 0x76F988DA#32,
   0x983E5152#32, 0xA831C66D#32, 0xB00327C8#32, 0xBF597FC7#32, 0xC6E00BF3#32, 0xD5A79147#32,
   0x06CA6351#32, 0x14292967#32, 0x27B70A85#32, 0x2E1B2138#32, 0x4D2C6DFC#32, 0x53380D13#32,
   0x650A7354#32, 0x766A0ABB#32, 0x81C2C92E#32, 0x92722C85#32, 0xA2BFE8A1#32, 0xA81A664B#32,
   0xC24B8B70#32, 0xC76C51A3#32, 0xD192E819#32, 0xD6990624#32, 0xF40E3585#32, 0x106AA070#32,
   0x19A4C116#32, 0x1E376C08#32, 0x2748774C#32, 0x34B0BCB5#32, 0x391C0CB3#32, 0x4ED8AA4A#32,
   0x5B9CCA4F#32, 0x682E6FF3#32, 0x748F82EE#32, 0x78A5636F#32, 0x84C87814#32, 0x8CC70208#32,
   0x90BEFFFA#32, 0xA4506CEB#32, 0xBEF9A3F7#32, 0xC67178F2#32]

/-- Initial hash of SHA-256: fractions of the square roots of the first 8 primes. -/
def sha256H : List (BitVec 32) :=
  [0x6A09E667#32, 0xBB67AE85#32, 0x3C6EF372#32, 0xA54FF53A#32, 0x510E527F#32, 0x9B05688C#32, 0x1F83D9AB#32, 0x5BE0CD19#32]

/-- Rotation of a word to the right. -/
def rotr {w : Nat} (x : BitVec w) (n : Nat) : BitVec w := x.rotateRight n

/-- A message padded to blocks of `blk` bytes, its bit length in the last `lenBytes` bytes. -/
def shaPad (blk lenBytes : Nat) (m : Bytes) : Bytes :=
  let z := (2 * blk - 1 - lenBytes - m.length % blk) % blk
  m ++ [0x80#8] ++ zeros z ++ toBE lenBytes (8 * m.length)

/-- The message schedule, newest word first, from the 16 words of a block. -/
def schedule {w : Nat} (s0 s1 : BitVec w → BitVec w) : Nat → List (BitVec w) → List (BitVec w)
  | 0, l => l
  | n + 1, l =>
    schedule s0 s1 n ((s1 (l.getD 1 0#w) + l.getD 6 0#w + s0 (l.getD 14 0#w) + l.getD 15 0#w) :: l)

/-- The eight working words. -/
structure ShaWords (w : Nat) where
  a : BitVec w
  b : BitVec w
  c : BitVec w
  d : BitVec w
  e : BitVec w
  f : BitVec w
  g : BitVec w
  h : BitVec w
  deriving DecidableEq, Repr

/-- One round. -/
def shaRound {w : Nat} (S0 S1 : BitVec w → BitVec w) (x : ShaWords w) (k v : BitVec w) : ShaWords w :=
  let t1 := x.h + S1 x.e + ((x.e &&& x.f) ^^^ (~~~ x.e &&& x.g)) + k + v
  let t2 := S0 x.a + ((x.a &&& x.b) ^^^ (x.a &&& x.c) ^^^ (x.b &&& x.c))
  ⟨t1 + t2, x.a, x.b, x.c, x.d + t1, x.e, x.f, x.g⟩

/-- All rounds of a block. -/
def shaRounds {w : Nat} (S0 S1 : BitVec w → BitVec w) : List (BitVec w) → List (BitVec w) → ShaWords w → ShaWords w
  | k :: ks, v :: vs, x => shaRounds S0 S1 ks vs (shaRound S0 S1 x k v)
  | _, _, x => x

/-- The words as a structure and back. -/
def shaOfList {w : Nat} (l : List (BitVec w)) : ShaWords w :=
  ⟨l.getD 0 0#w, l.getD 1 0#w, l.getD 2 0#w, l.getD 3 0#w, l.getD 4 0#w, l.getD 5 0#w, l.getD 6 0#w, l.getD 7 0#w⟩
def shaToList {w : Nat} (x : ShaWords w) : List (BitVec w) := [x.a, x.b, x.c, x.d, x.e, x.f, x.g, x.h]

/-- The sum of two lists of words. -/
def addWords {w : Nat} (x y : List (BitVec w)) : List (BitVec w) := List.zipWith (· + ·) x y

/-- The words of a block, `n` bytes each. -/
def blockWords (w n : Nat) (b : Bytes) : List (BitVec w) := (chunks n 16 b).map (fun c => BitVec.ofNat w (natBE c))

/-- One block of SHA-256. -/
def sha256Block (h : List (BitVec 32)) (b : Bytes) : List (BitVec 32) :=
  let s0 : BitVec 32 → BitVec 32 := fun x => rotr x 7 ^^^ rotr x 18 ^^^ (x >>> 3)
  let s1 : BitVec 32 → BitVec 32 := fun x => rotr x 17 ^^^ rotr x 19 ^^^ (x >>> 10)
  let w := (schedule s0 s1 48 (blockWords 32 4 b).reverse).reverse
  let r := shaRounds (fun x => rotr x 2 ^^^ rotr x 13 ^^^ rotr x 22) (fun x => rotr x 6 ^^^ rotr x 11 ^^^ rotr x 25)
    sha256K w (shaOfList h)
  addWords h (shaToList r)

/-- SHA-256. PRESUMED: assumption 83. -/
def sha256 (m : Bytes) : Bytes :=
  let p := shaPad 64 8 m
  ((chunks 64 (p.length / 64) p).foldl sha256Block sha256H).flatMap (fun x => toBE 4 x.toNat)

/-- HMAC-SHA-256 with a key of at most 64 bytes. PRESUMED: assumption 83. -/
def hmacSha256 (key m : Bytes) : Bytes :=
  let k := key ++ zeros (64 - key.length)
  sha256 (k.map (· ^^^ 0x5C#8) ++ sha256 (k.map (· ^^^ 0x36#8) ++ m))

/-- The tag of a message: the first 16 bytes of its HMAC (R110). PRESUMED: assumption 83. -/
def tagOf (key m : Bytes) : Bytes := (hmacSha256 key m).take 16

/-- Round constants of SHA-384: fractions of the cube roots of the first 80 primes. -/
def sha512Ka : List (BitVec 64) :=
  [0x428A2F98D728AE22#64, 0x7137449123EF65CD#64, 0xB5C0FBCFEC4D3B2F#64, 0xE9B5DBA58189DBBC#64,
   0x3956C25BF348B538#64, 0x59F111F1B605D019#64, 0x923F82A4AF194F9B#64, 0xAB1C5ED5DA6D8118#64,
   0xD807AA98A3030242#64, 0x12835B0145706FBE#64, 0x243185BE4EE4B28C#64, 0x550C7DC3D5FFB4E2#64,
   0x72BE5D74F27B896F#64, 0x80DEB1FE3B1696B1#64, 0x9BDC06A725C71235#64, 0xC19BF174CF692694#64,
   0xE49B69C19EF14AD2#64, 0xEFBE4786384F25E3#64, 0x0FC19DC68B8CD5B5#64, 0x240CA1CC77AC9C65#64,
   0x2DE92C6F592B0275#64, 0x4A7484AA6EA6E483#64, 0x5CB0A9DCBD41FBD4#64, 0x76F988DA831153B5#64,
   0x983E5152EE66DFAB#64, 0xA831C66D2DB43210#64, 0xB00327C898FB213F#64, 0xBF597FC7BEEF0EE4#64,
   0xC6E00BF33DA88FC2#64, 0xD5A79147930AA725#64, 0x06CA6351E003826F#64, 0x142929670A0E6E70#64,
   0x27B70A8546D22FFC#64, 0x2E1B21385C26C926#64, 0x4D2C6DFC5AC42AED#64, 0x53380D139D95B3DF#64,
   0x650A73548BAF63DE#64, 0x766A0ABB3C77B2A8#64, 0x81C2C92E47EDAEE6#64, 0x92722C851482353B#64]
def sha512Kb : List (BitVec 64) :=
  [0xA2BFE8A14CF10364#64, 0xA81A664BBC423001#64, 0xC24B8B70D0F89791#64, 0xC76C51A30654BE30#64,
   0xD192E819D6EF5218#64, 0xD69906245565A910#64, 0xF40E35855771202A#64, 0x106AA07032BBD1B8#64,
   0x19A4C116B8D2D0C8#64, 0x1E376C085141AB53#64, 0x2748774CDF8EEB99#64, 0x34B0BCB5E19B48A8#64,
   0x391C0CB3C5C95A63#64, 0x4ED8AA4AE3418ACB#64, 0x5B9CCA4F7763E373#64, 0x682E6FF3D6B2B8A3#64,
   0x748F82EE5DEFB2FC#64, 0x78A5636F43172F60#64, 0x84C87814A1F0AB72#64, 0x8CC702081A6439EC#64,
   0x90BEFFFA23631E28#64, 0xA4506CEBDE82BDE9#64, 0xBEF9A3F7B2C67915#64, 0xC67178F2E372532B#64,
   0xCA273ECEEA26619C#64, 0xD186B8C721C0C207#64, 0xEADA7DD6CDE0EB1E#64, 0xF57D4F7FEE6ED178#64,
   0x06F067AA72176FBA#64, 0x0A637DC5A2C898A6#64, 0x113F9804BEF90DAE#64, 0x1B710B35131C471B#64,
   0x28DB77F523047D84#64, 0x32CAAB7B40C72493#64, 0x3C9EBE0A15C9BEBC#64, 0x431D67C49C100D4C#64,
   0x4CC5D4BECB3E42B6#64, 0x597F299CFC657E2A#64, 0x5FCB6FAB3AD6FAEC#64, 0x6C44198C4A475817#64]

/-- Initial hash of SHA-384: fractions of the square roots of the 9th to 16th primes. -/
def sha384H : List (BitVec 64) :=
  [0xCBBB9D5DC1059ED8#64, 0x629A292A367CD507#64, 0x9159015A3070DD17#64, 0x152FECD8F70E5939#64,
   0x67332667FFC00B31#64, 0x8EB44A8768581511#64, 0xDB0C2E0D64F98FA7#64, 0x47B5481DBEFA4FA4#64]

/-- One block of SHA-384. -/
def sha384Block (h : List (BitVec 64)) (b : Bytes) : List (BitVec 64) :=
  let s0 : BitVec 64 → BitVec 64 := fun x => rotr x 1 ^^^ rotr x 8 ^^^ (x >>> 7)
  let s1 : BitVec 64 → BitVec 64 := fun x => rotr x 19 ^^^ rotr x 61 ^^^ (x >>> 6)
  let w := (schedule s0 s1 64 (blockWords 64 8 b).reverse).reverse
  let r := shaRounds (fun x => rotr x 28 ^^^ rotr x 34 ^^^ rotr x 39) (fun x => rotr x 14 ^^^ rotr x 18 ^^^ rotr x 41)
    (sha512Ka ++ sha512Kb) w (shaOfList h)
  addWords h (shaToList r)

/-- SHA-384. -/
def sha384 (m : Bytes) : Bytes :=
  let p := shaPad 128 16 m
  ((chunks 128 (p.length / 128) p).foldl sha384Block sha384H |>.take 6).flatMap (fun x => toBE 8 x.toNat)

end Sys2Proof.Machine
end

