-- ==== Sys2Proof/Machine/Ops.lean ====
section
/-! DEFINITION. The named operations over the parameter banks, the digests, time, the fault log, outgoing messages and
events: every meaning goes through them. -/

namespace Sys2Proof.Machine

/-- The three outcomes of a command. -/
abbrev Res := Host.Outcome State Fault Refusal

/-! ## Parameter banks (00 R6 to R15, 02) -/

/-- The key of a parameter instance in a bank. -/
def pkey (id ix : Nat) : Nat := id * 65536 + ix

/-- The value of an instance in a bank. -/
def bankGet (bank : List (Nat × PVal)) (id ix : Nat) : PVal :=
  (assocGet (pkey id ix) bank).getD (resetValue id ix)

/-- A bank with an instance set; a value equal to the reset value is not listed. -/
def bankSet (bank : List (Nat × PVal)) (id ix : Nat) (v : PVal) : List (Nat × PVal) :=
  if v = resetValue id ix then assocDel (pkey id ix) bank else assocSet (pkey id ix) v bank

def PVal.int : PVal → Int
  | .num v => v
  | .tbl _ => 0

def PVal.bytes : PVal → Bytes
  | .num _ => []
  | .tbl b => b

/-- What a block uses of a parameter: what a POKE left in the block, else the active value (02 R101, 03 R154). -/
def State.block (s : State) (id ix : Nat) : PVal := (assocGet (pkey id ix) s.par.held).getD (bankGet s.par.active id ix)

/-- A parameter in effect, as an integer, a natural number, a truth value and a table. -/
def State.pI (s : State) (id : Nat) (ix : Nat := 0) : Int := (s.block id ix).int
def State.pN (s : State) (id : Nat) (ix : Nat := 0) : Nat := (s.block id ix).int.toNat
def State.pB (s : State) (id : Nat) (ix : Nat := 0) : Bool := (s.block id ix).int != 0
def State.pT (s : State) (id : Nat) (ix : Nat := 0) : Bytes := (s.block id ix).bytes

/-- A configuration: a bank read as a function of ID and index. -/
abbrev Bank := List (Nat × PVal)
def bkI (b : Bank) (id : Nat) (ix : Nat := 0) : Int := (bankGet b id ix).int
def bkN (b : Bank) (id : Nat) (ix : Nat := 0) : Nat := (bankGet b id ix).int.toNat
def bkT (b : Bank) (id : Nat) (ix : Nat := 0) : Bytes := (bankGet b id ix).bytes

/-- The value bytes as PARAM_SET and PARAM_GET carry them (03 R146). -/
def valueBytes (d : ParamDef) : PVal → Bytes
  | .num v => toSBE d.len v
  | .tbl b => b

/-- The value that VALUE bytes carry (03 R146). -/
def valueOf (d : ParamDef) (b : Bytes) : PVal :=
  if d.ty == .tbl then .tbl b
  else if d.ty.signed then .num (toSigned (8 * d.len) (natBE b))
  else .num (natBE b)

/-- The digest record of an instance (02 Table 2-6). -/
def digestRecord (d : ParamDef) (ix : Nat) (v : PVal) : Bytes :=
  let body := if d.cls == .ro then [] else valueBytes d v
  toBE 2 d.id ++ toBE 2 ix ++ [byteOf d.ty.code, byteOf d.cls.code] ++ toBE 4 body.length ++ body

/-- The leaf of an instance (02 R95). -/
def leaf (d : ParamDef) (ix : Nat) (v : PVal) : Nat := natBE (sha256 (digestRecord d ix v))

/-- The modulus of the accumulators (02 R96). -/
def accMod : Nat := 2 ^ 256

/-- The accumulator of a group under a bank, by the definition of 02 R96. -/
def groupAccOf (b : Bank) (g : Nat) : Nat :=
  (catalogueGroup g).foldl (fun a d => d.ix.all.foldl (fun a ix => (a + leaf d ix (bankGet b d.id ix)) % accMod) a) 0

/-- The accumulator of a group at the reset values. -/
def resetAcc (g : Nat) : Nat := groupAccOf [] g

/-- The place of a group among the 19 accumulators. -/
def groupIx (g : Nat) : Fin 19 := Fin.ofNat 19 (g - 1)

/-- The incremental accumulators A_g (02 R96, R99). PRESUMED: assumption 83. -/
def accOf (deltas : Vector Nat 19) (g : Nat) : Nat := (resetAcc g + deltas[groupIx g]) % accMod

/-- A group digest (02 R97). -/
def groupDigest (deltas : Vector Nat 19) (g : Nat) : Nat := natBE ((sha256 (toBE 32 (accOf deltas g))).take 8)

/-- A device digest (02 R98). -/
def deviceDigest (deltas : Vector Nat 19) : Nat :=
  natBE ((sha256 (groups.flatMap (fun g => toBE 32 (accOf deltas g)))).take 8)

/-- Subtract the old leaf and add the new one (02 R99). PRESUMED: assumption 83. -/
def accChange (deltas : Vector Nat 19) (d : ParamDef) (ix : Nat) (old new : PVal) : Vector Nat 19 :=
  if old = new ∨ d.cls = .ro then deltas
  else vmod deltas (groupIx (d.id / 256)) (fun a => (a + accMod - leaf d ix old + leaf d ix new) % accMod)

/-- Note the write of a group while a recomputation runs (02 R102). -/
def Par.noteWrite (p : Par) (id : Nat) : Par :=
  { p with recomp := p.recomp.map (fun r => { r with written := (id / 256) :: r.written.filter (· != id / 256) }) }

/-- Write an instance's staged value (02 R99). -/
def Par.setStaged (p : Par) (d : ParamDef) (ix : Nat) (v : PVal) : Par :=
  { p with staged := bankSet p.staged d.id ix v
           accS := accChange p.accS d ix (bankGet p.staged d.id ix) v }.noteWrite d.id

/-- The value whose leaf the accumulator of the active values holds (02 R99, R103). -/
def Par.leafValue (p : Par) (id ix : Nat) : PVal := (assocGet (pkey id ix) p.adopted).getD (bankGet p.active id ix)

/-- Write an instance's active value; the block then holds it. -/
def Par.setActive (p : Par) (d : ParamDef) (ix : Nat) (v : PVal) : Par :=
  { p with active := bankSet p.active d.id ix v
           held := assocDel (pkey d.id ix) p.held
           adopted := assocDel (pkey d.id ix) p.adopted
           accA := accChange p.accA d ix (p.leafValue d.id ix) v }.noteWrite d.id

/-- An accepted write of one instance (00 Table 0-6, R12): a TICK write changes the staged value, an IMM or STBY write
both. -/
def Par.write (p : Par) (d : ParamDef) (ix : Nat) (v : PVal) : Par :=
  match d.cls with
  | .tick => p.setStaged d ix v
  | .imm => (p.setStaged d ix v).setActive d ix v
  | .stby => (p.setStaged d ix v).setActive d ix v
  | .ro => p

/-- Write by ID. -/
def State.writeParam (s : State) (id ix : Nat) (v : PVal) : State :=
  match paramDef id with
  | none => s
  | some d => { s with par := s.par.write d ix v }

/-! ## Time and outputs -/

/-- A timed command moves the clock on; time does not run back. DESIGN CHOICE: assumption 3. -/
def State.atTime (s : State) (t : Nat) : State := { s with now := max s.now t }

/-- Does the tick generator run (02 R50)? From the end of COLD reset, while VDD_AON stands. -/
def State.tickRuns (s : State) : Bool :=
  s.pwr.aonUp && !(s.pwr.phase == .inReset && (s.pwr.cause == .powerOn || s.pwr.cause == .restore))

/-- Something leaves the device. -/
def State.emit (s : State) (o : Out) : State := { s with out := o :: s.out }

/-- Draw a fresh free value's index. DESIGN CHOICE: assumption 8. -/
def State.draw (s : State) : State := { s with free := s.free + 1 }

/-- Device state codes (03 Table 3-4). -/
def DevState.code : DevState → Nat
  | .boot => 0
  | .standby => 1
  | .armed => 2
  | .lit => 3
  | .hold => 4
  | .safe => 5

/-- The device's own cascade number (16, CAS_DEVNUM). -/
def State.devNum (s : State) : Nat := s.pN P.CAS_DEVNUM

/-! ## The fault log (17 R796, Table 17-6) -/

/-- Classes of Table 17-1. -/
def clsInfo : Nat := 0
def clsMasked : Nat := 1
def clsHead : Nat := 2
def clsChannel : Nat := 3
def clsDevice : Nat := 4

/-- Write a fault log entry; the oldest of 256 is overwritten. -/
def State.log (s : State) (block code cls unit : Nat) (data : Bytes) : State :=
  let q := s.flt.seq + 1
  { s with flt := { s.flt with
      seq := q
      log := (⟨q, s.tick.count, block, code, cls, unit, s.dev.code, (data ++ zeros 12).take 12⟩ :: s.flt.log).take 256 } }

/-- An entry's 32 bytes (Table 17-6). -/
def LogEntry.bytes (e : LogEntry) : Bytes :=
  toLE 4 e.seq ++ toLE 8 e.tick ++ [byteOf e.block, byteOf e.code, byteOf e.cls, byteOf e.unit, byteOf e.state] ++
    zeros 3 ++ e.data

/-! ## ACM messages the device sends (03 R114, R157) -/

/-- FLAGS (03 Table 3-2). -/
def flagResp : Nat := 128
def flagNak : Nat := 64
def flagDup : Nat := 32
def flagTrunc : Nat := 16
def flagFwd : Nat := 8

/-- Status codes (03 Table 3-11). -/
inductive Status where
  | ok
  | errAuth
  | errSeq
  | errState
  | errParam
  | errRange
  | errSurfaceBusy
  | errStaleHandle
  | errBudget
  | errAnchorLocked
  | errCommitLate
  | errUncorr
  | errNoShrink
  | errCheck
  deriving DecidableEq, Repr

def Status.code : Status → Nat
  | .ok => 0x0000
  | .errAuth => 0x0001
  | .errSeq => 0x0002
  | .errState => 0x0003
  | .errParam => 0x0004
  | .errRange => 0x0005
  | .errSurfaceBusy => 0x0013
  | .errStaleHandle => 0x0014
  | .errBudget => 0x0015
  | .errAnchorLocked => 0x0016
  | .errCommitLate => 0x0017
  | .errUncorr => 0x0018
  | .errNoShrink => 0x0019
  | .errCheck => 0x001A

/-- The 32-byte header of a device-sent message (03 Table 3-1). DESIGN CHOICE: assumption 94. -/
def acmHeader (s : State) (device flags typ mailbox session seq inReplyTo len status tick : Nat) : Bytes :=
  toBE 2 0x4146 ++ [0x03#8, byteOf (flagResp + flags)] ++ toBE 2 typ ++ [byteOf mailbox, byteOf session] ++
    toBE 4 seq ++ toBE 4 inReplyTo ++ toBE 2 len ++ toBE 2 status ++ [byteOf device, 0#8] ++
    toBE 4 s.acm.epoch ++ toBE 4 tick ++ zeros 2

/-- Is a port's link UP? -/
def State.linkUp (s : State) (p : PortIx) : Bool := (s.eth.ports[p]).phase == .up

/-- The port a message leaves from: the port of the request, or the other one while that port is DOWN (17 R789). -/
def State.viaOut (s : State) (v : Via) : Via :=
  match v with
  | .eth p => if !s.linkUp p && s.linkUp (1 - p) then .eth (1 - p) else .eth p
  | .trav p r => .trav p r

/-- Has a PLL lost lock and not relocked (18 R834)? A port whose SerDes has carries no frames (Table 18-3). -/
def State.clockLost (s : State) (k : PllIx) : Bool := (s.clk.pll[k]).st == .unlocked || (s.clk.pll[k]).st == .failed
def serdesEth (p : PortIx) : PllIx := ⟨14 + p.1, by omega⟩
def serdesTrav (p : PortIx) : PllIx := ⟨16 + p.1, by omega⟩

/-- Does a port carry a packet to a destination: in its subnet, or beyond its gateway (04 R185)? -/
def State.reachable (s : State) (v : Via) (ip : Nat) : Bool :=
  match v with
  | .trav _ _ => true
  | .eth p =>
    !s.clockLost (serdesEth p) &&
    let mask := s.pN P.ETH_IPMASK p.1
    (ip &&& mask) == (s.pN P.ETH_IPADDR p.1 &&& mask) || s.pN P.ETH_GATEWAY p.1 != 0

/-- Send a tagged message with a DEVICE byte (03 R113, R114; 04 R185; 17 R789). -/
def State.sendAcmAs (s : State) (device : Nat) (dst : ReplyTo) (srcPort flags typ mailbox : Nat) (q : SessIx)
    (seq inReplyTo status tick : Nat) (payload : Bytes) : State :=
  let m := acmHeader s device flags typ mailbox q.1 seq inReplyTo payload.length status tick ++ payload
  let via := s.viaOut dst.via
  if s.reachable via dst.ip then s.emit (.acm { dst with via := via } srcPort (m ++ tagOf ((s.acm.keys[q]).getD []) m)) else s

/-- Send a tagged message of this device. -/
def State.sendAcm (s : State) (dst : ReplyTo) (srcPort flags typ mailbox : Nat) (q : SessIx) (seq inReplyTo status tick : Nat)
    (payload : Bytes) : State :=
  s.sendAcmAs s.devNum dst srcPort flags typ mailbox q seq inReplyTo status tick payload

/-- A reply to a request (03 R157). -/
def State.reply (s : State) (dst : ReplyTo) (flags typ mailbox : Nat) (q : SessIx) (seq : Nat) (st : Status)
    (payload : Bytes) : State :=
  s.sendAcm dst (s.pN P.SYS_ACM_PORT) flags typ mailbox q 0 seq st.code s.tick.count payload

/-- Change one session. -/
def State.modSess (s : State) (q : SessIx) (f : Session → Session) : State :=
  { s with acm := { s.acm with sess := vmod s.acm.sess q f } }

/-! ## Events (03 R158 to R163) -/

/-- Event codes (03 Table 3-13). -/
def evTickOverrun : Nat := 0x01
def evCommitDone : Nat := 0x02
def evCommitAborted : Nat := 0x03
def evConfigSplit : Nat := 0x04
def evUnderrun : Nat := 0x05
def evFreeze : Nat := 0x06
def evLegalInvalid : Nat := 0x07
def evEmitterOpen : Nat := 0x08
def evEmitterShort : Nat := 0x09
def evScanFail : Nat := 0x0A
def evPllUnlock : Nat := 0x0B
def evBrownoutWarn : Nat := 0x0C
def evMemUncorr : Nat := 0x0D
def evSurfaceRetired : Nat := 0x0E
def evTouch : Nat := 0x0F
def evMasterChange : Nat := 0x10
def evThermal : Nat := 0x11
def evRopeSpared : Nat := 0x12

/-- The EVENT envelope (03 Table 3-12). -/
def eventPayload (s : State) (code lost : Nat) (data : Bytes) : Bytes :=
  toBE 2 code ++ [byteOf s.devNum, byteOf lost] ++ toBE 8 s.tick.count ++ toBE 2 data.length ++ zeros 2 ++ data

/-- Send one queued event of a session and start its timer (03 R161). -/
def State.sendEvent (s : State) (q : SessIx) (e : QEvent) : State :=
  let s := s.modSess q (fun x => { x with events := x.events.map (fun f =>
    if f.seq == e.seq then { f with due := some (s.now + s.pN P.SYS_ACM_RETX_MS * 1000000) } else f) })
  match (s.acm.sess[q]).addr with
  | none => s
  | some a => s.sendAcm a (s.pN P.SYS_ACM_PORT) 0 0x0080 0 q e.seq 0 0 e.tick e.payload

/-- Queue an event for one session, and send it at once out of BOOT (03 R158, R162, R963). -/
def State.raiseFor (s : State) (q : SessIx) (code : Nat) (data : Bytes) : State :=
  let x := s.acm.sess[q]
  if !x.open_ || !bit x.mask code then s
  else if 64 ≤ x.events.length then s.modSess q (fun x => { x with lost := min 255 (x.lost + 1) })
  else
    let e : QEvent := ⟨x.evNext, eventPayload s code x.lost data, s.tick.count, none⟩
    let s := s.modSess q (fun x => { x with events := x.events ++ [e], evNext := (x.evNext + 1) % 2 ^ 32, lost := 0 })
    if s.dev = .boot then s else s.sendEvent q e

/-- Raise an event for every OPEN session whose mask selects it (03 R158). -/
def State.raise (s : State) (code : Nat) (data : Bytes) : State :=
  (allFin 4).foldl (fun s q => s.raiseFor q code data) s

end Sys2Proof.Machine
end

