-- ==== Sys2Proof/Machine/Memory.lean ====
section
/-! DEFINITION. LPDDR5 and QDR memory: mapping, the channel queues, ECC, the error log, the mirror pool (05 R230 to R277). -/

namespace Sys2Proof.Machine

/-! ## Bytes of memory -/

/-- What a byte of memory that nothing is listed for reads as. DESIGN CHOICE: assumption 13. -/
def memDefault : Byte := 0#8

/-- One byte of memory. DESIGN CHOICE: assumption 13. -/
def memGet (l : List Host.Cell) (a : Nat) : Byte := (assocGet a l).getD memDefault

/-- Set one byte; a byte equal to what an unlisted address reads as is not listed. -/
def memSet (l : List Host.Cell) (a : Nat) (b : Byte) : List Host.Cell :=
  if b = memDefault then assocDel a l else assocSet a b l

/-- Write bytes from an address on. -/
def memWrite (l : List Host.Cell) (a : Nat) : Bytes → List Host.Cell
  | [] => l
  | b :: r => memWrite (memSet l a b) (a + 1) r

/-- Replace the bytes from an address on at once: what `memWrite` does, without a walk for each byte. -/
def memFill (l : List Host.Cell) (a : Nat) (d : Bytes) : List Host.Cell :=
  l.filter (fun c => decide (c.1 < a)) ++
    ((List.range d.length).zip d).filterMap (fun (k, b) => if b = memDefault then none else some (a + k, b)) ++
    l.filter (fun c => decide (a + d.length ≤ c.1))

/-- Read `n` bytes from an address on. -/
def memRead (l : List Host.Cell) (a n : Nat) : Bytes := (List.range n).map (fun k => memGet l (a + k))

/-- The canonical form of a memory: addresses strictly rising, nothing listed at the default. -/
def memWf (l : List Host.Cell) : Bool := assocSorted l && l.all (fun c => c.2 != memDefault)

/-- Every memory of the device has the canonical form. -/
def Mem.wf (m : Mem) : Bool :=
  memWf m.normal && memWf m.primary && memWf m.mirror && m.qdr.toList.all memWf

/-! ## Address mapping (R236, R237, R264) -/

/-- Where a burst stands. -/
structure Loc where
  mc   : Fin 4
  k    : Fin 2
  bg   : Nat
  ba   : Nat
  /-- bank-local burst number L -/
  l    : Nat
  deriving DecidableEq, Repr

/-- The copies of a byte: the normal region, and the two copies of the mirror pool. -/
inductive Copy where
  | normal
  | primary
  | mirror
  deriving DecidableEq, Repr

/-- Table 5-1 without the controller's high bit: (MC[1] of the address, MC[0], CH, BG, BA). -/
def mapFields (map d : Nat) : Nat × Nat × Nat × Nat × Nat :=
  match map with
  | 0 => (bits d 9 9, bits d 8 8, bits d 10 10, bits d 12 11, bits d 14 13)
  | 1 => (bits d 13 13, bits d 12 12, bits d 14 14, bits d 9 8, bits d 11 10)
  | 2 => (bits d 14 14, bits d 13 13, bits d 8 8, bits d 10 9, bits d 12 11)
  | _ => (bits d 9 9 ^^^ bits d 22 22, bits d 8 8 ^^^ bits d 21 21, bits d 10 10, bits d 12 11 ^^^ bits d 18 17,
      bits d 14 13 ^^^ bits d 20 19)

/-- The bit of an address that carries MC[1]. -/
def mapMcBit (map d : Nat) : Nat :=
  match map with
  | 0 => bits d 9 9
  | 1 => bits d 13 13
  | 2 => bits d 14 14
  | _ => bits d 9 9

/-- Usable bytes of all channels at a density code: 3.5 GB, 7 GB, 14 GB or 28 GB (R233). -/
def fittedBytes (density : Nat) : Nat := 7 * 536870912 * 2 ^ density

/-- The mirror pool's size in bytes. -/
def State.poolSize (s : State) : Nat := s.pN P.MEM_MIRROR_MB * 1048576

/-- MEM_CAPACITY (R233, R263). -/
def capacityWith (density mirrorMb : Nat) : Nat := fittedBytes density - 2 * (mirrorMb * 1048576)
def State.capacity (s : State) : Nat := capacityWith s.mem.density (s.pN P.MEM_MIRROR_MB)

/-- The place of a data or pool address. -/
def State.locOf (s : State) (c : Copy) (d : Nat) : Loc :=
  let map := s.pN P.MEM_MAP
  let (hi, lo, ch, bg, ba) := mapFields map d
  match c with
  | .normal => ⟨Fin.ofNat 4 (2 * hi + lo), Fin.ofNat 2 ch, bg, ba, 4 * (d / 32768) + bits d 7 6⟩
  | _ =>
    let base := 4 * ceilDiv s.capacity 32768
    ⟨Fin.ofNat 4 ((if c = .mirror then 2 else 0) + lo), Fin.ofNat 2 ch, bg, ba,
      base + 4 * (2 * (d / 32768) + mapMcBit map d) + bits d 7 6⟩

/-- Row, data slot and column address of a burst number (R237). -/
def Loc.row (l : Loc) : Nat := l.l / 28
def Loc.slot (l : Loc) : Nat := l.l % 28
def Loc.column (l : Loc) : Nat := 32 * l.slot
/-- Bank number: BG then BA. -/
def Loc.bank (l : Loc) : Fin 16 := Fin.ofNat 16 (4 * l.bg + l.ba)
/-- LPDDR5 channel n = 2m + k. -/
def Loc.chan (l : Loc) : LpIx := Fin.ofNat 8 (2 * l.mc.1 + l.k.1)

/-- The check slot and byte of a word (R234). -/
def checkPlace (slot word : Nat) : Nat × Nat := (28 + slot / 8, 8 * (slot % 8) + word)

/-- The address that a place of the order has: the inverse of Table 5-1 in the normal region (R236). -/
def dataAddr (map : Nat) (l : Loc) : Nat :=
  let hi := l.mc.1 / 2
  let lo := l.mc.1 % 2
  let top := l.l / 4 * 32768
  let low := l.l % 4 * 64
  match map with
  | 0 => top + l.ba * 8192 + l.bg * 2048 + l.k.1 * 1024 + hi * 512 + lo * 256 + low
  | 1 => top + l.k.1 * 16384 + hi * 8192 + lo * 4096 + l.ba * 1024 + l.bg * 256 + low
  | 2 => top + hi * 16384 + lo * 8192 + l.ba * 2048 + l.bg * 512 + l.k.1 * 256 + low
  | _ => top + (l.ba ^^^ bits top 20 19) * 8192 + (l.bg ^^^ bits top 18 17) * 2048 + l.k.1 * 1024 +
      (hi ^^^ bits top 22 22) * 512 + (lo ^^^ bits top 21 21) * 256 + low

/-- The cells of a copy. -/
def Mem.cells (m : Mem) : Copy → List Host.Cell
  | .normal => m.normal
  | .primary => m.primary
  | .mirror => m.mirror

def Mem.setCells (m : Mem) (c : Copy) (l : List Host.Cell) : Mem :=
  match c with
  | .normal => { m with normal := l }
  | .primary => { m with primary := l }
  | .mirror => { m with mirror := l }

/-- The poisoned words of a copy (R254). -/
def Mem.poisoned (m : Mem) : Copy → List Nat
  | .normal => m.poison
  | .primary => m.poisonP
  | .mirror => m.poisonM

def Mem.setPoisoned (m : Mem) (c : Copy) (l : List Nat) : Mem :=
  match c with
  | .normal => { m with poison := l }
  | .primary => { m with poisonP := l }
  | .mirror => { m with poisonM := l }

/-- The check byte that the memory holds for a 64-bit word of a copy: the word's, or its complement where a write has left the
word uncorrectable (R234, R254). -/
def Mem.checkByte (m : Mem) (c : Copy) (word : Nat) : Byte :=
  let b := Config.hsiao (BitVec.ofNat 64 (natLE (memRead (m.cells c) (8 * word) 8)))
  if (m.poisoned c).contains word then ~~~b else b

/-- Check slot 28 + g of a page, 64 bytes: the check bytes of data slots 8g to 8g + 7, and zeros for the slots that slot 31 has
not (R233, R234). -/
def State.checkSlot (s : State) (page : Loc) (g : Nat) : Bytes :=
  (List.range 8).flatMap (fun i =>
    let slot := 8 * g + i
    if slot < 28 then
      let d := dataAddr (s.pN P.MEM_MAP) { page with l := 28 * page.row + slot }
      (List.range 8).map (fun j => s.mem.checkByte .normal (d / 8 + j))
    else zeros 8)

/-- Insert into a rising list without repeats. -/
def insertNat (n : Nat) : List Nat → List Nat
  | [] => [n]
  | a :: r => if n < a then n :: a :: r else if n = a then a :: r else a :: insertNat n r

/-! ## The error log and its event (R253, R258, R259) -/

/-- Requester codes of Table 5-3. -/
def requesterCode : Requester → Nat
  | .ingress => 0
  | .surfaceUnit => 1
  | .compositor h => 2 + h.1
  | .codec => 6
  | .pitch => 7
  | .supervisor => 8
  | .scrubber => 9

/-- A surface's handle: generation in [31:24], index in [23:0] (R278). -/
def handleOf (ix : Nat) (x : Surf) : Nat := x.gen * 16777216 + ix

/-- The surface that holds an address, by index. -/
def State.surfaceAt (s : State) (pool : Bool) (a : Nat) : Option (Nat × Surf) :=
  s.surf.tbl.find? (fun e => e.2.pool == pool && decide (e.2.off ≤ a) && decide (a < e.2.off + e.2.size))

/-- Change one surface. -/
def State.modSurf (s : State) (ix : Nat) (f : Surf → Surf) : State :=
  match assocGet ix s.surf.tbl with
  | none => s
  | some x => { s with surf := { s.surf with tbl := assocSet ix (f x) s.surf.tbl } }

/-- Write an error log entry; the oldest of 64 is overwritten (R259). -/
def State.errEntry (s : State) (handle row slot bank kind unit who synd word : Nat) : Bytes :=
  toLE 8 s.tick.count ++ toLE 4 handle ++ toLE 4 row ++ toLE 2 slot ++
    [byteOf bank, byteOf kind, byteOf unit, byteOf who, byteOf synd, byteOf word] ++ zeros 8

def State.errLog (s : State) (e : Bytes) : State :=
  { s with mem := { s.mem with errLog := (e :: s.mem.errLog).take 64, errCount := s.mem.errCount + 1 } }

/-- Raise EV_MEM_UNCORR, no more than once per unit and ms (R258). -/
def State.memEvent (s : State) (unit : Fin 6) (e : Bytes) : State :=
  if (s.mem.evAt.get unit).all (fun t => decide (t + 1000000 ≤ s.now)) then
    let s := s.raise evMemUncorr e
    { s with mem := { s.mem with evAt := vset s.mem.evAt unit (some s.now) } }
  else s

/-- A controller has stood FAILED since a tick edge: what lies outside the mirror pool is out of reach (17 R788). -/
def State.mcFailed (s : State) : Bool := s.mem.shut

/-- Change one channel. -/
def State.modCh (s : State) (n : LpIx) (f : Chan → Chan) : State := { s with mem := { s.mem with ch := vmod s.mem.ch n f } }

/-- An uncorrectable LPDDR5 read of a word: MEM_UE, the log entry, the event, the controller's burst count and the
surface's (R253, R258, R261). DESIGN CHOICE: assumption 35. -/
def State.uncorrectable (s : State) (kind : Nat) (c : Copy) (word : Nat) (who : Requester) : State :=
  let a := 8 * word
  let l := s.locOf c a
  let sf := s.surfaceAt (c != .normal) a
  let handle := match sf with
    | none => 0
    | some (ix, x) => handleOf ix x
  let e := s.errEntry handle l.row l.slot (4 * l.bg + l.ba) kind (2 * l.mc.1 + l.k.1) (requesterCode who)
    (Config.syndrome s.free).toNat (word % 8)
  let s := (s.draw.modCh l.chan (fun x => { x with ue := inc 32 x.ue })).errLog e
  let s := match sf with
    | none => s
    | some (ix, _) => s.modSurf ix (fun x => { x with uncorr := inc 32 x.uncorr })
  let s := { s with mem := { s.mem with ueAt := vmod s.mem.ueAt l.mc (fun q => s.now :: q.filter (fun t => decide (s.now < t + 1000000))) } }
  s.memEvent (Fin.ofNat 6 l.mc.1) e

/-! ## Reads and writes of the device's blocks -/

/-- Is a 64-byte burst unreadable from a copy: its controller FAILED, or a word of it poisoned? -/
def State.burstFailed (s : State) (c : Copy) (burst : Nat) : Bool := s.mem.failed[(s.locOf c (64 * burst)).mc]
def State.burstPoisoned (s : State) (c : Copy) (burst : Nat) : Bool :=
  (s.mem.poisoned c).any (fun w => w / 8 == burst)

/-- The first word of a burst that reads as uncorrectable. -/
def State.badWord (s : State) (c : Copy) (burst : Nat) : Nat := ((s.mem.poisoned c).find? (fun w => w / 8 == burst)).getD (8 * burst)

/-- What a burst's read gives: the copy to take, or an error. -/
inductive BurstRead where
  | good (c : Copy)
  /-- recovered from the mirror (R266) -/
  | recovered
  /-- an uncorrectable read (R253) -/
  | bad (c : Copy)
  /-- a FAILED controller's error response (R262) -/
  | noAnswer
  deriving DecidableEq, Repr

def State.burstRead (s : State) (pool : Bool) (b : Nat) : BurstRead :=
  if !pool then
    if s.burstFailed .normal b then .noAnswer else if s.burstPoisoned .normal b then .bad .normal else .good .normal
  else
    let pf := s.burstFailed .primary b
    let mf := s.burstFailed .mirror b
    let pp := s.burstPoisoned .primary b
    let mp := s.burstPoisoned .mirror b
    if pf && mf then .noAnswer
    else if pf then (if mp then .bad .mirror else .good .mirror)
    else if !pp then .good .primary
    else if mf || mp then .bad .primary
    else .recovered

/-- Rewrite the primary of a burst from its mirror (R266). -/
def State.rewritePrimary (s : State) (b : Nat) : State :=
  { s with mem := { s.mem with
      primary := memWrite s.mem.primary (64 * b) (memRead s.mem.mirror (64 * b) 64)
      poisonP := s.mem.poisonP.filter (fun w => w / 8 != b) } }

/-- Read the part of one burst that a range covers; the flag is set when the burst was delivered as zeros. -/
def State.readBurst (s : State) (pool : Bool) (a n : Nat) (who : Requester) : State × Bytes × Bool :=
  match s.burstRead pool (a / 64) with
  | .good c => (s, memRead (s.mem.cells c) a n, false)
  | .recovered =>
    let d := memRead s.mem.mirror a n
    let l := s.locOf .primary a
    let h := match s.surfaceAt true a with
      | none => 0
      | some (ix, x) => handleOf ix x
    let e := s.errEntry h l.row l.slot (4 * l.bg + l.ba) 3 (2 * l.mc.1 + l.k.1) (requesterCode who) (Config.syndrome s.free).toNat
      (s.badWord .primary (a / 64) % 8)
    ((s.draw.rewritePrimary (a / 64)).errLog e, d, false)
  | .bad c => (s.uncorrectable 1 c (s.badWord c (a / 64)) who, zeros n, true)
  | .noAnswer => (s, zeros n, true)

/-- The pieces of a range that lie in one burst each: (address, length). -/
def burstPieces : Nat → Nat → Nat → List (Nat × Nat)
  | 0, _, _ => []
  | f + 1, a, n =>
    if n = 0 then [] else
      let k := min n (64 - a % 64)
      (a, k) :: burstPieces f (a + k) (n - k)

/-- Read a range of a region; the number counts flagged bursts (R253, R257, R266). -/
def State.readMem (s : State) (pool : Bool) (a n : Nat) (who : Requester) : State × Bytes × Nat :=
  (burstPieces (n / 64 + 2) a n).foldl (fun (s, b, k) (a, n) =>
    let (s, d, f) := s.readBurst pool a n who
    (s, b ++ d, k + b2n f)) (s, [], 0)

/-- The bytes of a range without side effects: what a reader that meets no error takes. -/
def State.peekMem (s : State) (pool : Bool) (a n : Nat) : Bytes :=
  (burstPieces (n / 64 + 2) a n).flatMap (fun (a, n) =>
    match s.burstRead pool (a / 64) with
    | .good c => memRead (s.mem.cells c) a n
    | .recovered => memRead s.mem.mirror a n
    | _ => zeros n)

/-- Words that a range covers in part. -/
def partialWords (a n : Nat) : List Nat :=
  let f := if a % 8 ≠ 0 then [a / 8] else []
  if n = 0 then [] else if (a + n) % 8 ≠ 0 ∧ ¬ (f = [(a + n) / 8]) then f ++ [(a + n) / 8] else f

/-- Write one copy of a piece of a burst: whole words lose their poison; a poisoned word written in part stays
poisoned (R254). -/
def State.writeCopy (s : State) (c : Copy) (a : Nat) (d : Bytes) (who : Requester) : State :=
  if s.burstFailed c (a / 64) then s
  else
    let part := partialWords a d.length
    let bad := part.filter (fun w => (s.mem.poisoned c).contains w)
    let keep := (s.mem.poisoned c).filter (fun w => decide (8 * w + 8 ≤ a) || decide (a + d.length ≤ 8 * w) || part.contains w)
    let s := { s with mem := (s.mem.setCells c (memWrite (s.mem.cells c) a d)).setPoisoned c keep }
    match bad with
    | [] => s
    | w :: _ => s.uncorrectable 2 c w who

/-- Write a piece: the normal region, or both copies of the pool (R265, R268). -/
def State.writeBurst (s : State) (pool : Bool) (a : Nat) (d : Bytes) (who : Requester) : State :=
  if pool then (s.writeCopy .primary a d who).writeCopy .mirror a d who else s.writeCopy .normal a d who

/-- Write a range of a region. -/
def State.writeMem (s : State) (pool : Bool) (a : Nat) (d : Bytes) (who : Requester) : State :=
  (burstPieces (d.length / 64 + 2) a d.length).foldl
    (fun s (b, n) => s.writeBurst pool b (slice d (b - a) n) who) s

/-! ## The channels (R239 to R251) -/

/-- The place of a request; a pool request stands on its primary's channel, or on its mirror's while the primary's controller
is FAILED (R268). -/
def State.reqLoc (s : State) (r : MemReq) : Loc :=
  s.locOf (if r.pool then (if s.burstFailed .primary (r.addr / 64) then .mirror else .primary) else .normal) r.addr

/-- Is a request a read? -/
def reqIsRead (r : MemReq) : Bool := r.data.isEmpty

/-- Does a range lie in one burst and in its region (an access outside the address space exists for no request)? -/
def State.reqFits (s : State) (n : LpIx) (r : MemReq) : Bool :=
  let len := if reqIsRead r then r.len else r.data.length
  decide (r.addr % 64 + len ≤ 64) && decide (0 < len) &&
    decide (r.addr + len ≤ (if r.pool then s.poolSize else s.capacity)) && (s.reqLoc r).chan == n

/-- A request arrives at its channel (R239, R242, R250): a queue of 64, a self-refresh exit, and the bank's in-order
mark. DESIGN CHOICE: assumption 34. -/
def State.reqArrive (s : State) (n : LpIx) (r : MemReq) : State :=
  let c := s.mem.ch[n]
  if 64 ≤ c.queue.length ∨ s.reqFits n r = false then s
  else
    let l := s.reqLoc r
    let same : QReq → Bool := fun q => (s.reqLoc q.req).bank == l.bank && (s.reqLoc q.req).row == l.row
    let q' := if reqIsRead r then c.queue.map (fun q => if same q && !(reqIsRead q.req) then { q with conf := true } else q) else c.queue
    let conf := !(reqIsRead r) && c.queue.any (fun q => same q && reqIsRead q.req)
    s.modCh n (fun c => { c with
      queue := q' ++ [⟨r, 0, conf⟩]
      mr4Due := c.mr4Due || c.selfRef
      selfRef := false
      lastReq := s.now })

/-- Has a channel's controller lost its PLL, and is it not yet failed (18 R834)? -/
def State.mcWaits (s : State) (n : LpIx) : Bool := (s.clk.pll[(Fin.ofNat 20 (10 + n.1 / 2) : PllIx)]).st == .unlocked

/-- May a channel serve the request at a place of its queue (R240 to R242; 18 R834)? DESIGN CHOICE: assumption 34.
DEDUCED: assumption 85. -/
def State.mayServe (s : State) (n : LpIx) (pos : Nat) : Bool :=
  let c := s.mem.ch[n]
  if s.mcWaits n then false
  else match c.queue[pos]? with
  | none => false
  | some q =>
    let l := s.reqLoc q.req
    let older := c.queue.take pos
    let bankOf : QReq → Bool := fun x => (s.reqLoc x.req).bank == l.bank
    let olderBank := older.filter bankOf
    let burstClash := older.any (fun x => x.req.pool == q.req.pool && x.req.addr / 64 == q.req.addr / 64)
    let inOrder := c.queue.any (fun x => bankOf x && x.conf)
    let starved := olderBank.any (fun x => decide (32 ≤ x.passed))
    let hit := c.openRow[l.bank] == some l.row
    let waitingHit := c.queue.any (fun x => bankOf x && c.openRow[l.bank] == some (s.reqLoc x.req).row)
    if burstClash then false
    else if inOrder || starved then olderBank.isEmpty
    else hit || !waitingHit || decide (32 ≤ q.passed)

/-- A read is delivered with its error handling (R252, R253, R266, R267). -/
def State.serveRead (s : State) (n : LpIx) (r : MemReq) : State :=
  let c : Copy := if r.pool then .primary else .normal
  let b := r.addr / 64
  let err (c : Copy) (e : EccErr) : EccErr := if s.burstPoisoned c b then .uncorrectable (Fin.ofNat 8 (s.badWord c b)) else e
  let word (w : Fin 8) : Nat := 8 * b + w.1
  let deliver (s : State) (d : Bytes) (f : Bool) : State := s.modCh n (fun x => { x with resp := some (d, f) })
  let corrected (s : State) (c : Copy) : State := s.modCh (s.locOf c r.addr).chan (fun x => { x with ce := inc 32 x.ce })
  if r.pool = false then
    if s.burstFailed .normal b then deliver s (zeros r.len) true
    else match err .normal r.err with
      | .none => deliver s (memRead s.mem.normal r.addr r.len) false
      | .single => deliver (corrected s .normal) (memRead s.mem.normal r.addr r.len) false
      | .uncorrectable w => deliver (s.uncorrectable 1 .normal (word w) r.who) (zeros r.len) true
  else
    -- `met` is the word of the primary that read as uncorrectable; none when the primary is not read
    let readMirror (s : State) (met : Option (Fin 8)) : State :=
      let recover := met.isSome
      if s.burstFailed .mirror b then
        match met with
        | some w => deliver (s.uncorrectable 1 c (word w) r.who) (zeros r.len) true
        | none => deliver s (zeros r.len) true
      else match err .mirror r.errMirror with
        | .uncorrectable w =>
          deliver (s.uncorrectable 1 (if recover then .primary else .mirror) (word (met.getD w)) r.who) (zeros r.len) true
        | e =>
          let d := memRead s.mem.mirror r.addr r.len
          let s := if e = .single then corrected s .mirror else s
          if recover then
            let l := s.locOf .primary r.addr
            let h := match s.surfaceAt true r.addr with
              | none => 0
              | some (ix, x) => handleOf ix x
            deliver ((s.draw.rewritePrimary b).errLog (s.errEntry h l.row l.slot (4 * l.bg + l.ba) 3 (2 * l.mc.1 + l.k.1)
              (requesterCode r.who) (Config.syndrome s.free).toNat (met.getD 0).1)) d false
          else deliver s d false
    if s.burstFailed .primary b then readMirror s none
    else match err .primary r.err with
      | .none => deliver s (memRead s.mem.primary r.addr r.len) false
      | .single => deliver (corrected s .primary) (memRead s.mem.primary r.addr r.len) false
      | .uncorrectable w => readMirror s (some w)

/-- Poison a word that a write covers in part and whose read found more than the code corrects (R254). -/
def State.poisonPart (s : State) (c : Copy) (a n word : Nat) (who : Requester) : State :=
  if (partialWords a n).contains word then
    { s with mem := s.mem.setPoisoned c (insertNat word (s.mem.poisoned c)) }.uncorrectable 2 c word who
  else s

/-- A write retires (R243, R254, R265): an error met by the read of a word written in part poisons that word. One that no
controller takes is answered with an error (R262, R268). -/
def State.serveWrite (s : State) (n : LpIx) (r : MemReq) : State :=
  let b := r.addr / 64
  let ecc (s : State) (c : Copy) (e : EccErr) : State :=
    if s.burstFailed c b then s
    else match e with
      | .none => s
      | .single => if (partialWords r.addr r.data.length).isEmpty then s
          else s.modCh (s.locOf c r.addr).chan (fun x => { x with ce := inc 32 x.ce })
      | .uncorrectable w => s.poisonPart c r.addr r.data.length (8 * b + w.1) r.who
  let failed := if r.pool then s.burstFailed .primary b && s.burstFailed .mirror b else s.burstFailed .normal b
  let s := s.writeBurst r.pool r.addr r.data r.who
  let s := if r.pool then ecc (ecc s .primary r.err) .mirror r.errMirror else ecc s .normal r.err
  s.modCh n (fun x => { x with resp := if failed then some ([], true) else none })

/-- A channel serves the request at a place of its queue. DESIGN CHOICE: assumption 34. -/
def State.reqServe (s : State) (n : LpIx) (pos : Nat) : State :=
  if s.mayServe n pos = false then s
  else match (s.mem.ch[n]).queue[pos]? with
    | none => s
    | some q =>
      let l := s.reqLoc q.req
      let idle := s.pN P.MEM_IDLE_NS l.mc.1
      let older := (s.mem.ch[n]).queue.take pos |>.map (fun x => if (s.reqLoc x.req).bank = l.bank then { x with passed := x.passed + 1 } else x)
      let s := s.modCh n (fun c => { c with
        queue := older ++ c.queue.drop (pos + 1)
        openRow := vset c.openRow l.bank (if idle = 0 then none else some l.row)
        lastAcc := vset c.lastAcc l.bank s.now })
      if reqIsRead q.req then s.serveRead n q.req else s.serveWrite n q.req

/-! ## QDR (R269 to R275) -/

/-- Data bytes of a QDR interface at a size code (05, after Table 5-4). -/
def qdrBytes (size : Nat) : Nat :=
  match size with
  | 0 => 0
  | 1 => 8388608
  | _ => 16777216

/-- An uncorrectable QDR word (R273). -/
def State.qdrUncorr (s : State) (x : Fin 2) (word kind : Nat) (who : Requester) : State :=
  let e := s.errEntry 0 word 0 0 kind (128 + 2 * x.1) (requesterCode who) (Config.syndrome s.free).toNat 0
  let s := { s.draw with mem := { s.mem with que := vmod s.mem.que x (inc 32 ·) } }
  (s.errLog e).memEvent (Fin.ofNat 6 (4 + x.1)) e

/-- What a QDR read meets: an uncorrectable word stays so until it is written. DESIGN CHOICE: assumption 37. -/
def Mem.qdrErr (m : Mem) (x : Fin 2) (word : Nat) (err : EccErr) : EccErr := if m.qpoison[x].contains word then .uncorrectable 0 else err

/-- The data of a QDR word as a reader takes it: zeros where it is uncorrectable (R273). -/
def Mem.qdrWord (m : Mem) (x : Fin 2) (word : Nat) : Bytes :=
  if m.qpoison[x].contains word then zeros 8 else memRead m.qdr[x] (8 * word) 8

/-- The two beats of a QDR word: 36 bits each, check bits above 32 data bits (R270). -/
def Mem.qdrBeats (m : Mem) (x : Fin 2) (word : Nat) : Nat × Nat :=
  let d := natLE (memRead m.qdr[x] (8 * word) 8)
  let k := (Config.hsiao (BitVec.ofNat 64 d)).toNat
  (k % 16 * 2 ^ 32 + d % 2 ^ 32, k / 16 * 2 ^ 32 + d / 2 ^ 32)

/-- A QDR word read with its error handling (R271, R273). -/
def State.qdrRead (s : State) (x : Fin 2) (word kind : Nat) (err : EccErr) (who : Requester) : State :=
  match s.mem.qdrErr x word err with
  | .none => s
  | .single => { s with mem := { s.mem with qce := vmod s.mem.qce x (inc 32 ·) } }
  | .uncorrectable _ =>
    { s with mem := { s.mem with qpoison := vmod s.mem.qpoison x (insertNat word) } }.qdrUncorr x word kind who

/-! ## Meanings -/

/-- Issue all-bank refreshes, which close every page (R244). -/
def Chan.refresh (c : Chan) (k : Nat) : Chan := { c with refreshes := c.refreshes + k, openRow := Vector.replicate 16 none }

/-- REFRESH (R244, R245; 18 R834): a channel in self-refresh refreshes itself; one whose controller's PLL has lost lock owes it. -/
def execRefresh (n : LpIx) (s : State) : Res :=
  .next (if (s.mem.ch[n]).selfRef then s
    else s.modCh n (fun c => if s.mcWaits n then { c with owed := c.owed + 1 } else c.refresh 1))

/-- A controller's PLL has relocked: the refreshes its channels have missed are issued before any request (18 R834).
DEDUCED: assumption 85. -/
def State.refreshMissed (s : State) (m : Fin 4) : State :=
  { s with mem := { s.mem with ch := Vector.ofFn (fun n : LpIx =>
    let c := s.mem.ch[n]
    if n.1 / 2 = m.1 ∧ c.owed ≠ 0 then { c.refresh c.owed with owed := 0 } else c) } }

/-- MR4_POLL (R246, R251). -/
def execMr4Poll (n : LpIx) (reading : Mr4) (s : State) : Res :=
  let c := s.mem.ch[n]
  if c.selfRef then .next s
  else
    let two := c.below
    let set (rate : Nat) (below : Bool) (s : State) : State := s.modCh n (fun c => { c with rate := rate, below := below, mr4Due := false })
    match reading with
    | .below85 => .next (set (if two then 0 else c.rate) true s)
    | .atLeast85 => .next (set 1 false s)
    | .aboveLimit =>
      let s' := set 2 false s
      .next ((s'.log (0x08 + n.1 / 2) 2 clsInfo (n.1 / 2) []).errLog (s'.errEntry 0 0 0 0 4 n.1 (requesterCode .supervisor) 0 0))

/-- SELF_REFRESH_ENTRY (R248, R249): a channel that has received no request for MEM_SR_IDLE_US enters, and its pages close. -/
def execSelfRefreshEntry (c : ChanAt) (s : State) : Res :=
  let s := s.atTime c.t
  let x := s.mem.ch[c.n]
  .next (if s.pB P.MEM_SR_EN && x.queue.isEmpty && Nat.ble (x.lastReq + 1000 * s.pN P.MEM_SR_IDLE_US) s.now then
    s.modCh c.n (fun c => { c with selfRef := true, openRow := Vector.replicate 16 none }) else s)

/-- PAGE_IDLE_CLOSE (R244): a page closes MEM_IDLE_NS after its last access. -/
def execPageIdleClose (c : ChanAt) (bank : Fin 16) (s : State) : Res :=
  let s := s.atTime c.t
  .next (if Nat.ble ((s.mem.ch[c.n]).lastAcc[bank] + s.pN P.MEM_IDLE_NS (c.n.1 / 2)) s.now then
    s.modCh c.n (fun c => { c with openRow := vset c.openRow bank none }) else s)

/-- The copy and address a patrol address names: data addresses first, then the pool's copy on the channel. -/
def State.patrolPlace (s : State) (n : LpIx) (addr : Nat) : Option (Copy × Nat) :=
  if addr < s.capacity then
    if (s.locOf .normal addr).chan = n then some (.normal, addr) else none
  else
    let a := addr - s.capacity
    if s.poolSize ≤ a then none
    else if (s.locOf .primary a).chan = n then some (.primary, a)
    else if (s.locOf .mirror a).chan = n then some (.mirror, a)
    else none

/-- PATROL_SCRUB (R252, R255): single-bit errors are corrected, uncorrectable ones logged as kind 5. -/
def execPatrolScrub (n : LpIx) (addr : Nat) (err : EccErr) (s : State) : Res :=
  match s.patrolPlace n addr with
  | none => .next s
  | some (c, a) =>
    if s.burstFailed c (a / 64) then .next s
    else match (if (s.mem.poisoned c).contains (a / 8) then EccErr.uncorrectable 0 else err) with
      | .none => .next s
      | .single => .next (s.modCh n (fun x => { x with ce := inc 32 x.ce }))
      | .uncorrectable _ => .next (s.uncorrectable 5 c (a / 8) .scrubber)

/-- QDR_SCRUB (R271 to R273). -/
def execQdrScrub (x : Fin 2) (word : Nat) (err : EccErr) (s : State) : Res :=
  if 8 * word + 8 ≤ qdrBytes (s.pN P.MEM_QDR_SIZE x.1) then .next (s.qdrRead x word 5 err .scrubber) else .next s

end Sys2Proof.Machine
end

