-- ==== Sys2Proof/Machine/Surfaces.lean ====
section
/-! DEFINITION. Surfaces: handles, layout, placement, states, writing, freeing and status (05 R278 to R310, R967 to R971; 04
R226 to R228). -/

namespace Sys2Proof.Machine

/-- What a message's execution answers: the state after, the status and the reply payload (03 R138, R962). A refusal
leaves the state as it was. -/
abbrev Answer := State × Status × Bytes

/-- A refusal with an empty payload. -/
def refuse (s : State) (st : Status) : Answer := (s, st, [])

/-! ## Formats and layout (R210, R282, R283; 06 Table 6-2) -/

/-- Fields of the planar format word (04 Table 4-5). -/
def fmtSampling (f : Nat) : Nat := bits f 23 20
def fmtDepth (f : Nat) : Nat := bits f 19 16
def fmtPacking (f : Nat) : Nat := bits f 15 12

/-- The format word of the surfaces that hold a session format's frames: PACKING 0 (05 Table 5-7). -/
def fmtPlanar (f : Nat) : Nat := f - fmtPacking f * 4096

/-- Is a format word free of reserved bits and codes (R198)? -/
def fmtOk (f : Nat) : Bool :=
  bits f 31 24 == 0 && bits f 11 0 == 0 && decide (fmtSampling f ≤ 3) && [8, 10, 12].contains (fmtDepth f) &&
    decide (fmtPacking f ≤ 1)

/-- Are a format's width and height even where its sampling needs it? -/
def fmtEven (f w h : Nat) : Bool :=
  (decide (2 ≤ fmtSampling f) || w % 2 == 0) && (fmtSampling f != 0 || h % 2 == 0)

/-- Bytes per pixel of a pixel format code (06 Table 6-2); 0 for a reserved code. -/
def formatBytes (f : Nat) : Nat :=
  match f with
  | 0x10 => 4
  | 0x11 => 4
  | 0x12 => 4
  | 0x13 => 2
  | 0x14 => 1
  | 0x15 => 1
  | 0x20 => 8
  | _ => 0

/-- Formats of ATC surfaces (06 R315). -/
def atcFormat (f : Nat) : Bool := [0x10, 0x11, 0x14, 0x15].contains f

/-- A plane of a surface. -/
structure Plane where
  off    : Nat
  pitch  : Nat
  width  : Nat
  height : Nat
  /-- bytes per sample or pixel -/
  bytes  : Nat
  deriving DecidableEq, Repr

def roundUp (n k : Nat) : Nat := ceilDiv n k * k

/-- Lay planes out one after another (R283). -/
def stackPlanes : Nat → List (Nat × Nat × Nat) → List Plane
  | _, [] => []
  | o, (w, h, b) :: r => let pitch := roundUp (w * b) 64; ⟨o, pitch, w, h, b⟩ :: stackPlanes (o + pitch * h) r

/-- The planes of a surface; ATC and BYTES have one plane without rows (R282). -/
def planesOf (k : SurfKind) (w h f : Nat) : List Plane :=
  match k with
  | .planar =>
    let b := if fmtDepth f = 8 then 1 else 2
    let cw := if fmtSampling f ≤ 1 then w / 2 else w
    let ch := if fmtSampling f = 0 then h / 2 else h
    stackPlanes 0 [(w, h, b), (cw, ch, b), (cw, ch, b)]
  | .packed => stackPlanes 0 [(w, h, formatBytes f)]
  | .atc => [⟨0, 0, 0, 0, 0⟩]
  | .bytes => [⟨0, 0, 0, 0, 0⟩]

/-- The bytes a surface takes. -/
def surfBytes (k : SurfKind) (w h f size : Nat) : Nat :=
  match k with
  | .atc => size
  | .bytes => size
  | _ => (planesOf k w h f).foldl (fun a p => a + p.pitch * p.height) 0

def Surf.planes (x : Surf) : List Plane := planesOf x.kind x.width x.height x.format

def surfKindOf (n : Nat) : Option SurfKind :=
  match n with
  | 0 => some .planar
  | 1 => some .packed
  | 2 => some .atc
  | 3 => some .bytes
  | _ => none

/-! ## Handles (R278 to R280) -/

/-- The surface a handle names, with its index; none for a stale handle (R280). -/
def State.surface (s : State) (handle : Nat) : Option (Nat × Surf) :=
  let ix := handle % 16777216
  match assocGet ix s.surf.tbl with
  | none => none
  | some x => if handle = handleOf ix x then some (ix, x) else none

/-- The handles of a session's ring in a bank (04 ETH_RX_SURF). -/
def ringOf (b : Bank) (v : Nat) : List Nat := (List.range 4).map (fun k => le32 (bkT b P.ETH_RX_SURF v) (4 * k))
def State.ring (s : State) (v : Nat) : List Nat := (List.range 4).map (fun k => le32 (s.pT P.ETH_RX_SURF v) (4 * k))

/-- The surface pair of a seam entry, and whether the entry is enabled (16 Table 16-8). -/
def seamPair (b : Bytes) : List Nat := [le32 b 4, le32 b 8]
def seamOn (b : Bytes) : Bool := bit (u8 b 0) 0

/-- Is a handle in the ring of an enabled session (04 R202), or in the pair of an enabled seam entry (16 R776)? -/
def State.inRing (s : State) (handle : Nat) : Bool :=
  (List.range 8).any (fun v => s.pB P.ETH_RX_ENABLE v && (s.ring v).contains handle) ||
    (List.range 8).any (fun k => seamOn (s.pT P.CAS_SEAM_RX k) && (seamPair (s.pT P.CAS_SEAM_RX k)).contains handle)

/-- State codes of SURFACE_STATUS; 0 is FREE. -/
def SurfState.code : SurfState → Nat
  | .ready => 1
  | .filling => 2
  | .inUse => 3
  | .freePending => 4

/-! ## Placement (R971) -/

/-- The spans taken in a region: offset and length. -/
def State.allocs (s : State) (pool : Bool) : List (Nat × Nat) :=
  (s.surf.tbl.filter (fun e => e.2.pool == pool)).map (fun e => (e.2.off, e.2.size)) ++
    (if pool then s.surf.extra.map (·.2) ++ s.stores.map (·.2) else [])

/-- Does a span meet none of the taken ones? -/
def spanFree (taken : List (Nat × Nat)) (o n : Nat) : Bool :=
  taken.all (fun (a, k) => decide (a + k ≤ o) || decide (o + n ≤ a))

/-- Lowest-offset first fit on 4 KB boundaries. -/
def firstFit (taken : List (Nat × Nat)) (limit n : Nat) : Option Nat :=
  let cands := 0 :: taken.map (fun (a, k) => roundUp (a + k) 4096)
  let good := cands.filter (fun o => decide (o + n ≤ limit) && spanFree taken o n)
  match good with
  | [] => none
  | o :: r => some (r.foldl min o)

/-- Place an allocation in a region. -/
def State.place (s : State) (pool : Bool) (n : Nat) : Option Nat :=
  firstFit (s.allocs pool) (if pool then s.poolSize else s.capacity) n

/-- Unallocated bytes of a region (MEM_FREE, MEM_MIRROR_FREE): whole 4 KB blocks are taken. -/
def State.unallocated (s : State) (pool : Bool) : Nat :=
  (if pool then s.poolSize else s.capacity) - (s.allocs pool).foldl (fun a (_, k) => a + roundUp k 4096) 0

/-! ## Allocation, freeing, status -/

/-- SURFACE_ALLOC (R279, R281 to R284, Tables 5-7 and 5-8). DESIGN CHOICE: assumption 17. DEDUCED: assumption 18. -/
def surfaceAlloc (s : State) (m : Msg) : Answer :=
  let b := m.body
  let flags := u8 b 1
  let w := be16 b 2
  let h := be16 b 4
  let f := be32 b 8
  let size := be32 b 12
  if s.dev = .hold then refuse s .errState
  else if b.length ≠ 16 then refuse s .errParam
  else match surfKindOf (u8 b 0) with
    | none => refuse s .errRange
    | some k =>
      let dims := decide (16 ≤ w) && decide (w ≤ 4096) && decide (16 ≤ h) && decide (h ≤ 4096)
      let ok : Bool := bits flags 7 3 == 0 && be16 b 6 == 0 && match k with
        | .planar => dims && fmtOk f && fmtPacking f == 0 && fmtEven f w h && size == 0
        | .packed => dims && formatBytes f != 0 && size == 0
        | .atc => dims && atcFormat f
        | .bytes => w == 0 && h == 0 && f == 0
      let n := surfBytes k w h f size
      let ix := ((List.range 2047).map (· + 1)).find? (fun i => (assocGet i s.surf.tbl).isNone)
      let pool := bit flags 0
      if !ok || decide (268435456 < n) then refuse s .errRange
      else match ix, s.place pool n with
        | some ix, some off =>
          let gen := (((assocGet ix s.surf.gens).getD 0) % 255) + 1
          let zero := bit flags 1
          let x : Surf := ⟨gen, if zero then .filling else .ready, false, k, pool, bit flags 2, zero, w, h, f, n, off,
            none, 0, 0, false⟩
          let s := { s with surf := { s.surf with tbl := assocSet ix x s.surf.tbl, gens := assocSet ix gen s.surf.gens } }
          let plane (j : Nat) : Bytes := match x.planes[j]? with
            | none => zeros 8
            | some p => toBE 4 p.off ++ toBE 4 p.pitch
          (s, .ok, toBE 4 (handleOf ix x) ++ toBE 4 n ++ plane 0 ++ plane 1 ++ plane 2)
        | _, _ => refuse s .errRange

/-- Release a surface: its index and memory are free (R292, R308). -/
def State.release (s : State) (ix : Nat) : State :=
  { s with surf := { s.surf with tbl := assocDel ix s.surf.tbl } }

/-- SURFACE_FREE (R307 to R309). -/
def surfaceFree (s : State) (m : Msg) : Answer :=
  let handle := be32 m.body 0
  let answer (s : State) (code : Nat) : Answer := (s, .ok, [byteOf code] ++ zeros 3)
  if m.body.length ≠ 4 then refuse s .errParam
  else match s.surface handle with
    | none => refuse s .errStaleHandle
    | some (ix, x) =>
      if s.inRing handle then refuse s .errSurfaceBusy
      else match x.st with
        | .ready => answer (s.release ix) 0
        | .filling => answer (s.release ix) 0
        | .inUse => answer (s.modSurf ix (fun x => { x with st := .freePending })) 4
        | .freePending => answer s 4

/-- SURFACE_STATUS (05, after R310). -/
def surfaceStatus (s : State) (m : Msg) : Answer :=
  let handle := be32 m.body 0
  if m.body.length ≠ 4 then refuse s .errParam
  else match s.surface handle with
    | none => refuse s .errStaleHandle
    | some (_, x) =>
      let flags := b2n x.valid + 2 * b2n x.pool + 4 * b2n x.writer.isSome + 8 * b2n (s.inRing handle)
      let wid := match x.writer with
        | none => 0
        | some w => w.writeId
      (s, .ok, [byteOf x.st.code, byteOf flags] ++ zeros 2 ++ toBE 4 x.size ++ toBE 4 wid ++ toBE 4 x.uncorr ++
        toBE 8 x.lastTick)

/-! ## Writing (R299 to R306, R967) -/

/-- The reply to SURFACE_WRITE: RESULT and CRC. -/
def writeReply (result crc : Nat) : Bytes := [byteOf result] ++ zeros 3 ++ toBE 4 crc

/-- Open transfers of a session. -/
def State.transfersOf (s : State) (q : SessIx) : Nat :=
  (s.surf.tbl.filter (fun e => match e.2.writer with
    | none => false
    | some w => w.session == q)).length

/-- SURFACE_WRITE OPEN (R299 to R302); it also answers an OP that is none of the three. -/
def surfaceOpen (s : State) (m : Msg) : Answer :=
  let b := m.body
  let handle := be32 b 0
  let off := be32 b 8
  let len := be32 b 12
  if s.dev = .hold then refuse s .errState
  else if b.length ≠ 16 then refuse s .errParam
  else match s.surface handle with
    | none => refuse s .errStaleHandle
    | some (ix, x) =>
      if u8 b 4 ≠ 0 then refuse s .errRange
      else if x.st ≠ .ready ∨ s.inRing handle then
        ({ s with surf := { s.surf with refused := (m.session.1, m.seq, handle) :: s.surf.refused } }, .errSurfaceBusy, [])
      else if off % 4 ≠ 0 ∨ len % 4 ≠ 0 ∨ len < 4 ∨ 16777216 < len ∨ x.size < off + len ∨ 16 ≤ s.transfersOf m.session then
        refuse s .errRange
      else
        (s.modSurf ix (fun x => { x with st := .filling, valid := false, writer := some ⟨m.session, m.seq, off, len⟩ }),
          .ok, writeReply 0 0)

/-- The transfer a CLOSE or ABORT names (R967). -/
def transferNamed (x : Surf) (m : Msg) : Option Transfer :=
  match x.writer with
  | none => none
  | some w => if w.session = m.session ∧ w.writeId = be32 m.body 8 then some w else none

/-- SURFACE_WRITE CLOSE (R256, R303, R304, R967; 03 R962). DESIGN CHOICE: assumption 100. -/
def surfaceClose (s : State) (m : Msg) : Answer :=
  let b := m.body
  if s.dev = .hold then refuse s .errState
  else if b.length ≠ 16 then refuse s .errParam
  else match s.surface (be32 b 0) with
    | none => refuse s .errStaleHandle
    | some (ix, x) =>
      match transferNamed x m with
      | none => refuse s .errRange
      | some w =>
        let (s', d, flagged) := s.readMem x.pool (x.off + w.off) w.len .supervisor
        if flagged ≠ 0 then (s', .errUncorr, writeReply 0 0)
        else
          let c := crc32 d
          if c = be32 b 12 then
            (s'.modSurf ix (fun x => { x with st := .ready, valid := true, writer := none }), .ok, writeReply 0 c)
          else (s', .ok, writeReply 1 c)

/-- SURFACE_WRITE ABORT (Table 5-9, R967). -/
def surfaceAbort (s : State) (m : Msg) : Answer :=
  let b := m.body
  if s.dev = .hold then refuse s .errState
  else if b.length ≠ 16 then refuse s .errParam
  else match s.surface (be32 b 0) with
    | none => refuse s .errStaleHandle
    | some (ix, x) =>
      match transferNamed x m with
      | none => refuse s .errRange
      | some _ =>
        if be32 b 12 ≠ 0 then refuse s .errRange
        else (s.modSurf ix (fun x => { x with st := .ready, valid := false, writer := none }), .ok, writeReply 0 0)

/-! ## Surface datagrams (04 R226 to R228; 05 R301, R305) -/

def State.surfDrop (s : State) (q : SessIx) : State :=
  { s with surf := { s.surf with drops := vmod s.surf.drops q (inc 32 ·) } }

def State.surfBusyDrop (s : State) (q : SessIx) : State :=
  { s with surf := { s.surf with busy := vmod s.surf.busy q (inc 32 ·) } }

/-- Handle a surface datagram, from a port or forwarded over a Traverse port. -/
def State.surfaceData (s : State) (d : Bytes) : State :=
  let len := be16 d 16
  if d.length < 40 ∨ be16 d 0 ≠ 0x4153 ∨ u8 d 2 ≠ 3 ∨ 4 ≤ u8 d 3 then s
  else
    let q : SessIx := Fin.ofNat 4 (u8 d 3)
    let handle := be32 d 4
    let wid := be32 d 8
    let off := be32 d 12
    let shape := d.length == 40 + len && decide (4 ≤ len) && decide (len ≤ 8192) && len % 4 == 0 && off % 4 == 0
    let auth := (s.acm.keys.get q).any (fun k => tagOf k (d.take (24 + len)) == d.drop (24 + len))
    if s.dev = .boot ∨ shape = false ∨ auth = false ∨ be32 d 20 ≠ s.acm.epoch ∨ (s.acm.sess[q]).open_ = false then s.surfDrop q
    else if s.surf.refused.contains (q.1, wid, handle) then s.surfBusyDrop q
    else match s.surface handle with
      | none => s.surfDrop q
      | some (_, x) =>
        match x.writer with
        | none => s.surfDrop q
        | some w =>
          -- a surface in the ring of an enabled session is written only by that session (R202)
          if w.session = q ∧ w.writeId = wid ∧ off + len ≤ w.len ∧ s.inRing handle = false then
            s.writeMem x.pool (x.off + w.off + off) (slice d 24 len) .surfaceUnit
          else s.surfDrop q

/-- SURFACE_CLEAR_DONE (R968): the bytes are 0 and the surface becomes READY with content valid. -/
def execSurfaceClearDone (index : Nat) (s : State) : Res :=
  match assocGet index s.surf.tbl with
  | none => .next s
  | some x =>
    if x.clearing && s.dev != .boot then
      .next ((s.writeMem x.pool x.off (zeros x.size) .supervisor).modSurf index
        (fun x => { x with st := .ready, valid := true, clearing := false }))
    else .next s

/-! ## Retiring (R289, R291, R292, R296) -/

/-- EV_SURFACE_RETIRED (R296). -/
def State.retiredEvent (s : State) (handle state lastTick : Nat) : State :=
  s.raise evSurfaceRetired (toBE 4 handle ++ [byteOf state] ++ zeros 3 ++ toBE 8 lastTick)

/-- Retire one surface at an edge. -/
def State.retire (s : State) (ix : Nat) : State :=
  match assocGet ix s.surf.tbl with
  | none => s
  | some x =>
    let h := handleOf ix x
    match x.st with
    | .inUse =>
      let s := s.modSurf ix (fun x => { x with st := .ready, valid := x.valid || x.wbFull, wbFull := false })
      if x.notify then s.retiredEvent h 1 x.lastTick else s
    | .freePending => (s.release ix).retiredEvent h 0 x.lastTick
    | _ => s

end Sys2Proof.Machine
end

