-- ==== Sys2Proof/Machine/Traverse.lean ====
section
/-! DEFINITION. Traverse frames and the topology of a cascade (16 R738 to R744, R750, R753, R767, R772). The spec gives the
header and the TICK body byte by byte; the bodies of the other kinds are laid out here. -/

namespace Sys2Proof.Machine

def State.modCas (s : State) (f : Cas → Cas) : State := { s with cas := f s.cas }
def State.modTrav (s : State) (p : PortIx) (f : CasPort → CasPort) : State := s.modCas (fun c => { c with port := vmod c.port p f })

/-! ## Frames (Tables 16-1, 16-2) -/

def kindLink : Nat := 1
def kindTick : Nat := 2
def kindCommit : Nat := 3
def kindVote : Nat := 4
def kindHalt : Nat := 5
def kindAcm : Nat := 6
def kindSurface : Nat := 7
def kindSeam : Nat := 8
def kindVideo : Nat := 9

structure Trav where
  kind   : Nat
  src    : Nat
  dst    : Nat
  hops   : Nat
  cepoch : Nat
  tick   : Nat
  body   : Bytes
  deriving DecidableEq, Repr

/-- Header and body. -/
def Trav.bytes (f : Trav) : Bytes :=
  [byteOf f.kind, byteOf f.src, byteOf f.dst, byteOf f.hops] ++ toBE 4 f.cepoch ++ toBE 8 f.tick ++ f.body

/-- Read a frame: its header, and its body less the tag of every kind but VIDEO. -/
def travOf (b : Bytes) : Trav :=
  let n := if u8 b 0 = kindVideo then b.length else b.length - 16
  ⟨u8 b 0, u8 b 1, u8 b 2, u8 b 3, be32 b 4, be64 b 8, slice b 16 (n - 16)⟩

/-- Is a port UP? -/
def State.travUp (s : State) (p : PortIx) : Bool := (s.cas.port[p]).link == .up

/-- The tag of a frame is right (R739): a device without a cascade key finds none so. -/
def State.travTagOk (s : State) (b : Bytes) : Bool :=
  if u8 b 0 = kindVideo then decide (16 ≤ b.length)
  else match s.acm.cascKey with
    | none => false
    | some k => decide (32 ≤ b.length) && b.drop (b.length - 16) == tagOf k (b.take (b.length - 16))

/-! ## Topology (R743) -/

/-- Hops to a device: the fewer of the two ports. -/
def State.hopsTo (s : State) (d : Nat) : Option Nat :=
  let via (p : PortIx) : Option Nat := ((s.cas.port[p]).hops[Fin.ofNat 8 d]).map (·.1)
  match via 0, via 1 with
  | some a, some b => some (min a b)
  | some a, none => some a
  | none, x => x

def State.present (s : State) (d : Nat) : Bool := decide (d < 8) && d != s.devNum && (s.hopsTo d).isSome

/-- Another device is in the topology: the cascade is of more than one device. -/
def State.cascaded (s : State) : Bool := (List.range 8).any s.present

/-- A ring: a device is heard on both ports. -/
def State.isRing (s : State) : Bool := (List.range 8).any (fun d =>
  d != s.devNum && (((s.cas.port[0]).hops[Fin.ofNat 8 d]).isSome && ((s.cas.port[1]).hops[Fin.ofNat 8 d]).isSome))

def State.eligible (s : State) (d : Nat) : Bool :=
  if d = s.devNum then s.pwr.cascRole else s.present d && (s.cas.devs[Fin.ofNat 8 d]).eligible

def State.priorityOf (s : State) (d : Nat) : Nat :=
  if d = s.devNum then s.pN P.CAS_PRIORITY else (s.cas.devs[Fin.ofNat 8 d]).priority

/-- Does device a have the higher rank? -/
def State.outranks (s : State) (a b : Nat) : Bool :=
  Nat.blt (s.priorityOf b) (s.priorityOf a) || (s.priorityOf a == s.priorityOf b && Nat.blt a b)

/-- The rank r of this device among the eligible devices, the silent master excluded (R750). -/
def State.rank (s : State) : Nat :=
  1 + ((List.range 8).filter (fun d => s.eligible d && d != s.devNum && s.cas.master != some d && s.outranks d s.devNum)).length

/-- Does the device reach an eligible device, itself included (R752)? -/
def State.anyEligible (s : State) : Bool := (List.range 8).any s.eligible

/-- CAS_TOPOLOGY: all 0 while no device is reached. DEDUCED: assumption 72. -/
def State.topology (s : State) : Bytes :=
  if s.cascaded then
    [byteOf (maskBelow 8 (fun d => d == s.devNum || s.present d)), byteOf (maskBelow 8 s.eligible), byteOf (b2n s.isRing), 0#8] ++
      (List.range 8).map (fun d => byteOf (if d = s.devNum then 0 else (s.hopsTo d).getD 255)) ++ zeros 4
  else zeros 16

/-- EV_MASTER_CHANGE (R753, Table 16-4). -/
def State.setMaster (s : State) (new cause : Nat) : State :=
  if s.cas.master = some new then s
  else
    let old := s.cas.master.getD 255
    let s := s.modCas (fun c => { c with master := some new })
    s.raise evMasterChange ([byteOf new, byteOf old, byteOf cause, 0#8] ++ toBE 4 s.cas.epoch ++ toBE 4 s.tick.count)

/-- What follows from a change of the topology (R752, R767): routes to a device that has left go; a device that reaches
no eligible one runs alone, and one that now does waits for a master. DEDUCED: assumption 78. -/
def State.topologyChanged (s : State) : State :=
  let s := s.modCas (fun c => { c with routes := c.routes.filter (fun r => s.present r.device) })
  let anyUp := s.travUp 0 || s.travUp 1
  if !s.anyEligible then s.modCas (fun c => { c with role := .alone, master := none, edge := none, adopt := none, silent := 0 })
  else if s.cas.role = .alone ∧ anyUp = true then s.modCas (fun c => { c with role := .waiting, silent := 0 })
  else s

/-- What a port that is not UP does (R738): it trains, without auto-negotiation, when it is in use and not held DOWN. DEDUCED:
assumption 109. -/
def State.travIdle (s : State) (p : PortIx) : CasLink :=
  if s.dev != .boot && bit (s.pN P.CAS_PORTS) p.1 && !(s.cas.port[p]).held then .training else .down

/-- A port is no longer held DOWN, and trains when it is in use. DEDUCED: assumption 109. -/
def State.travRelease (s : State) (p : PortIx) : State :=
  let s := s.modTrav p (fun x => { x with held := false })
  if s.travUp p then s else s.modTrav p (fun x => { x with link := s.travIdle p })

/-- A Traverse link that is UP goes DOWN (17 Tables 17-2, 17-7), and is trained anew. -/
def State.travDown (s : State) (p : PortIx) : State :=
  if s.travUp p = false then s
  else
    let s := s.log (0x06 + p.1) 1 clsInfo p.1 []
    (s.modTrav p (fun x => { x with link := s.travIdle p, stamp := none, hops := Vector.replicate 8 none })).topologyChanged

/-- The device stops using a port without a fault: CAS_PORTS or a block reset. DEDUCED: assumption 25. -/
def State.travRestart (s : State) (p : PortIx) : State :=
  let s := s.modTrav p (fun x => { x with link := .down, stamp := none, hops := Vector.replicate 8 none })
  (s.travRelease p).topologyChanged

/-! ## Sending (R739, R741) -/

/-- Send header and body on a port that is UP. -/
def State.travOut (s : State) (p : PortIx) (f : Trav) : State := 
  if s.travUp p && !s.clockLost (serdesTrav p) then s.emit (.trav p f.bytes) else s

/-- A frame of this device. -/
def State.travNew (s : State) (kind dst : Nat) (body : Bytes) : Trav := ⟨kind, s.devNum, dst, 7, s.cas.epoch, s.tick.count, body⟩

/-- The port of fewer hops to a device. -/
def State.portTo (s : State) (d : Nat) : PortIx :=
  match ((s.cas.port[0]).hops[Fin.ofNat 8 d]), ((s.cas.port[1]).hops[Fin.ofNat 8 d]) with
  | some a, some b => if b.1 < a.1 then 1 else 0
  | none, some _ => 1
  | _, none => 0

/-- Send a frame: for all devices on both ports, for one device on the port of fewer hops. -/
def State.travSend (s : State) (kind dst : Nat) (body : Bytes) : State :=
  let f := s.travNew kind dst body
  if dst = 255 then (s.travOut 0 f).travOut 1 f else s.travOut (s.portTo dst) f

/-! ## Receiving (R739, R741) -/

/-- What makes two frames copies of each other: all but HOPS and, of a TICK frame, CORRECTION. DEDUCED: assumption 73. -/
def Trav.content (f : Trav) : Bytes :=
  { f with hops := 0, body := if f.kind = kindTick then f.body.drop 8 else f.body }.bytes

/-- A relay passes a frame on; the residence time it adds to CORRECTION is free. DEDUCED: assumption 73. -/
def State.travRelay (s : State) (p : PortIx) (f : Trav) : State :=
  if f.dst = s.devNum then s
  else
    let g := { f with hops := f.hops - 1 }
    if f.kind = kindTick then
      let body := toBE 8 (be64 f.body 0 + Config.freeNat s.free) ++ f.body.drop 8
      s.draw.travOut (1 - p) { g with body := body }
    else s.travOut (1 - p) g

/-- Receive a frame of a kind: a wrong tag is counted; a frame of HOPS 0 or of this device is dropped; a later copy is
ignored; the rest is relayed, and acted on when it is for this device. DEDUCED: assumption 73. -/
def State.travTake (s : State) (p : PortIx) (kind : Nat) (b : Bytes) : State × Option Trav :=
  let f := travOf b
  if !s.travUp p || s.clockLost (serdesTrav p) || f.kind != kind then (s, none)
  else if !s.travTagOk b then (s.modTrav p (fun x => { x with errs := inc 32 x.errs }), none)
  else if f.hops = 0 ∨ f.src = s.devNum then (s, none)
  else if s.cas.seen.contains (1 - p, f.content) then
    (s.modCas (fun c => { c with seen := c.seen.erase (1 - p, f.content) }), none)
  else
    let s := if s.isRing then s.modCas (fun c => { c with seen := ((p, f.content) :: c.seen).take 1024 }) else s
    (s.travRelay p f, if f.dst = s.devNum ∨ f.dst = 255 then some f else none)

/-! ## Forwarding of video (R771, R772) -/

/-- A VIDEO or SEAM frame counts against 90 Gbit/s, measured over the last millisecond; a VIDEO frame beyond it is
dropped. DESIGN CHOICE: assumption 77. -/
def State.travTraffic (s : State) (p : PortIx) (f : Trav) : State :=
  let recent := (s.cas.port[p]).sent.filter (fun e => decide (s.now < e.1 + 1000000))
  let n := 8 * f.bytes.length
  if f.kind = kindVideo ∧ 90000000 < recent.foldl (fun a e => a + e.2) n then
    s.modTrav p (fun x => { x with fwdDrops := inc 32 x.fwdDrops, sent := recent })
  else if s.travUp p then (s.modTrav p (fun x => { x with sent := (s.now, n) :: recent })).travOut p f
  else s

/-- Paths that other devices advertise, of an Ethernet port: device, group, source, UDP port. -/
def State.adverts (s : State) (p : PortIx) : List (Nat × Nat × Nat × Nat) :=
  if s.cas.role ≠ .master then []
  else (List.range 8).flatMap (fun d =>
    if s.present d then
      ((s.cas.devs[Fin.ofNat 8 d]).paths.filter (fun a => a.1 == p.1)).map (fun a => (d, a.2))
    else [])

/-- The master forwards an accepted frame to each device with a path it matches. -/
def State.forwardVideo (s : State) (p : PortIx) (srcIp dstIp udp : Nat) (frame : Bytes) : State :=
  (((s.adverts p).filter (fun a => a.2.1 == dstIp && a.2.2.2 == udp && (a.2.2.1 == 0 || a.2.2.1 == srcIp))).map (·.1)).eraseDups.foldl
    (fun s d => s.travTraffic (s.portTo d) (s.travNew kindVideo d (byteOf p.1 :: frame))) s

end Sys2Proof.Machine
end

