-- ==== Sys2Proof/Machine/Ethernet.lean ====
section
/-! DEFINITION. The Ethernet ports: link bring-up, the ingress classifier, ARP, ICMP, IGMP (04 R170 to R196). -/

namespace Sys2Proof.Machine

/-! ## Link bring-up (R170 to R178, Table 4-2) -/

def State.modPort (s : State) (p : PortIx) (f : Port → Port) : State := { s with eth := { s.eth with ports := vmod s.eth.ports p f } }

/-- Media codes of ETH_MEDIA. -/
def mediaCopper (m : Nat) : Bool := m ≤ 1
def mediaDisabled : Nat := 3

/-- Step 1 of Table 4-2; without auto-negotiation a CR4 or KR4 port starts link training at once (R173). -/
def firstPhase (media an : Nat) : LinkPhase := if mediaCopper media && an == 0 then .training else .down

def State.linkRestart (s : State) (p : PortIx) : State :=
  s.modPort p (fun x => { x with phase := firstPhase (s.pN P.ETH_MEDIA p.1) (s.pN P.ETH_AN p.1), repeats := [] })

/-- Is the QSFP28 module of a port present (R174)? Without a presence pin it is taken as present. -/
def State.modulePresent (s : State) (p : PortIx) : Bool :=
  let g := s.pN P.ETH_MODPRS p.1
  if h : g < 16 then !s.eth.gpio[g] else true

/-- ETH_LINK. -/
def linkCode : LinkPhase → Nat
  | .down => 0
  | .training => 1
  | .trained => 1
  | .up => 2

/-- Is a session's reception on an Ethernet path on (R197, R199; 16 CAS_RX_VIA)? -/
def State.pathOn (s : State) (v p : Nat) : Bool :=
  s.pB P.ETH_RX_ENABLE v && bit (s.pN P.ETH_RX_PATHS v) p && s.pN P.CAS_RX_VIA v == 0

/-- Is an address an IPv4 multicast group? -/
def isMulticast (ip : Nat) : Bool := decide (0xE0000000 ≤ ip) && decide (ip < 0xF0000000)

/-- The membership of a path: INCLUDE of its source, or EXCLUDE of none (R186). -/
def membership (group source : Nat) : Nat × Bool × List Nat :=
  if source = 0 then (group, false, []) else (group, true, [source])

/-- The memberships of a port's paths: its enabled session paths (R186), and on a master the advertised paths (16 R771). -/
def State.pathMemberships (s : State) (p : PortIx) : List (Nat × Bool × List Nat) :=
  ((List.range 8).filter (fun v => s.pathOn v p.1 && isMulticast (s.pN P.ETH_RX_GROUP (2 * v + p.1)))).map
    (fun v => membership (s.pN P.ETH_RX_GROUP (2 * v + p.1)) (s.pN P.ETH_RX_SOURCE (2 * v + p.1))) ++
  ((s.adverts p).filter (fun a => isMulticast a.2.1)).map (fun a => membership a.2.1 a.2.2.1)

/-- One membership per group: EXCLUDE when a path takes any source, else INCLUDE of all sources. PRESUMED: assumption 27. -/
def mergeGroups (l : List (Nat × Bool × List Nat)) : List (Nat × Bool × List Nat) :=
  ((l.map (·.1)).eraseDups).map (fun g =>
    let mine := l.filter (fun m => m.1 == g)
    if mine.any (fun m => !m.2.1) then (g, false, []) else (g, true, (mine.flatMap (·.2.2)).eraseDups))

def State.memberships (s : State) (p : PortIx) : List (Nat × Bool × List Nat) := mergeGroups (s.pathMemberships p)

/-- The record of a group's state. -/
def stateRec (m : Nat × Bool × List Nat) : IgmpRec := (if m.2.1 then 1 else 2, m.1, m.2.2)

/-- The version of a port's reports: that of the oldest querier present. PRESUMED: assumption 27. -/
def State.igmpVersion (s : State) (p : PortIx) : Nat :=
  let x := s.eth.ports[p]
  if s.now < x.v1Until then 1 else if s.now < x.v2Until then 2 else 3

/-- How long an older querier is taken to be present, ns: robustness 2, query interval 125 s, response interval 10 s. -/
def olderQuerierNs : Nat := 260000000000

/-- A record as an older version reports it: a membership, a leave, which version 1 does not have, or nothing. -/
def olderRec (version : Nat) (r : IgmpRec) : Option IgmpRec :=
  if r.1 = 3 ∧ r.2.2 = [] then (if version = 2 then some (3, r.2.1, []) else none)
  else if r.1 = 6 then none
  else some (2, r.2.1, [])

/-- Send IGMP reports when there are records. PRESUMED: assumption 27. -/
def State.sendIgmp (s : State) (p : PortIx) (r : List IgmpRec) : State :=
  let v := s.igmpVersion p
  let r := if v = 3 then r else (r.filterMap (olderRec v)).eraseDups
  if r.isEmpty then s else s.emit (.igmp p v r)

/-- Report a change, and again within a second. PRESUMED: assumption 27. -/
def State.reportIgmp (s : State) (p : PortIx) (r : List IgmpRec) : State :=
  if r.isEmpty then s
  else
    let due := s.now + 1 + Config.freeNat s.free % 1000000000
    (s.draw.sendIgmp p r).modPort p (fun x => { x with repeats := x.repeats ++ [(due, r)] })

/-- Send the repeats that are due. -/
def State.repeatIgmp (s : State) (p : PortIx) : State :=
  let l := (s.eth.ports[p]).repeats
  if l.isEmpty then s
  else
    let s := (l.filter (fun e => Nat.ble e.1 s.now)).foldl (fun s e => s.sendIgmp p e.2) s
    s.modPort p (fun x => { x with repeats := l.filter (fun e => Nat.blt s.now e.1) })

/-- The records that a change of a port's memberships calls for (R186). PRESUMED: assumption 27. -/
def igmpChange (old new : List (Nat × Bool × List Nat)) : List IgmpRec :=
  let minus (a b : List Nat) : List Nat := a.filter (fun x => !b.contains x)
  new.flatMap (fun m =>
    let was := ((old.find? (fun x => x.1 == m.1)).map (·.2)).getD (true, [])
    match was.1, m.2.1 with
    | true, true =>
      let a := minus m.2.2 was.2
      let b := minus was.2 m.2.2
      (if a.isEmpty then [] else [(5, m.1, a)]) ++ (if b.isEmpty then [] else [(6, m.1, b)])
    | true, false => [(4, m.1, [])]
    | false, true => [(3, m.1, m.2.2)]
    | false, false => []) ++
  (old.filter (fun m => !(new.map (·.1)).contains m.1)).map (fun m => (3, m.1, []))

/-- ETH_AN_COMPLETE (R173, Table 4-2 step 2). -/
def execEthAnComplete (p : PortIx) (s : State) : Res :=
  .next (if mediaCopper (s.pN P.ETH_MEDIA p.1) && s.pB P.ETH_AN p.1 && (s.eth.ports[p]).phase == .down then
    s.modPort p (fun x => { x with phase := .training }) else s)

/-- ETH_TRAINING_COMPLETE (Table 4-2 step 3). -/
def execEthTrainingComplete (p : PortIx) (s : State) : Res :=
  .next (if mediaCopper (s.pN P.ETH_MEDIA p.1) && (s.eth.ports[p]).phase == .training then
    s.modPort p (fun x => { x with phase := .trained }) else s)

/-- ETH_LINK_UP (Table 4-2 steps 4 and 5): gratuitous ARP and IGMPv3 reports. -/
def execEthLinkUp (p : PortIx) (s : State) : Res :=
  let m := s.pN P.ETH_MEDIA p.1
  let ph := (s.eth.ports[p]).phase
  let ready := if mediaCopper m then ph == .trained else m != mediaDisabled && s.modulePresent p && ph == .down
  if ready = true then
    let s := s.modPort p (fun x => { x with phase := .up })
    let ip := s.pN P.ETH_IPADDR p.1
    let s := if ip = 0 then s else s.emit (.arp p false 0xFFFFFFFFFFFF ip)
    .next (s.reportIgmp p ((s.memberships p).map stateRec))
  else .next s

/-- ETH_LINK_LOSS (R178). -/
def execEthLinkLoss (t : Nat) (p : PortIx) (s : State) : Res :=
  let s := s.atTime t
  .next (if s.linkUp p then (s.log (0x04 + p.1) 1 clsMasked p.1 []).linkRestart p else s)

/-- QSFP_MODULE_PRESENT (R174): the GPIO's level, and the bring-up of a port whose module has gone. -/
def execQsfpModulePresent (gpio : Fin 16) (level : Bool) (s : State) : Res :=
  let s := { s with eth := { s.eth with gpio := vset s.eth.gpio gpio level } }
  .next ((allFin 2).foldl (fun s p =>
    if s.pN P.ETH_MEDIA p.1 = 2 ∧ s.pN P.ETH_MODPRS p.1 = gpio.1 ∧ level = true then s.linkRestart p else s) s)

/-! ## The frame parse (R179 to R183) -/

/-- The 16-bit one's complement sum of IPv4 and UDP. -/
def onesSum (b : Bytes) : Nat :=
  let n := (List.range ((b.length + 1) / 2)).foldl (fun a k => a + be16 (b ++ [0#8]) (2 * k)) 0
  let n := n % 65536 + n / 65536
  n % 65536 + n / 65536

/-- What the parse finds. -/
inductive Parsed where
  /-- dropped and counted in ETH_BADFRAMES (R181) -/
  | bad
  /-- dropped without counting (R179, R180, R182, R183, R190) -/
  | drop
  /-- a HALT for the HALT slot (R194) -/
  | halt (x : Payload)
  /-- a frame to buffer in a class -/
  | keep (cls : Nat) (x : Payload)
  deriving DecidableEq, Repr

/-- The Ethernet multicast address of a group. -/
def groupMac (ip : Nat) : Nat := 0x01005E000000 + ip % 0x800000

/-- The class a frame's marking gives (R187). -/
def State.marking (s : State) (p : PortIx) (pcp dscp : Nat) : Nat :=
  if s.pN P.ETH_CLASS_SEL p.1 = 0 then (s.pN P.ETH_PCP_MAP / 2 ^ (3 * pcp)) % 8
  else u8 (s.pT P.ETH_DSCP_MAP) dscp % 8

/-- The class of a frame of no kind of classes 4 to 7 (R188). -/
def videoClass (m : Nat) : Nat := if 4 ≤ m then 0 else m

/-- The sessions whose path takes a datagram. -/
def State.sessionsOf (s : State) (p : PortIx) (srcIp dstIp udp : Nat) : List RxIx :=
  (allFin 8).filter (fun v =>
    let w := 2 * v.1 + p.1
    let src := s.pN P.ETH_RX_SOURCE w
    s.pathOn v.1 p.1 && s.pN P.ETH_RX_GROUP w == dstIp && s.pN P.ETH_RX_UDP w == udp && (src == 0 || src == srcIp))

/-- The source check of R109 as the classifier makes it (R190). -/
def State.acmSourceOk (s : State) (srcIp : Nat) (d : Bytes) : Bool :=
  let q := u8 d 7
  decide (4 ≤ q) || s.pN P.SYS_ACM_HOST q == 0 || s.pN P.SYS_ACM_HOST q == srcIp

/-- The defects of a UDP datagram, judged before its destination (R181): a checksum that is wrong, or a length that does not fit.
DESIGN CHOICE: assumption 99. -/
def udpDefect (srcIp dstIp : Nat) (u : Bytes) : Option Parsed :=
  let len := be16 u 4
  let pseudo := toBE 4 srcIp ++ toBE 4 dstIp ++ [0#8, 17#8] ++ toBE 2 len
  if u.length < 8 ∨ len < 8 ∨ u.length < len then some .drop
  else if be16 u 6 ≠ 0 ∧ onesSum (pseudo ++ u.take len) ≠ 0xFFFF then some .bad
  else none

/-- Parse a UDP datagram without defects. -/
def State.parseUdp (s : State) (p : PortIx) (own : Bool) (srcIp dstIp mark : Nat) (u : Bytes) : Parsed :=
  let len := be16 u 4
  let dst := be16 u 2
  let d := slice u 8 (len - 8)
  if own = true ∧ dst = s.pN P.SYS_ACM_PORT then
    if s.acmSourceOk srcIp d = false then .drop
    else if d.length = 52 ∧ be16 d 4 = 1 then .halt (.acm srcIp (be16 u 0) d)
    else .keep 7 (.acm srcIp (be16 u 0) d)
  else if own = true ∧ dst = s.pN P.SYS_SURF_PORT then .keep 4 (.surface srcIp d)
  else if (own = true ∨ dstIp = 0xE0000181) ∧ (dst = 319 ∨ dst = 320) then .keep 6 (.ptp dst srcIp d)
  else
    let v := s.sessionsOf p srcIp dstIp dst
    let known := (List.range 16).any (fun w => s.pN P.ETH_RX_UDP w == dst) || (s.adverts p).any (fun a => a.2.2.2 == dst)
    if own = true ∧ known = false then .drop
    else .keep (videoClass mark) (if v.isEmpty then .other else .video v d)

/-- Parse an IPv4 packet (R181, R182). DESIGN CHOICE: assumption 99. -/
def State.parseIp (s : State) (p : PortIx) (dstMac pcp : Nat) (b : Bytes) : Parsed :=
  let ihl := 4 * (u8 b 0 % 16)
  let tot := be16 b 2
  let proto := u8 b 9
  let srcIp := be32 b 12
  let dstIp := be32 b 16
  let body := slice b ihl (tot - ihl)
  let own := dstMac == (Config.mac p).toNat && dstIp == s.pN P.ETH_IPADDR p.1 && dstIp != 0
  let joined := (List.range 8).any (fun v => s.pathOn v p.1 && s.pN P.ETH_RX_GROUP (2 * v + p.1) == dstIp) ||
    (s.adverts p).any (fun a => a.2.1 == dstIp)
  let time := proto == 17 && (be16 body 2 == 319 || be16 body 2 == 320)
  let multi := isMulticast dstIp && dstMac == groupMac dstIp &&
    (joined || (dstIp == 0xE0000181 && time) || ((dstIp == 0xE0000001 || dstIp == 0xE0000016) && proto == 2))
  let defect := if proto = 17 then udpDefect srcIp dstIp body else none
  let alert := proto == 2 && ihl == 24 && be32 b 20 == 0x94040000
  if b.length < 20 ∨ u8 b 0 / 16 ≠ 4 ∨ ihl < 20 ∨ b.length < ihl then .drop
  else if be16 b 6 % 16384 ≠ 0 then .bad
  else if onesSum (b.take ihl) ≠ 0xFFFF then .bad
  else if ihl ≠ 20 ∧ alert = false then .bad
  else if tot < ihl ∨ b.length < tot then .drop
  else match defect with
  | some x => x
  | none =>
    if (own || multi) = false then .drop
    else
      let mark := s.marking p pcp (u8 b 1 / 4)
      if proto = 17 then s.parseUdp p own srcIp dstIp mark body
      else if proto = 1 then (if own = true then .keep 5 (.icmp srcIp body) else .drop)
      else if proto = 2 then .keep 5 (.igmp srcIp body)
      else .keep (videoClass mark) .other

/-- The classifier's parse of a received frame, its FCS included. PRESUMED: assumption 27. DESIGN
CHOICE: assumption 99. -/
def State.parseFrame (s : State) (p : PortIx) (touched : Bool) (f : Bytes) : Parsed :=
  let tagged := be16 f 12 == 0x8100
  let vid := be16 f 14 % 4096
  let off := if tagged then 18 else 14
  let ty := be16 f (off - 2)
  let dstMac := natBE (f.take 6)
  let vlan := s.pN P.ETH_VLAN p.1
  let inner := slice f off (f.length - off - 4)
  if touched = true ∨ f.length < 4 ∨ crc32 (f.take (f.length - 4)) ≠ le32 f (f.length - 4) then .bad
  else if f.length < 64 then .drop
  else if 9022 < f.length then .bad
  -- pause and priority flow control (R183)
  else if ty = 0x8808 ∧ (be16 f off = 0x0001 ∨ be16 f off = 0x0101) then .drop
  else if ty ≠ 0x0800 ∧ ty ≠ 0x0806 then .bad
  else if (if tagged then vlan == 0 || vid != vlan else vlan != 0) = true then
    -- a frame of a wrong VLAN is not accepted (R180); its other defects still count (R181)
    (if ty = 0x0800 then (match s.parseIp p dstMac 0 inner with
      | .bad => .bad
      | _ => .drop) else .drop)
  else if ty = 0x0806 then
    let own := dstMac == (Config.mac p).toNat && be32 inner 24 == s.pN P.ETH_IPADDR p.1 && s.pN P.ETH_IPADDR p.1 != 0
    if dstMac = 0xFFFFFFFFFFFF ∨ own = true then .keep 5 (.arp inner) else .drop
  else s.parseIp p dstMac (if tagged then u8 f 14 / 32 else 0) inner

/-! ## Classes, policers and buffers (R187 to R194, Table 4-3) -/

/-- Reserve and bucket of a class, bytes. -/
def reserveOf (k : Nat) : Nat :=
  match k with
  | 7 => 65536
  | 6 => 16384
  | 5 => 8192
  | _ => 0

/-- Policer rate of a class, thousandths of a bit per ns. -/
def policerRate (k : Nat) : Nat :=
  match k with
  | 7 => 100
  | 6 => 10
  | 5 => 2
  | _ => 0

/-- Shared-pool admission threshold of a class, per cent. -/
def poolThreshold (k : Nat) : Nat :=
  match k with
  | 4 => 100
  | 3 => 95
  | 2 => 80
  | 1 => 65
  | _ => 50

/-- The shared pool, bytes: 2 MB less the reserves and HALT slots (R189). -/
def sharedPool : Nat := 1864 * 1024
/-- A port's HALT slot, bytes. -/
def haltSlot : Nat := 4096

/-- Fill the policers' buckets up to an instant. DEDUCED: assumption 33. -/
def Port.refill (x : Port) (t : Nat) : Port :=
  let add (k : Fin 3) : Nat := min (reserveOf (k.1 + 5) * 8000) (x.tokens[k] + policerRate (k.1 + 5) * (t - x.filledAt))
  { x with tokens := Vector.ofFn add, filledAt := max t x.filledAt }

/-- Bytes buffered of one port's class, and in the shared pool. -/
def Eth.inClass (e : Eth) (p : PortIx) (k : Nat) : Nat :=
  e.buf.foldl (fun a b => if b.p = p ∧ b.cls = k then a + b.len else a) 0
def Eth.inPool (e : Eth) : Nat := e.buf.foldl (fun a b => if b.cls ≤ 4 then a + b.len else a) 0

/-- Bump a port's counter of a class. -/
def State.ethDrop (s : State) (p : PortIx) (k : Nat) : State :=
  s.modPort p (fun x => { x with drops := vmod x.drops (Fin.ofNat 8 k) (inc 32 ·) })

/-- Does the device make use of a PTP message (R216, R217)? Sync comes on the event port, the others on the general port. -/
def ptpServed : Payload → Bool
  | .ptp port _ d =>
    let ty := u8 d 0 % 16
    if ty = 0 then port == 319 else (ty == 8 || ty == 9 || ty == 11) && port == 320
  | _ => true

/-- Buffer a frame in its class (R191, R192). A PTP message of no use to the device is taken and ignored at once. DEDUCED:
assumption 33. -/
def State.buffer (s : State) (p : PortIx) (k len : Nat) (x : Payload) : State :=
  let put (s : State) : State :=
    if ptpServed x then { s with eth := { s.eth with buf := s.eth.buf ++ [⟨p, k, len, s.now, x⟩] } } else s
  if 5 ≤ k then
    let s := s.modPort p (·.refill s.now)
    let i : Fin 3 := Fin.ofNat 3 (k - 5)
    if (s.eth.ports[p]).tokens[i] < len * 8000 then
      s.modPort p (fun x => { x with policed := vmod x.policed (Fin.ofNat 8 k) (inc 32 ·) })
    else
      let s := s.modPort p (fun x => { x with tokens := vmod x.tokens i (· - len * 8000) })
      if reserveOf k < s.eth.inClass p k + len then s.ethDrop p k else put s
  else if s.eth.inPool * 100 < poolThreshold k * sharedPool then put s
  else s.ethDrop p k

/-- Place a HALT in the port's HALT slot (R194). -/
def State.bufferHalt (s : State) (p : PortIx) (len : Nat) (x : Payload) : State :=
  let used := (s.eth.halt[p]).foldl (fun a b => a + b.len) 0
  if haltSlot < used + len then s.modPort p (fun x => { x with haltDrops := inc 32 x.haltDrops })
  else { s with eth := { s.eth with halt := vmod s.eth.halt p (· ++ [⟨p, 7, len, s.now, x⟩]) } }

/-- Source, destination, UDP port and payload of a frame that carries a UDP datagram, from its destination address on. -/
def udpFields (f : Bytes) : Option (Nat × Nat × Nat × Bytes) :=
  let b := f.drop (if be16 f 12 = 0x8100 then 18 else 14)
  if u8 b 9 = 17 then
    let u := b.drop (4 * (u8 b 0 % 16))
    some (be32 b 12, be32 b 16, be16 u 2, slice u 8 (be16 u 4 - 8))
  else none

/-- A master forwards an accepted frame of classes 0 to 3 that matches an advertised path (16 R771). -/
def State.forwardFrame (s : State) (p : PortIx) (k : Nat) (frame : Bytes) : State :=
  if 4 ≤ k then s
  else match udpFields frame with
    | some (src, dst, udp, _) => s.forwardVideo p src dst udp (frame.take (frame.length - 4))
    | none => s

/-- ETH_FRAME_RX (R179 to R194): parse, drop or buffer one received frame; in BOOT every ACM datagram is dropped (03 R156).
DEDUCED: assumption 33. DESIGN CHOICE: assumption 32. -/
def execEthFrameRx (t : Nat) (p : PortIx) (fec : Fec) (frame : Bytes) (s : State) : Res :=
  let s := s.atTime t
  if s.linkUp p = false ∨ s.clockLost (serdesEth p) = true then .next s
  else
    let s := s.modPort p (fun x => { x with
      fecCorr := inc 64 x.fecCorr fec.corrected, fecUncorr := inc 64 x.fecUncorr fec.uncorrectable })
    let acm : Payload → Bool
      | .acm _ _ _ => s.dev == .boot
      | _ => false
    match s.parseFrame p fec.touched frame with
    | .bad => .next (s.modPort p (fun x => { x with badFrames := inc 32 x.badFrames }))
    | .drop => .next s
    | .halt x => .next (if acm x then s else s.bufferHalt p frame.length x)
    | .keep k x => .next (if acm x then s else (s.forwardFrame p k frame).buffer p k frame.length x)

/-! ## Draining the buffer -/

/-- May a frame be drained (R189)? The supervisor takes classes 7, 6 and 5 in strict priority. DEDUCED: assumption 33. -/
def Eth.mayDrain (e : Eth) (b : Buffered) : Bool := Nat.blt b.cls 5 || e.buf.all (fun x => Nat.ble x.cls b.cls)

/-- Take the oldest buffered frame of a port that meets a test. -/
def State.takeFrame (s : State) (p : PortIx) (want : Payload → Bool) : Option (Payload × State) :=
  match s.eth.buf.find? (fun b => b.p == p && want b.payload) with
  | none => none
  | some b => if s.eth.mayDrain b then some (b.payload, { s with eth := { s.eth with buf := s.eth.buf.erase b } }) else none

def isArp : Payload → Bool
  | .arp _ => true
  | _ => false
def isIcmp : Payload → Bool
  | .icmp _ _ => true
  | _ => false
def isIgmp : Payload → Bool
  | .igmp _ _ => true
  | _ => false
def isAcm : Payload → Bool
  | .acm _ _ _ => true
  | _ => false
def isSurface : Payload → Bool
  | .surface _ _ => true
  | _ => false
def isPtp : Payload → Bool
  | .ptp _ _ _ => true
  | _ => false
/-- Frames of the memory path: session datagrams and frames of no kind. -/
def isVideo : Payload → Bool
  | .video _ _ => true
  | .other => true
  | _ => false

/-- ARP_REQUEST (R184): a request for the port's address is answered. -/
def execArpRequest (p : PortIx) (s : State) : Res :=
  match s.takeFrame p isArp with
  | some (.arp d, s) =>
    let ip := s.pN P.ETH_IPADDR p.1
    let good := !s.clockLost (serdesEth p) && be16 d 0 == 1 && be16 d 2 == 0x0800 && be16 d 6 == 1 && be32 d 24 == ip && ip != 0
    .next (if good then s.emit (.arp p true (natBE (slice d 8 6)) (be32 d 14)) else s)
  | _ => .next s

/-- ICMP_ECHO (R184): at most 100 answers per second and port. -/
def execIcmpEcho (t : Nat) (p : PortIx) (s : State) : Res :=
  let s := s.atTime t
  match s.takeFrame p isIcmp with
  | some (.icmp ip d, s) =>
    let recent := (s.eth.ports[p]).echoes.filter (fun e => decide (s.now < e + 1000000000))
    if u8 d 0 = 8 ∧ u8 d 1 = 0 ∧ recent.length < 100 ∧ s.dev ≠ .boot ∧ s.reachable (.eth p) ip = true then
      .next ((s.modPort p (fun x => { x with echoes := s.now :: recent })).emit (.echo p ip (d.drop 4)))
    else .next s
  | _ => .next s

/-- The records that answer a query: of every group, of one group, or of some sources of it. -/
def queryRecs (ms : List (Nat × Bool × List Nat)) (group : Nat) (sources : List Nat) : List IgmpRec :=
  if group = 0 then ms.map stateRec
  else match ms.find? (fun m => m.1 == group) with
    | none => []
    | some m =>
      if sources.isEmpty then [stateRec m]
      else
        let r := if m.2.1 then m.2.2.filter (fun x => sources.contains x) else sources
        if r.isEmpty then [] else [(1, group, r)]

/-- IGMP_QUERY (R186): a query is answered with membership reports, in the version of the oldest querier present. PRESUMED:
assumption 27. -/
def execIgmpQuery (p : PortIx) (s : State) : Res :=
  match s.takeFrame p isIgmp with
  | some (.igmp _ d, s) =>
    if u8 d 0 ≠ 0x11 then .next s
    else
      let s := s.modPort p (fun x =>
        if 12 ≤ d.length then x
        else if u8 d 1 = 0 then { x with v1Until := s.now + olderQuerierNs }
        else { x with v2Until := s.now + olderQuerierNs })
      let sources := if 12 ≤ d.length then (List.range (be16 d 10)).map (fun k => be32 d (12 + 4 * k)) else []
      .next (s.sendIgmp p (queryRecs (s.memberships p) (be32 d 4) sources))
  | _ => .next s

/-- The route of a surface datagram on a master (16 R767). -/
def State.routeOf (s : State) (d : Bytes) : Option Route :=
  if s.cas.role = .master then s.cas.routes.find? (fun r => r.session == u8 d 3 && r.writeId == be32 d 8) else none

/-- SURFACE_DATAGRAM (R226 to R229; 16 R767): forwarded where a route matches, else handled here. -/
def execSurfaceDatagram (p : PortIx) (s : State) : Res :=
  match s.takeFrame p isSurface with
  | some (.surface _ d, s) =>
    match s.routeOf d with
    | some r => .next (s.travSend kindSurface r.device d)
    | none => .next (s.surfaceData d)
  | _ => .next s

end Sys2Proof.Machine
end

