-- ==== Sys2Proof/Machine/AtcTile.lean ====
section
/-! DEFINITION. The Agfold Tile Code: one tile coded and decoded (07 R374 to R392). -/

namespace Sys2Proof.Machine

/-- Bytes per pixel of the tile formats. -/
def tileBpp (f : Nat) : Nat := if f = 0x10 ∨ f = 0x11 then 4 else 1

/-- Components of a format: their lowest bits in the pixel word (Table 7-3). -/
def tileComponents (f : Nat) : List Nat :=
  match f with
  | 0x10 => [16, 8, 0, 24]
  | 0x11 => [16, 8, 0]
  | _ => [0]

/-- Raw length of a tile (Table 7-2). -/
def tileRawLen (f : Nat) : Nat := 8 + 256 * tileBpp f

/-- Tile columns, rows and number, and the index's bytes (R374). -/
def tileCols (w : Nat) : Nat := ceilDiv w 32
def tileRows (h : Nat) : Nat := ceilDiv h 8
def tileCount (w h : Nat) : Nat := tileCols w * tileRows h
def tileIndexBytes (w h : Nat) : Nat := ceilDiv (4 * tileCount w h) 64 * 64

/-- Does pixel n of tile t lie inside the surface (R378)? -/
def tileInside (w h t n : Nat) : Bool :=
  decide (t % tileCols w * 32 + n % 32 < w) && decide (t / tileCols w * 8 + n / 32 < h)

/-- Predictors (Table 7-4). -/
inductive Pred where
  | left
  | up
  | median
  deriving DecidableEq, Repr

def Pred.code : Pred → Nat
  | .left => 0
  | .up => 1
  | .median => 2

def predOf (n : Nat) : Option Pred :=
  match n with
  | 0 => some .left
  | 1 => some .up
  | 2 => some .median
  | _ => none

/-- The middle of three. -/
def median3 (a b c : Int) : Int := max (min a b) (min (max a b) c)

/-- The prediction of the next value, from the values before it, newest first (R383). -/
def predict (p : Pred) (before : List Nat) : Int :=
  let n := before.length
  let x := n % 32
  let y := n / 32
  let a : Int := before.getD 0 0
  let b : Int := before.getD 31 0
  let c : Int := before.getD 32 0
  if x = 0 ∧ y = 0 then 0
  else if y = 0 then a
  else if x = 0 then b
  else match p with
    | .left => a
    | .up => b
    | .median => median3 a b (a + b - c)

/-- The code number of a value against its prediction (R384). -/
def codeNumber (v : Nat) (p : Int) : Nat :=
  let e : Int := ((v : Int) - p + 128) % 256 - 128
  if 0 ≤ e then (2 * e).toNat else (-2 * e - 1).toNat

/-- The value of a code number. -/
def valueOfCode (u : Nat) (p : Int) : Nat :=
  let e : Int := if u % 2 = 0 then ((u / 2 : Nat) : Int) else -(((u + 1) / 2 : Nat) : Int)
  ((p + e) % 256).toNat

/-- The code numbers of a component's 256 values. -/
def residuals (p : Pred) (vs : List Nat) : List Nat :=
  (vs.foldl (fun (acc : List Nat × List Nat) v => (codeNumber v (predict p acc.2) :: acc.1, v :: acc.2)) ([], [])).1.reverse

/-- `n` bits of a number, most significant first. -/
def bitsOf (n v : Nat) : List Bool := (List.range n).map (fun i => bit v (n - 1 - i))

/-- The code of a code number under k (R387). -/
def riceCode (k u : Nat) : List Bool :=
  let q := u / 2 ^ k
  if q < 16 then List.replicate q true ++ [false] ++ bitsOf k u else List.replicate 16 true ++ bitsOf 8 u

/-- Its length. -/
def riceLen (k u : Nat) : Nat := let q := u / 2 ^ k
  if q < 16 then q + 1 + k else 24

/-- The k of fewest bits for a group, the lowest on a tie (R391). -/
def bestK (g : List Nat) : Nat :=
  let cost (k : Nat) : Nat := g.foldl (fun a u => a + riceLen k u) 0
  (List.range 8).foldl (fun b k => if cost k < cost b then k else b) 0

/-- The bits of one component's code numbers (R386). -/
def componentBits (us : List Nat) : List Bool :=
  (chunks 8 32 us).flatMap (fun g => let k := bestK g
    bitsOf 3 k ++ g.flatMap (riceCode k))

/-- The number of those bits. -/
def componentCost (us : List Nat) : Nat :=
  (chunks 8 32 us).foldl (fun a g => a + 3 + g.foldl (fun a u => a + riceLen (bestK g) u) 0) 0

/-- The predictor of fewest bits, the lowest code on a tie (R391). -/
def bestPred (vs : List Nat) : Pred :=
  let cost (p : Pred) : Nat := componentCost (residuals p vs)
  [Pred.up, .median].foldl (fun b p => if cost p < cost b then p else b) .left

/-- Bits packed into bytes, most significant first (R385). -/
def packBits (b : List Bool) : Bytes :=
  (chunks 8 (b.length / 8 + 1) b).map (fun c => byteOf (c.foldl (fun a x => 2 * a + b2n x) 0 * 2 ^ (8 - c.length)))

/-- The CRC of a tile's pixels (R379). -/
def tileCrc (f w h t : Nat) (px : List Nat) : Nat :=
  crc32 ((px.zipIdx.filter (fun e => tileInside w h t e.2)).flatMap (fun e => toLE (tileBpp f) e.1))

/-- Code a tile of 256 pixel words, padding pixels 0; true when it is stored RAW (R391, R392). -/
def encodeTile (f w h t : Nat) (px : List Nat) : Bytes × Bool :=
  let px := if f = 0x11 then px.map (· % 16777216) else px
  let comps := (tileComponents f).map (fun lo => px.map (fun p => p / 2 ^ lo % 256))
  let preds := comps.map bestPred
  let body := packBits ((comps.zip preds).flatMap (fun (vs, p) => componentBits (residuals p vs)))
  let len := 8 + roundUpTo4 body.length
  let crc := toLE 4 (tileCrc f w h t px)
  if len < tileRawLen f then
    let pred := (preds.zipIdx.foldl (fun a (p, i) => a + p.code * 4 ^ i) 0)
    (toLE 2 len ++ [0#8, byteOf pred] ++ crc ++ body ++ zeros (len - 8 - body.length), false)
  else (toLE 2 (tileRawLen f) ++ [1#8, 0#8] ++ crc ++ px.flatMap (toLE (tileBpp f)), true)
where
  roundUpTo4 (n : Nat) : Nat := (n + 3) / 4 * 4

/-- Read `n` bits, most significant first. -/
def readBits : Nat → Nat → List Bool → Option (Nat × List Bool)
  | 0, a, b => some (a, b)
  | _ + 1, _, [] => none
  | n + 1, a, x :: b => readBits n (2 * a + b2n x) b

/-- Count one-bits up to sixteen; the zero-bit that ends them is read too. -/
def readUnary : Nat → Nat → List Bool → Option (Nat × List Bool)
  | 0, q, b => some (q, b)
  | _ + 1, _, [] => none
  | n + 1, q, x :: b => if x then readUnary n (q + 1) b else some (q, b)

/-- Read one code number. -/
def readCode (k : Nat) (b : List Bool) : Option (Nat × List Bool) :=
  match readUnary 16 0 b with
  | none => none
  | some (q, b) =>
    if q = 16 then readBits 8 0 b
    else match readBits k 0 b with
      | none => none
      | some (r, b) => some (q * 2 ^ k + r, b)

/-- Decode `n` values of a component. -/
def decodeGroup (p : Pred) (k : Nat) : Nat → List Nat → List Bool → Option (List Nat × List Bool)
  | 0, vs, b => some (vs, b)
  | n + 1, vs, b =>
    match readCode k b with
    | none => none
    | some (u, b) => decodeGroup p k n (valueOfCode u (predict p vs) :: vs) b

/-- Decode `g` groups of a component, values newest first. -/
def decodeGroups (p : Pred) : Nat → List Nat → List Bool → Option (List Nat × List Bool)
  | 0, vs, b => some (vs, b)
  | g + 1, vs, b =>
    match readBits 3 0 b with
    | none => none
    | some (k, b) =>
      match decodeGroup p k 8 vs b with
      | none => none
      | some (vs, b) => decodeGroups p g vs b

/-- Decode the components of a tile in order. -/
def decodeComponents : List Pred → List Bool → Option (List (List Nat))
  | [], _ => some []
  | p :: r, b =>
    match decodeGroups p 32 [] b with
    | none => none
    | some (vs, b) =>
      match decodeComponents r b with
      | none => none
      | some cs => some (vs.reverse :: cs)

/-- The predictors of a PRED byte; none for a reserved code or a set bit of an absent component (R389). -/
def predsOf (n pred : Nat) : Option (List Pred) :=
  if pred / 4 ^ n ≠ 0 then none
  else (List.range n).foldr (fun i r => match predOf (pred / 4 ^ i % 4), r with
    | some p, some l => some (p :: l)
    | _, _ => none) (some [])

/-- Does a LEN fit R377 and R389? -/
def tileLenOk (f mode len : Nat) : Bool :=
  len % 4 == 0 && decide (8 ≤ len) && (if mode = 0 then decide (len < tileRawLen f) else len == tileRawLen f)

/-- Decode a tile from its bytes; none when it fails (R389): PRED is judged in every mode. -/
def decodeTile (f w h t : Nat) (b : Bytes) : Option (List Nat) :=
  let mode := u8 b 2
  let comps := tileComponents f
  let px : Option (List Nat) :=
    if mode = 1 then
      (predsOf comps.length (u8 b 3)).map (fun _ => (List.range 256).map (fun n => natLE (slice b (8 + n * tileBpp f) (tileBpp f)) % (if f = 0x11 then 16777216 else 4294967296)))
    else match predsOf comps.length (u8 b 3) with
      | none => none
      | some ps => match decodeComponents ps ((b.drop 8).flatMap (fun x => bitsOf 8 x.toNat)) with
        | none => none
        | some cs => some ((List.range 256).map (fun n =>
            (cs.zip comps).foldl (fun a (vs, lo) => a + vs.getD n 0 * 2 ^ lo) 0))
  if mode ≥ 2 ∨ tileLenOk f mode (le16 b 0) = false ∨ b.length ≠ le16 b 0 then none
  else match px with
    | none => none
    | some px => if tileCrc f w h t px = le32 b 4 then some px else none

end Sys2Proof.Machine
end

