-- ==== Sys2Proof/Machine/Codec.lean ====
section
/-! DEFINITION. Codec jobs: checks, COMPRESS, DECOMPRESS, VERIFY and their result (07 R393 to R411). -/

namespace Sys2Proof.Machine

/-- The operations of ATC_JOB (Table 7-6). -/
inductive JobOp where
  | compress
  | decompress
  | verify
  deriving DecidableEq, Repr

/-- An ATC_JOB descriptor. -/
structure Job where
  op      : JobOp
  src     : Nat
  dst     : Nat
  writeId : Nat
  first   : Nat
  count   : Nat
  dataOff : Nat
  deriving DecidableEq, Repr

/-- Decode a descriptor; none for a reserved code or a set reserved byte. -/
def jobOf (b : Bytes) : Option Job :=
  let op : Option JobOp := match u8 b 0 with
    | 0 => some .compress
    | 1 => some .decompress
    | 2 => some .verify
    | _ => none
  if natLE (slice b 1 3) ≠ 0 ∨ le32 b 28 ≠ 0 then none
  else op.map (fun o => ⟨o, le32 b 4, le32 b 8, le32 b 12, le32 b 16, le32 b 20, le32 b 24⟩)

/-- Formats a codec job takes. -/
def codecFormat (f : Nat) : Bool := [0x10, 0x11, 0x14, 0x15].contains f

/-- The window bytes a job needs (Table 7-9), as (first, one past the last) spans of the surface. -/
def jobNeeds (j : Job) (x : Surf) : List (Nat × Nat) :=
  match j.op with
  | .compress => [(4 * j.first, 4 * (j.first + j.count)), (j.dataOff, j.dataOff + 1)]
  | .decompress =>
    let pitch := match x.planes with
      | [] => 0
      | p :: _ => p.pitch
    let tc := tileCols x.width
    let rows := (List.range (tileRows x.height)).filter (fun ty => decide (j.first < (ty + 1) * tc) && decide (ty * tc < j.first + j.count))
    rows.map (fun ty => (ty * 8 * pitch, (min (ty * 8 + 8) x.height - 1) * pitch + x.width * tileBpp x.format))
  | .verify => []

/-- The checks of Table 7-8 in their order; none when the job may run. -/
def State.jobRefusal (s : State) (q : SessIx) (b : Bytes) : Option Status :=
  if s.dev = .boot ∨ s.dev = .hold then some .errState
  else match jobOf b with
  | none => some .errRange
  | some j =>
    let src := s.surface j.src
    let dst := s.surface j.dst
    let nt := match src with
      | none => none
      | some (_, x) => some (tileCount x.width x.height, tileIndexBytes x.width x.height)
    let early : Bool := j.count == 0 || decide (4096 < j.count) || j.src == j.dst ||
      (match nt with
        | none => false
        | some (n, _) => decide (n < j.first + j.count)) ||
      (j.op == .verify && (j.dst != 0 || j.writeId != 0)) ||
      (j.op == .compress && (j.dataOff % 4 != 0 || (match nt with
        | none => false
        | some (_, ib) => decide (j.dataOff < ib)))) ||
      (j.op != .compress && j.dataOff != 0)
    if early = true then some .errRange
    else match src, (if j.op = .verify then src else dst) with
      | some (_, x), some (_, y) =>
        let kinds := match j.op with
          | .compress => x.kind == .packed && y.kind == .atc
          | .decompress => x.kind == .atc && y.kind == .packed
          | .verify => x.kind == .atc
        if codecFormat x.format = false ∨ x.format ≠ y.format ∨ x.width ≠ y.width ∨ x.height ≠ y.height ∨ kinds = false then
          some .errRange
        else if x.st = .filling ∨ x.st = .freePending ∨ x.valid = false then some .errSurfaceBusy
        else if j.op = .verify then none
        else match y.writer with
          | none => some .errSurfaceBusy
          | some w =>
            if w.session ≠ q ∨ w.writeId ≠ j.writeId then some .errSurfaceBusy
            else if (jobNeeds j y).all (fun (a, e) => decide (w.off ≤ a) && decide (e ≤ w.off + w.len)) then none
            else some .errRange
      | _, _ => some .errStaleHandle

/-- How a job goes on. -/
structure JobRun where
  done     : Nat
  raw      : Nat
  failed   : Nat
  firstBad : Option Nat
  next     : Nat
  /-- the status that stopped it -/
  stopped  : Option Status
  deriving DecidableEq, Repr

/-- Read the pixels of a tile of a PACKED surface, padding pixels 0; the flag counts flagged bursts. -/
def State.readPacked (s : State) (x : Surf) (t : Nat) : State × List Nat × Nat :=
  let pitch := match x.planes with
    | [] => 0
    | p :: _ => p.pitch
  let bpp := tileBpp x.format
  let x0 := t % tileCols x.width * 32
  let w := min 32 (x.width - x0)
  (List.range 8).foldl (fun (s, px, bad) y =>
    let row := t / tileCols x.width * 8 + y
    if row < x.height then
      let (s, d, f) := s.readMem x.pool (x.off + row * pitch + x0 * bpp) (w * bpp) .codec
      (s, px ++ (List.range 32).map (fun i => if i < w then natLE (slice d (i * bpp) bpp) else 0), bad + f)
    else (s, px ++ List.replicate 32 0, bad)) (s, [], 0)

/-- What reading a coded tile gives. -/
inductive TileRead where
  | uncorr
  | failing
  | good (px : List Nat)
  deriving DecidableEq, Repr

/-- Read and decode tile t of an ATC surface (R389, R402). -/
def State.readCoded (s : State) (x : Surf) (t : Nat) : State × TileRead :=
  let (s, e, f) := s.readMem x.pool (x.off + 4 * t) 4 .codec
  let off := le32 e 0 % 67108864 * 4
  if f ≠ 0 then (s, .uncorr)
  else if off = 0 ∨ x.size < off + 8 then (s, .failing)
  else
    let (s, h, f) := s.readMem x.pool (x.off + off) 8 .codec
    let len := le16 h 0
    if f ≠ 0 then (s, .uncorr)
    else if x.size < off + len ∨ tileLenOk x.format (u8 h 2) len = false then (s, .failing)
    else
      let (s, b, f) := s.readMem x.pool (x.off + off) len .codec
      if f ≠ 0 then (s, .uncorr)
      else match decodeTile x.format x.width x.height t b with
        | none => (s, .failing)
        | some px => (s, .good px)

/-- A write of a surface: where in its region, and the bytes. -/
abbrev Piece := Nat × Bytes

/-- The inside pixels of a tile as writes of a PACKED surface (R399). -/
def packedPieces (x : Surf) (t : Nat) (px : List Nat) : List Piece :=
  let pitch := match x.planes with
    | [] => 0
    | p :: _ => p.pitch
  let bpp := tileBpp x.format
  let x0 := t % tileCols x.width * 32
  let w := min 32 (x.width - x0)
  (List.range 8).filterMap (fun y =>
    let row := t / tileCols x.width * 8 + y
    if row < x.height then
      some (x.off + row * pitch + x0 * bpp, (List.range w).flatMap (fun i => toLE bpp (px.getD (32 * y + i) 0)))
    else none)

/-- Does no controller take a write of some bytes (05 R262, R268)? -/
def State.noTaker (s : State) (pool : Bool) (p : Piece) : Bool :=
  (burstPieces (p.2.length / 64 + 2) p.1 p.2.length).any (fun (a, _) =>
    if pool then s.burstFailed .primary (a / 64) && s.burstFailed .mirror (a / 64) else s.burstFailed .normal (a / 64))

/-- The first word that writes cover in part and that reads as uncorrectable in a copy (05 R254). -/
def State.badPart (s : State) (c : Copy) (l : List Piece) : Option Nat :=
  l.findSome? (fun p => (partialWords p.1 p.2.length).find? (fun w => !s.burstFailed c (w / 8) && (s.mem.poisoned c).contains w))

/-- The writes of one tile; none when one of them meets an uncorrectable error, which is logged, and then none of them is made
(R402). DEDUCED: assumption 102. -/
def State.writeTile (s : State) (y : Surf) (l : List Piece) : State × Bool :=
  let copies : List Copy := if y.pool then [.primary, .mirror] else [.normal]
  if l.any (s.noTaker y.pool) then (s, false)
  else match copies.findSome? (fun c => (s.badPart c l).map (fun w => (c, w))) with
    | some (c, w) => (s.uncorrectable 2 c w .codec, false)
    | none => (l.foldl (fun s p => s.writeMem y.pool p.1 p.2 .codec) s, true)

/-- One tile of a job. -/
def State.jobTile (s : State) (j : Job) (x y : Surf) (w : Transfer) (r : JobRun) (t : Nat) : State × JobRun :=
  let stop (s : State) (st : Status) : State × JobRun := (s, { r with stopped := some st, firstBad := some t })
  let firstBad := some (r.firstBad.getD t)
  let put (s : State) (l : List Piece) (r' : JobRun) : State × JobRun :=
    let (s, ok) := s.writeTile y l
    if ok then (s, r') else stop s .errUncorr
  let lost := s.mcFailed && !(x.pool && (j.op == .verify || y.pool))
  if r.stopped.isSome then (s, r)
  else if lost = true then stop s .errUncorr
  else match j.op with
  | .compress =>
    let (s, px, bad) := s.readPacked x t
    if bad ≠ 0 then stop s .errUncorr
    else
      let (b, raw) := encodeTile x.format x.width x.height t px
      if w.off + w.len < r.next + b.length ∨ y.size < r.next + b.length then stop s .errRange
      else
        put s [(y.off + r.next, b), (y.off + 4 * t, toLE 4 (r.next / 4))]
          { r with done := r.done + 1, raw := r.raw + b2n raw, next := r.next + b.length }
  | .decompress =>
    match s.readCoded x t with
    | (s, .uncorr) => stop s .errUncorr
    | (s, .failing) => put s (packedPieces y t []) { r with done := r.done + 1, failed := r.failed + 1, firstBad := firstBad }
    | (s, .good px) => put s (packedPieces y t px) { r with done := r.done + 1 }
  | .verify =>
    match s.readCoded x t with
    | (s, .uncorr) => stop s .errUncorr
    | (s, .failing) => (s, { r with done := r.done + 1, failed := r.failed + 1, firstBad := firstBad })
    | (s, .good _) => (s, { r with done := r.done + 1 })

/-- The job result (Table 7-10). -/
def jobStatus (j : Job) (r : JobRun) : Status :=
  match r.stopped with
  | some st => st
  | none => if r.failed ≠ 0 ∧ j.op ≠ .compress then .errCheck else if r.raw ≠ 0 then .errNoShrink else .ok

/-- Run a job that no check refuses; ATC_RESULT and the counters follow (R398 to R406). -/
def State.runJob (s : State) (b : Bytes) (seq : Nat) : State × Status :=
  match jobOf b with
  | none => (s, .errRange)
  | some j =>
    match s.surface j.src, s.surface (if j.op = .verify then j.src else j.dst) with
    | some (_, x), some (_, y) =>
      let w : Transfer := y.writer.getD ⟨0, 0, 0, 0⟩
      let r0 : JobRun := ⟨0, 0, 0, none, if j.op = .compress then j.dataOff else 0, none⟩
      let (s, r) := (List.range j.count).foldl (fun (s, r) i => s.jobTile j x y w r (j.first + i)) (s, r0)
      let st := jobStatus j r
      let crc := if j.op = .verify then 0 else crc32 (s.peekMem y.pool (y.off + w.off) w.len)
      let res := toLE 2 st.code ++ zeros 2 ++ toLE 4 seq ++ toLE 4 r.done ++ toLE 4 r.raw ++ toLE 4 r.failed ++
        toLE 4 (r.firstBad.getD 0xFFFFFFFF) ++ toLE 4 r.next ++ toLE 4 crc
      ({ s with codec := { s.codec with
          result := res
          jobs := inc 64 s.codec.jobs
          raw := inc 64 s.codec.raw r.raw
          failed := inc 32 s.codec.failed r.failed } }, st)
    | _, _ => (s, .errStaleHandle)

end Sys2Proof.Machine
end

