-- ==== Sys2Proof/Machine/Operands.lean ====
section
/-! DEFINITION. The operand forms the blocks read out of table parameters and payloads: layers, matrices, regions, timing
pins, windows (06 Tables 6-3, 6-8, 6-9; 13 Tables 13-3, 13-5; 15 Table 15-4; 16 Table 16-8). -/

namespace Sys2Proof.Machine

/-! ## Composition (06) -/

/-- CMP_LAYER (Table 6-8). -/
structure Layer where
  enable : Bool
  premul : Bool
  mode   : Nat
  fill   : Bool
  kind   : Nat
  eotf   : Nat
  csc    : Nat
  format : Nat
  sx : Nat
  sy : Nat
  sw : Nat
  sh : Nat
  dx : Int
  dy : Int
  dw : Nat
  dh : Nat
  gamut  : Nat
  filter : Nat
  alpha  : Nat
  color  : Nat
  deriving DecidableEq, Repr

def layerOf (b : Bytes) : Layer where
  enable := bit (u8 b 0) 0
  premul := bit (u8 b 0) 1
  mode := bits (u8 b 0) 3 2
  fill := bit (u8 b 0) 4
  kind := u8 b 1
  eotf := u8 b 2
  csc := u8 b 3
  format := le32 b 4
  sx := le16 b 8
  sy := le16 b 10
  sw := le16 b 12
  sh := le16 b 14
  dx := sle16 b 16
  dy := sle16 b 18
  dw := le16 b 20
  dh := le16 b 22
  gamut := u8 b 24
  filter := u8 b 25
  alpha := le16 b 26
  color := le32 b 28

/-- An input or gamut matrix (Table 6-3). -/
structure Mat where
  m     : List Int
  o     : List Int
  shift : Bool
  deriving DecidableEq, Repr

def matOf (b : Bytes) : Mat where
  m := (List.range 9).map (fun k => sle32 b (4 * k))
  o := (List.range 3).map (fun k => sle32 b (36 + 4 * k))
  shift := u8 b 48 == 1

/-- Input matrix presets 1 to 4 (Table 6-4); preset 1 for any other code. -/
def cscPreset (k : Nat) : Mat :=
  match k with
  | 2 => ⟨[19152, 0, 0, 0, 19152, 0, 0, 0, 19152], [-4788, -4788, -4788], true⟩
  | 3 => ⟨[19152, 0, 29487, 19152, -3508, -8765, 19152, 34745, 0], [-63762, 19758, -74278], true⟩
  | 4 => ⟨[19152, 0, 27611, 19152, -3081, -10698, 19152, 35228, 0], [-60010, 22770, -75244], true⟩
  | _ => ⟨[16384, 0, 0, 0, 16384, 0, 0, 0, 16384], [0, 0, 0], false⟩

/-- The identity matrix of GAMUT 1, and the matrix of GAMUT 2 (R334). -/
def gamutIdentity : Mat := cscPreset 1
def gamut709 : Mat := ⟨[10279, 5395, 710, 1132, 15065, 187, 269, 1442, 14673], [0, 0, 0], false⟩

/-- The taps of a phase (R331); tap t of a CMP_FILTER table. -/
def nearestTaps (ph : Nat) : List Int := if ph < 32 then [0, 4096, 0, 0] else [0, 0, 4096, 0]
def bilinearTaps (ph : Nat) : List Int := [0, 4096 - 64 * (ph : Int), 64 * ph, 0]
def customTaps (b : Bytes) (ph : Nat) : List Int := (List.range 4).map (fun t => sle16 b (8 * ph + 2 * t))

/-! ## Regions and timing pins (13) -/

/-- HDT_REGION (Table 13-5). -/
structure Region where
  mode   : Nat
  action : Nat
  learn  : Bool
  x : Nat
  y : Nat
  w : Nat
  h : Nat
  n : Nat
  ref : Nat
  deriving DecidableEq, Repr

def regionOf (b : Bytes) : Region :=
  ⟨u8 b 0, u8 b 1, bit (u8 b 2) 0, le16 b 4, le16 b 6, le16 b 8, le16 b 10, le16 b 12, le32 b 16⟩

/-- HDT_GPIO (Table 13-3): the head and event code of an enabled entry. -/
def gpioEvent (v : Nat) : Option (Nat × Nat) := if bit v 7 then some (bits v 5 4, bits v 1 0) else none

/-! ## The legal window (15) -/

/-- ISL_WINDOW (Table 15-4). -/
def windowBytes (w : Window) : Bytes :=
  [byteOf (b2n w.enable), byteOf w.zoom, 0#8, 0#8] ++ toLE 2 w.x ++ toLE 2 w.y ++ toLE 2 w.rw ++ toLE 2 w.rh

/-- A geometry in the ranges of Table 15-4. -/
def windowOk (w : Window) : Bool :=
  decide (1 ≤ w.zoom) && decide (w.zoom ≤ 8) && decide (16 ≤ w.rw) && decide (w.rw ≤ 256) && decide (8 ≤ w.rh) &&
    decide (w.rh ≤ 64) && decide (w.x < 65536) && decide (w.y < 65536)

/-- Does a canvas wholly contain a window (R723)? -/
def windowFits (w : Window) (cw ch : Nat) : Bool :=
  decide (w.x + w.rw * w.zoom ≤ cw) && decide (w.y + w.rh * w.zoom ≤ ch)

/-- Is a canvas pixel in the window's rectangle? -/
def inWindow (w : Window) (x y : Nat) : Bool :=
  decide (w.x ≤ x) && decide (x < w.x + w.rw * w.zoom) && decide (w.y ≤ y) && decide (y < w.y + w.rh * w.zoom)

/-! ## Seam strips (16 Table 16-8) -/

/-- CAS_SEAM_TX. -/
structure SeamTx where
  enable : Bool
  head   : Nat
  dest   : Nat
  entry  : Nat
  x : Nat
  y : Nat
  w : Nat
  h : Nat
  deriving DecidableEq, Repr

def seamTxOf (b : Bytes) : SeamTx :=
  ⟨bit (u8 b 0) 0, u8 b 1, u8 b 2, u8 b 3, le16 b 4, le16 b 6, le16 b 8, le16 b 10⟩

end Sys2Proof.Machine
end

