-- ==== Sys2Proof/Machine/Real.lean ====
section
/-! DEFINITION. Fixed-point real functions: a number stands for itself over 2^160. Used where the spec defines a table or a
law by real powers, logarithms or trigonometry and rounds the result. -/

namespace Sys2Proof.Machine

/-- Fraction bits. -/
def fxBits : Nat := 160
def fxOne : Nat := 2 ^ 160

/-- n / d. -/
def fxRat (n : Int) (d : Nat) : Int := n * (fxOne : Int) / (d : Int)
def fxMul (a b : Int) : Int := a * b / (fxOne : Int)
def fxDiv (a b : Int) : Int := a * (fxOne : Int) / b

/-- Terms of 2 atanh z = 2 (z + z^3/3 + ...), z2 = z^2. -/
def atanhTerms : Nat → Nat → Int → Int → Int
  | 0, _, _, _ => 0
  | n + 1, k, p, z2 => p / (k : Int) + atanhTerms n (k + 2) (fxMul p z2) z2

/-- 2 atanh z for |z| at or below 1/3. -/
def fxAtanh2 (z : Int) : Int := 2 * atanhTerms 60 1 z (fxMul z z)

/-- ln 2. -/
def fxLn2 : Int := fxAtanh2 (fxRat 1 3)

/-- ln x for x > 0. -/
def fxLn (x : Nat) : Int :=
  let e := x.log2
  let m : Int := if 160 ≤ e then (x / 2 ^ (e - 160) : Nat) else (x * 2 ^ (160 - e) : Nat)
  ((e : Int) - 160) * fxLn2 + fxAtanh2 (fxDiv (m - fxOne) (m + fxOne))

/-- Terms of the exponential series. -/
def expTerms : Nat → Nat → Int → Int → Int
  | 0, _, _, _ => 0
  | n + 1, k, p, r => p + expTerms n (k + 1) (fxMul p r / (k : Int)) r

/-- e^y, at least 0. -/
def fxExp (y : Int) : Nat :=
  let k := y / fxLn2
  let m := (expTerms 60 1 fxOne (y - k * fxLn2)).toNat
  if k < 0 then m / 2 ^ (-k).toNat else m * 2 ^ k.toNat

/-- x^(p/q) for x ≥ 0. -/
def fxPow (x : Nat) (p : Int) (q : Nat) : Nat := if x = 0 then 0 else fxExp (fxLn x * p / (q : Int))

/-- Round half up to a natural number. -/
def fxRound (x : Nat) : Nat := (x + 2 ^ 159) / 2 ^ 160

/-- Round half up to an integer. -/
def fxRoundI (x : Int) : Int := (x + (2 ^ 159 : Nat)) / (2 ^ 160 : Nat)

/-- The largest m below 2^bits with m^5 ≤ n, by the bits of the answer. -/
def root5 : Nat → Nat → Nat → Nat
  | 0, _, r => r
  | k + 1, n, r => let c := r + 2 ^ k; root5 k n (if c ^ 5 ≤ n then c else r)

/-- round(c * (n/d)^(12/5)), half up, c a power of two given by its exponent; exact. -/
def pow24 (cBits n d : Nat) : Nat := (root5 (cBits + 4) (2 ^ (5 * (cBits + 1)) * n ^ 12 / d ^ 12) 0 + 1) / 2

/-- Terms of pi / 4 = 4 atan 1/5 - atan 1/239: the series of atan 1/k. -/
def atanTerms : Nat → Nat → Int → Int → Int
  | 0, _, _, _ => 0
  | n + 1, j, p, k2 => p / (j : Int) - atanTerms n (j + 2) (p / k2) k2
def fxPi : Int := 4 * (4 * atanTerms 60 1 (fxRat 1 5) 25 - atanTerms 30 1 (fxRat 1 239) (239 * 239))

/-- Terms of the sine and cosine series: p - p r2/((k)(k+1)) + ... -/
def sinTerms : Nat → Nat → Int → Int → Int
  | 0, _, _, _ => 0
  | n + 1, k, p, r2 => p - sinTerms n (k + 2) (fxMul p r2 / ((k * (k + 1) : Nat) : Int)) r2

/-- sin and cos of 2 pi x. -/
def fxSin2Pi (x : Int) : Int :=
  let f := x % (fxOne : Int)
  let f := if (fxOne : Int) ≤ 2 * f then f - fxOne else f
  let a := fxMul (2 * fxPi) f
  sinTerms 40 2 a (fxMul a a)
def fxCos2Pi (x : Int) : Int := fxSin2Pi (x + (fxOne : Int) / 4)

/-- Square root of x ≥ 0. -/
def fxSqrt (x : Int) : Int := (isqrt 164 (x.toNat * fxOne) : Nat)

/-- atan x for |x| at or below 1: three halvings, then the series. -/
def fxAtan1 (x : Int) : Int :=
  let half (x : Int) : Int := fxDiv x (fxOne + fxSqrt (fxOne + fxMul x x))
  let z := half (half (half x))
  let z2 := fxMul z z
  8 * ((List.range 30).foldl (fun (acc : Int × Int) k =>
    let term := acc.2 / ((2 * k + 1 : Nat) : Int)
    (if k % 2 = 0 then acc.1 + term else acc.1 - term, fxMul acc.2 z2)) (0, z)).1

/-- The angle of (x, y) in turns, -1/2 to 1/2; 0 at the origin. -/
def fxTurns (x y : Int) : Int :=
  let a := x.natAbs
  let b := y.natAbs
  if a = 0 ∧ b = 0 then 0
  else
    let t := if b ≤ a then fxAtan1 (fxDiv b a) else fxPi / 2 - fxAtan1 (fxDiv a b)
    let t := fxDiv t (2 * fxPi)
    let t := if x < 0 then (fxOne : Int) / 2 - t else t
    if y < 0 then -t else t

/-- arcsin r for |r| below 1, in turns. -/
def fxArcsinTurns (r : Int) : Int := fxTurns (fxSqrt (fxOne - fxMul r r)) r

end Sys2Proof.Machine
end

