-- ==== Sys2Proof/Machine/Compose.lean ====
section
/-! DEFINITION. Composition of one head frame: fetch, expansion, chroma, matrices, transfer functions, scaling, alpha and
blend, the legal window, writeback (06 R311 to R345, R365, R372, R972). -/

namespace Sys2Proof.Machine

/-- The largest working-space value (R311). -/
def wsMax : Nat := 4194303

/-- Clamp to the working space (R312). -/
def wsClamp (v : Int) : Nat := (clampI 0 wsMax v).toNat

/-! ## Expansion (R318, R319) -/

/-- Replication of a d-bit code to 16 bits. -/
def replicate16 (d c : Nat) : Nat :=
  let k := ceilDiv 16 d
  (List.range k).foldl (fun a _ => a * 2 ^ d + c) 0 / 2 ^ (d * k - 16)

/-- Expansion by the matrix's rule. -/
def expand (shift : Bool) (d c : Nat) : Nat := if shift then c * 2 ^ (16 - d) else replicate16 d c

/-- Alpha codes of 8 and 2 bits. -/
def alpha8 (a : Nat) : Nat := a * 16 + a / 16
def alpha2 (a : Nat) : Nat := a * 0x555

/-! ## Matrices and transfer functions (R322, R325, R326, R333) -/

/-- A matrix on three values, each output clamped to 0 to `hi`. -/
def applyMat (x : Mat) (hi : Nat) (e0 e1 e2 : Nat) : Px :=
  let out (i : Nat) : Nat := (clampI 0 hi
    ((x.m.getD (3 * i) 0 * e0 + x.m.getD (3 * i + 1) 0 * e1 + x.m.getD (3 * i + 2) 0 * e2 + 8192) / 16384 + x.o.getD i 0)).toNat
  ⟨out 0, out 1, out 2⟩

/-- The normalised inverse of SMPTE ST 2084 at i / 1024, over 2^160. -/
def pqValue (i : Nat) : Nat :=
  let e := fxPow (i * 2 ^ 150) 32 2523
  let num := e - 107 * fxOne / 128
  let den := 2413 * fxOne / 128 - 2392 * e / 128
  if den = 0 then fxOne else fxPow (num * fxOne / den) 8192 1305

/-- Entry i of the table of an EOTF code (R326, Table 6-5). -/
def eotfEntry (code white i : Nat) : Nat :=
  min wsMax (match code with
    | 0 => if i * 100000 ≤ 4045 * 1024 then divHalfUp (i * 1048576 * 100) (1024 * 1292)
           else pow24 20 (1000 * i + 55 * 1024) (1055 * 1024)
    | 1 => pow24 20 i 1024
    | 2 => fxRound (pqValue i * 10000 * 1048576 / white)
    | _ => 1024 * i)

/-- The table of an EOTF. -/
def eotfTable (code white : Nat) : Array Nat := (Array.range 1025).map (eotfEntry code white)

/-- A table's value for a 16-bit code (R325). -/
def eotfAt (t : Array Nat) (e : Nat) : Nat :=
  let a : Int := t.getD (e / 64) 0
  let b : Int := t.getD (e / 64 + 1) 0
  (a + ((b - a) * ((e % 64 : Nat) : Int) + 32) / 64).toNat

def eotfPx (t : Array Nat) (p : Px) : Px := ⟨eotfAt t p.r, eotfAt t p.g, eotfAt t p.b⟩

/-! ## Reading a surface's codes -/

/-- The runs of bytes, first and one past the last, that hold some rising columns of a row at address a: a gap ends a run when
it leaves the burst, so that every burst stands in one run. -/
def burstRuns (a bytes : Nat) (cols : List Nat) : List (Nat × Nat) :=
  (cols.foldl (fun l c =>
    let lo := a + c * bytes
    match l with
    | (x, e) :: r => if lo ≤ e ∨ lo / 64 = (e - 1) / 64 then (x, lo + bytes) :: r else (lo, lo + bytes) :: l
    | [] => [(lo, lo + bytes)]) []).reverse

/-- Read the samples of a plane's row in rising columns: the row from column 0 on, 0 in a column that is not read, and the
flagged bursts. -/
def State.readRow (s : State) (x : Surf) (p : Plane) (who : Requester) (y : Nat) (cols : List Nat) : State × List Nat × Nat :=
  let a := x.off + p.off + y * p.pitch
  let (s, d, f) := (burstRuns a p.bytes cols).foldl (fun (s, d, f) (lo, hi) =>
    let (s, b, g) := s.readMem x.pool lo (hi - lo) who
    (s, d ++ zeros (lo - a - d.length) ++ b, f + g)) (s, ([] : Bytes), 0)
  (s, (List.range (d.length / p.bytes)).map (fun j => natLE (slice d (j * p.bytes) p.bytes)), f)

/-- Read samples of a plane: rows from row 0 on, empty where a row is not read. -/
def State.readRows (s : State) (x : Surf) (p : Plane) (who : Requester) (rows cols : List Nat) :
    State × Array (Array Nat) × Nat :=
  rows.foldl (fun (s, l, f) y =>
    let (s, row, g) := s.readRow x p who y cols
    (s, l ++ Array.replicate (y - l.size) #[] ++ #[row.toArray], f + g)) (s, #[], 0)

/-- Read one ATC tile for the compositor: its pixels, none when it fails (R372), and the flagged bursts. -/
def State.fetchTile (s : State) (x : Surf) (who : Requester) (t : Nat) : State × Option (List Nat) × Nat :=
  let (s, e, f0) := s.readMem x.pool (x.off + 4 * t) 4 who
  let off := le32 e 0 % 67108864 * 4
  if off = 0 ∨ x.size < off + 8 then (s, none, f0)
  else
    let (s, h, f1) := s.readMem x.pool (x.off + off) 8 who
    let len := le16 h 0
    if x.size < off + len ∨ tileLenOk x.format (u8 h 2) len = false then (s, none, f0 + f1)
    else
      let (s, b, f2) := s.readMem x.pool (x.off + off) len who
      (s, decodeTile x.format x.width x.height t b, f0 + f1 + f2)

/-- The ATC tiles that cover a rectangle: tile number and pixels. -/
def State.fetchTiles (s : State) (x : Surf) (who : Requester) (tiles : List Nat) :
    State × List (Nat × Option (List Nat)) × Nat :=
  tiles.foldl (fun (s, l, f) t =>
    let (s, px, g) := s.fetchTile x who t
    (s, l ++ [(t, px)], f + g)) (s, [], 0)

/-! ## Stages 1 to 5: one source sample -/

/-- What the stages need of a layer. -/
structure LayerUse where
  lay     : Layer
  mat     : Mat
  eotf    : Array Nat
  palette : Bytes

def State.layerUse (s : State) (l : Nat) : LayerUse :=
  let lay := layerOf (s.pT P.CMP_LAYER l)
  ⟨lay, if lay.csc = 0 then matOf (s.pT P.CMP_CSC l) else cscPreset lay.csc,
    eotfTable lay.eotf (s.pN P.CMP_PQ_WHITE l), s.pT P.CMP_PALETTE l⟩

/-- The FILL colour before the gamut matrix (R972). -/
def LayerUse.fill (u : LayerUse) : Px :=
  eotfPx u.eotf ⟨replicate16 8 (bits u.lay.color 23 16), replicate16 8 (bits u.lay.color 15 8), replicate16 8 (bits u.lay.color 7 0)⟩

/-- Expanded codes through the input matrix and the EOTF. -/
def LayerUse.decode (u : LayerUse) (e0 e1 e2 : Nat) : Px := eotfPx u.eotf (applyMat u.mat 65535 e0 e1 e2)

/-- A 32-bit A8R8G8B8 word; the alpha is opaque for X8R8G8B8. -/
def LayerUse.argb8 (u : LayerUse) (opaque_ : Bool) (w : Nat) : Smp :=
  let e (v : Nat) := expand u.mat.shift 8 v
  ⟨u.decode (e (bits w 23 16)) (e (bits w 15 8)) (e (bits w 7 0)), if opaque_ then 4096 else alpha8 (bits w 31 24), false⟩

/-- A pixel word of a format code (Table 6-2). -/
def LayerUse.word (u : LayerUse) (f w : Nat) : Smp :=
  let e (d v : Nat) := expand u.mat.shift d v
  match f with
  | 0x10 => u.argb8 false w
  | 0x11 => u.argb8 true w
  | 0x12 => ⟨u.decode (e 10 (bits w 29 20)) (e 10 (bits w 19 10)) (e 10 (bits w 9 0)), alpha2 (bits w 31 30), false⟩
  | 0x13 => ⟨u.decode (e 5 (bits w 15 11)) (e 6 (bits w 10 5)) (e 5 (bits w 4 0)), 4096, false⟩
  | 0x14 => ⟨u.fill, alpha8 (bits w 7 0), false⟩
  | 0x15 => u.argb8 false (le32 u.palette (4 * bits w 7 0))
  | _ => ⟨⟨bits w 15 0 * 64, bits w 31 16 * 64, bits w 47 32 * 64⟩, min ((bits w 63 48 + 8) / 16) 4096, false⟩

/-! ## Scaling geometry (R327, R328, R331) -/

/-- The taps of a filter code at a phase (R331). -/
def tapsOf (filter : Nat) (custom : Bytes) (ph : Nat) : List Int :=
  match filter with
  | 0 => nearestTaps ph
  | 1 => bilinearTaps ph
  | _ => customTaps custom ph

/-- One axis of a layer: box size, box-stage size, step. -/
structure Axis where
  box  : Nat
  size : Nat
  step : Nat
  deriving DecidableEq, Repr

def axisOf (src dst : Nat) : Axis :=
  let b := if src ≤ 2 * dst then 1 else if src ≤ 4 * dst then 2 else 4
  ⟨b, src / b, src / b * 65536 / dst⟩

/-- The position of a destination sample. -/
def Axis.pos (a : Axis) (x : Nat) : Int := (x * a.step + a.step / 2 : Nat) - (32768 : Int)
/-- A box-stage index clamped to the box stage. -/
def Axis.clamp (a : Axis) (i : Int) : Nat := (clampI 0 ((a.size : Int) - 1) i).toNat
/-- Integer part and phase of a destination sample. -/
def Axis.at (a : Axis) (x : Nat) : Int × Nat := let p := a.pos x
  (p / 65536, (p / 1024 % 64).toNat)

/-- The destination samples on the canvas: first and count. -/
def visible (off : Int) (dst canvas : Nat) : Nat × Nat :=
  let lo := (max 0 (-off)).toNat
  let hi := (min (dst : Int) ((canvas : Int) - off)).toNat
  (lo, hi - lo)

/-- The box-stage indices that a destination sample reads: those whose tap is not 0 (R339). -/
def Axis.reads (a : Axis) (taps : Nat → List Int) (x : Nat) : List Nat :=
  let (i, ph) := a.at x
  ((taps ph).zip [i - 1, i, i + 1, i + 2]).filterMap (fun (c, k) => if c = 0 then none else some (a.clamp k))

/-- The box-stage indices that visible samples read, rising. -/
def Axis.used (a : Axis) (taps : Nat → List Int) (v : Nat × Nat) : List Nat :=
  (List.range v.2).foldl (fun l k => (a.reads taps (v.1 + k)).foldl (fun l i => if l.contains i then l else insertNat i l) l) []

/-- The source samples of box-stage indices, from the crop's first sample on. -/
def Axis.sources (a : Axis) (crop : Nat) (ix : List Nat) : List Nat :=
  ix.flatMap (fun i => (List.range a.box).map (· + crop + i * a.box))

/-! ## Chroma (R320, R321) -/

/-- A code of a plane of h rows and w columns, indices clamped to the plane. -/
def planeAt (r : Array (Array Nat)) (h w : Nat) (y x : Int) : Nat :=
  (r.getD (clampI 0 ((h : Int) - 1) y).toNat #[]).getD (clampI 0 ((w : Int) - 1) x).toNat 0

/-- Chroma upsampled to pixel (x, y). -/
def chromaAt (sampling : Nat) (c : Int → Int → Nat) (x y : Nat) : Nat :=
  let hor (row : Int) : Nat :=
    let i : Int := (x / 2 : Nat)
    if x % 2 = 0 then c row i else (c row i + c row (i + 1) + 1) / 2
  if 2 ≤ sampling then c y x
  else if sampling = 1 then hor y
  else
    let j : Int := (y / 2 : Nat)
    (3 * hor j + hor (if y % 2 = 0 then j - 1 else j + 1) + 2) / 4

/-- The chroma columns that pixels of some columns use, and the chroma rows that lines use, of a plane of n. -/
def chromaCols (n : Nat) (xs : List Nat) : List Nat :=
  (List.range n).filter (fun c => xs.contains (2 * c) || xs.contains (2 * c + 1) || xs.contains (2 * c - 1))
def chromaRows (n : Nat) (ys : List Nat) : List Nat :=
  (List.range n).filter (fun c => [2 * c - 1, 2 * c, 2 * c + 1, 2 * c + 2].any (fun y => ys.contains y))

/-! ## The box stage of one layer -/

/-- The source samples that a head frame reads: rows and columns of the surface, rising (R339). -/
structure Reads where
  ys : List Nat
  xs : List Nat
  deriving DecidableEq, Repr

/-- The decoded samples in some rows and columns, by surface kind, and the flagged bursts and failing tiles met. A failing
tile leaves the constant colour of an A8 layer as it is (R372, R972). -/
def State.fetchReads (s : State) (u : LayerUse) (x : Surf) (who : Requester) (r : Reads) : State × List (List Smp) × Nat × Nat :=
  match x.kind with
  | .packed =>
    match x.planes with
    | p :: _ =>
      let (s, rows, f) := s.readRows x p who r.ys r.xs
      (s, r.ys.map (fun y => r.xs.map (fun c => u.word x.format ((rows.getD y #[]).getD c 0))), f, 0)
    | [] => (s, [], 0, 0)
  | .planar =>
    match x.planes with
    | py :: pu :: pv :: _ =>
      let d := fmtDepth x.format
      let smp := fmtSampling x.format
      let code (w : Nat) : Nat := expand u.mat.shift d (if d = 8 then w else w / 2 ^ (16 - d))
      let cxs := if smp ≤ 1 then chromaCols pu.width r.xs else r.xs
      let cys := if smp = 0 then chromaRows pu.height r.ys else r.ys
      let (s, ys, f0) := s.readRows x py who r.ys r.xs
      let (s, us, f1) := s.readRows x pu who cys cxs
      let (s, vs, f2) := s.readRows x pv who cys cxs
      let chroma (a : Array (Array Nat)) (c y : Nat) : Nat :=
        chromaAt smp (fun y x => code (planeAt a pu.height pu.width y x)) c y
      let rows := r.ys.map (fun y => r.xs.map (fun c =>
        (⟨u.decode (code ((ys.getD y #[]).getD c 0)) (chroma us c y) (chroma vs c y), 4096, false⟩ : Smp)))
      (s, rows, f0 + f1 + f2, 0)
    | _ => (s, [], 0, 0)
  | .atc =>
    let tc := tileCols x.width
    let tiles := (List.range (tileRows x.height)).filter (fun ty => r.ys.any (fun y => y / 8 == ty))
      |>.flatMap (fun ty => ((List.range tc).filter (fun tx => r.xs.any (fun c => c / 32 == tx))).map (fun tx => ty * tc + tx))
    let (s, ts, f) := s.fetchTiles x who tiles
    let ts := ts.map (fun (t, px) => (t, px.map List.toArray))
    let rows := r.ys.map (fun y => r.xs.map (fun c =>
      match assocGet (y / 8 * tc + c / 32) ts with
      | some (some px) => u.word x.format (px.getD (y % 8 * 32 + c % 32) 0)
      | _ => ⟨if x.format = 0x14 then u.fill else ⟨0, 0, 0⟩, 0, true⟩))
    (s, rows, f, (ts.filter (fun (_, px) => px.isNone)).length)
  | .bytes => (s, [], 0, 0)

/-- Average a group of n = 2^k samples (R327). -/
def boxMean (l : List Smp) : Smp :=
  let n := l.length
  let avg (f : Smp → Nat) : Nat := (l.foldl (fun a x => a + f x) 0 + n / 2) / max n 1
  ⟨⟨avg (·.px.r), avg (·.px.g), avg (·.px.b)⟩, avg (·.a), l.any (·.bad)⟩

/-- The box stage over rows of samples. -/
def boxRows (by_ bx : Nat) (rows : List (List Smp)) : List (List Smp) :=
  if by_ = 1 ∧ bx = 1 then rows
  else (chunks by_ rows.length rows).map (fun g =>
    let cols := g.map (fun row => chunks bx row.length row)
    (List.range ((cols.headD []).length)).map (fun c => boxMean (cols.flatMap (fun row => row.getD c []))))

/-- Fetch what a layer of head h contributes to a canvas; none when it is not enabled, has no source, or no sample of it
is on the canvas. DEDUCED: assumption 40. -/
def State.fetchLayer (s : State) (h : HeadIx) (j cw ch : Nat) : State × Option LayerImg :=
  let l := 16 * h.1 + j
  let lay := layerOf (s.pT P.CMP_LAYER l)
  let vx := visible lay.dx lay.dw cw
  let vy := visible lay.dy lay.dh ch
  match s.surface ((s.comp[h]).latched[Fin.ofNat 16 j]) with
  | none => (s, none)
  | some (_, x) =>
    if lay.enable = false ∨ vx.2 = 0 ∨ vy.2 = 0 then (s, none)
    else
      let ax := axisOf lay.sw lay.dw
      let ay := axisOf lay.sh lay.dh
      let taps := tapsOf lay.filter (s.pT P.CMP_FILTER h.1)
      let xs := ax.used taps vx
      let ys := ay.used taps vy
      let (s, rows, f, bad) := s.fetchReads (s.layerUse l) x (.compositor h) ⟨ay.sources lay.sy ys, ax.sources lay.sx xs⟩
      ({ s with comp := vmod s.comp h (fun c => { c with uncorr := inc 32 c.uncorr f, atcErr := inc 32 c.atcErr bad }) },
        some ⟨ys, xs, boxRows ay.box ax.box rows⟩)

/-! ## Scaling and blending of one canvas row -/

/-- The sample that stands for one that is not read. -/
def Smp.unread : Smp := ⟨⟨0, 0, 0⟩, 0, false⟩

/-- Four samples through the taps of a phase (R329, R330); the flag is that of the sample nearest to the position. DEDUCED:
assumption 40. -/
def filterSmp (ph : Nat) (c : List Int) (v : List Smp) : Smp :=
  let sum (hi : Nat) (f : Smp → Nat) : Nat :=
    (clampI 0 hi (((c.zip v).foldl (fun a (k, x) => a + k * (f x : Int)) 0 + 2048) / 4096)).toNat
  ⟨⟨sum wsMax (·.px.r), sum wsMax (·.px.g), sum wsMax (·.px.b)⟩, sum 4096 (·.a), (v.getD (if ph < 32 then 1 else 2) Smp.unread).bad⟩

/-- A list's items at their rising indices: the item of an index, nothing read being a blank one. -/
def spread (ix : List Nat) (l : List α) (blank : α) : Array α :=
  (ix.zip l).foldl (fun a (i, v) => a ++ Array.replicate (i - a.size) blank ++ #[v]) #[]

/-- The four box-stage indices of a position. -/
def tapIxs (a : Axis) (i : Int) : List Nat := [i - 1, i, i + 1, i + 2].map a.clamp

/-- One source row scaled horizontally over the visible columns. -/
def scaleRow (a : Axis) (taps : Nat → List Int) (vx : Nat × Nat) (row : Array Smp) : List Smp :=
  (List.range vx.2).map (fun k =>
    let (i, ph) := a.at (vx.1 + k)
    filterSmp ph (taps ph) ((tapIxs a i).map (fun q => row.getD q Smp.unread)))

/-- One destination row of a layer: the visible columns, scaled horizontally, then vertically. -/
def layerRow (lay : Layer) (img : LayerImg) (custom : Bytes) (vx : Nat × Nat) (y : Nat) : List Smp :=
  let ax := axisOf lay.sw lay.dw
  let ay := axisOf lay.sh lay.dh
  let (i, ph) := ay.at y
  let all := spread img.ys img.rows []
  let rows := (tapIxs ay i).map (fun q =>
    (scaleRow ax (tapsOf lay.filter custom) vx (spread img.xs (all.getD q []) Smp.unread)).toArray)
  (List.range vx.2).map (fun k => filterSmp ph (tapsOf lay.filter custom ph) (rows.map (fun r => r.getD k Smp.unread)))

/-- The layer alpha (R335), 0 on a failing tile (R372). -/
def layerAlpha (lay : Layer) (x : Smp) : Nat :=
  if x.bad then 0
  else match lay.mode with
    | 0 => x.a
    | 1 => lay.alpha
    | 2 => (x.a * lay.alpha + 2048) / 4096
    | _ => 4096

/-- Blend a source value onto the canvas (R337, R338). -/
def blend1 (premul : Bool) (src dst a : Nat) : Nat :=
  if premul then wsClamp ((src : Int) + (((dst * (4096 - a) + 2048) / 4096 : Nat) : Int))
  else wsClamp (((src * a + dst * (4096 - a) + 2048) / 4096 : Nat) : Int)

def blendPx (premul : Bool) (src dst : Px) (a : Nat) : Px :=
  ⟨blend1 premul src.r dst.r a, blend1 premul src.g dst.g a, blend1 premul src.b dst.b a⟩

/-- Blend values onto a row from a column on. -/
def blendRow (row : List Px) (c : Nat) (f : List (Px → Px)) : List Px :=
  row.take c ++ List.zipWith (fun p g => g p) ((row.drop c).take f.length) f ++ row.drop (c + f.length)

/-- The gamut matrix of a layer (R334). -/
def State.gamutOf (s : State) (l : Nat) (lay : Layer) : Mat :=
  match lay.gamut with
  | 0 => matOf (s.pT P.CMP_GAMUT l)
  | 1 => gamutIdentity
  | _ => gamut709

/-- Layer j of head h over one canvas row (R336 to R339, R363). -/
def State.layerOver (s : State) (h : HeadIx) (j : Nat) (img : Option LayerImg) (cw ch y : Nat) (row : List Px) : List Px :=
  let l := 16 * h.1 + j
  let lay := layerOf (s.pT P.CMP_LAYER l)
  let vx := visible lay.dx lay.dw cw
  let vy := visible lay.dy lay.dh ch
  let dy := (y : Int) - lay.dy
  let col := (lay.dx + vx.1).toNat
  if lay.enable = false ∨ vx.2 = 0 ∨ vy.2 = 0 ∨ dy < 0 ∨ (lay.dh : Int) ≤ dy then row
  else
    let g := s.gamutOf l lay
    match img with
    | some im =>
      blendRow row col ((layerRow lay im (s.pT P.CMP_FILTER h.1) vx dy.toNat).map (fun x => fun dst =>
        blendPx lay.premul (applyMat g wsMax x.px.r x.px.g x.px.b) dst (layerAlpha lay x)))
    | none =>
      if lay.fill then
        let f := (s.layerUse l).fill
        let px := applyMat g wsMax f.r f.g f.b
        blendRow row col (List.replicate vx.2 (fun dst => blendPx lay.premul px dst 4096))
      else row

/-! ## The legal window (R340 to R343; 15 R722 to R724) -/

/-- The head whose canvas a head shows (R368), and the canvas size (R639). DEDUCED: assumption 41. -/
def State.canvasHead (s : State) (h : HeadIx) : HeadIx :=
  let c := s.pN P.CMP_CLONE h.1
  if c < 4 then Fin.ofNat 4 c else h
def State.canvasW (s : State) (h : HeadIx) : Nat := s.pN P.CMP_CANVAS_W (s.canvasHead h).1
def State.canvasH (s : State) (h : HeadIx) : Nat := s.pN P.CMP_CANVAS_H (s.canvasHead h).1

/-- Is the window of a head enabled but not contained in its canvas (15 R723)? -/
def State.windowBad (s : State) (h : HeadIx) : Bool :=
  let w := s.lw.win[h]
  w.enable && !windowFits w (s.canvasW h) (s.canvasH h)

/-- The window that a head places. -/
def State.windowOf (s : State) (h : HeadIx) : Option Window :=
  let w := s.lw.win[h]
  if w.enable && windowFits w (s.canvasW h) (s.canvasH h) then some w else none

/-- The sRGB table of the window. -/
def srgbTable : Array Nat := eotfTable 0 203

/-- A window pixel: R8G8B8 under preset 1, the sRGB EOTF and GAMUT 2. -/
def windowPx (r g b : Nat) : Px :=
  let p := applyMat (cscPreset 1) 65535 (replicate16 8 r) (replicate16 8 g) (replicate16 8 b)
  let w := eotfPx srgbTable p
  applyMat gamut709 wsMax w.r w.g w.b

/-- Pixel (x, y) of a window image; all bytes 0 where there is none. -/
def bufPx (b : Option IslBuf) (x y : Nat) : Px :=
  match b with
  | none => windowPx 0 0 0
  | some b => if x < b.rw then let o := 3 * (y * b.rw + x)
                               windowPx (u8 b.image o) (u8 b.image (o + 1)) (u8 b.image (o + 2))
              else windowPx 0 0 0

/-- The row of a placed window: its zoomed pixels. -/
def windowRow (w : Window) (b : Option IslBuf) (y : Nat) : List Px :=
  (List.range w.rw).flatMap (fun x => List.replicate w.zoom (bufPx b x (y / w.zoom)))

/-- Place the window on row y. -/
def State.placeWindow (s : State) (h : HeadIx) (y : Nat) (row : List Px) : List Px :=
  match s.windowOf h with
  | none => row
  | some w =>
    if w.y ≤ y ∧ y < w.y + w.rh * w.zoom then
      let px := windowRow w s.lw.latched (y - w.y)
      row.take w.x ++ px ++ row.drop (w.x + px.length)
    else row

/-- A pixel as three little-endian 32-bit words (R343). -/
def pxBytes (p : Px) : Bytes := toLE 4 p.r ++ toLE 4 p.g ++ toLE 4 p.b

/-- The CRC-32 of a rectangle of a canvas, in raster order (R343, 13 R655). -/
def rectCrc (canvas : List (List Px)) (x y w h : Nat) : Nat :=
  crc32 (((canvas.drop y).take h).flatMap (fun row => ((row.drop x).take w).flatMap pxBytes))

/-- The CRC the island expects of a buffer at a zoom (15 R725). -/
def expectedCrc (b : Option IslBuf) (rw rh zoom : Nat) : Nat :=
  let w : Window := ⟨true, zoom, 0, 0, rw, rh⟩
  crc32 ((List.range (rh * zoom)).flatMap (fun y => (windowRow w b y).flatMap pxBytes))

/-! ## A head frame's rows -/

/-- CMP_BG. -/
def State.background (s : State) (h : HeadIx) : Px :=
  let b := s.pT P.CMP_BG h.1
  ⟨le32 b 0, le32 b 4, le32 b 8⟩

/-- One row of the head's own canvas, window included. -/
def State.composeRow (s : State) (h : HeadIx) (imgs : List (Option LayerImg)) (cw ch y : Nat) : List Px :=
  let row := (List.range 16).foldl (fun row j => s.layerOver h j (imgs.getD j none) cw ch y row) (List.replicate cw (s.background h))
  s.placeWindow h y row

/-- Read what the layers of a head contribute to its head frame. DEDUCED: assumption 40. -/
def State.fetchLayers (s : State) (h : HeadIx) : State × List (Option LayerImg) :=
  let cw := s.canvasW h
  let ch := s.canvasH h
  (List.range 16).foldl (fun (s, l) j =>
    let (s, i) := s.fetchLayer h j cw ch
    (s, l ++ [i])) (s, [])

/-- Change one composition pipeline. -/
def State.modComp (s : State) (h : HeadIx) (f : Comp → Comp) : State := { s with comp := vmod s.comp h f }

/-- Compose the next `n` rows of a head frame: as many as the canvas, or the source's canvas of a clone, has (R368).
DEDUCED: assumption 40. -/
def State.composeRows (s : State) (h : HeadIx) (n : Nat) : State × List (List Px) :=
  let ch := s.canvasH h
  let cw := s.canvasW h
  let y0 := (s.comp[h]).canvas.length
  if s.canvasHead h = h then
    let (s, imgs) := match (s.comp[h]).images with
      | some i => (s, i)
      | none => s.fetchLayers h
    let s := s.modComp h (fun c => { c with images := some imgs })
    let rows := (List.range (min n (ch - y0))).map (fun k => s.composeRow h imgs cw ch (y0 + k))
    (s.modComp h (fun c => { c with canvas := c.canvas ++ rows }), rows)
  else
    let src := (s.comp[s.canvasHead h]).canvas
    let rows := ((List.range (min n (src.length - y0))).map (fun k => s.placeWindow h (y0 + k) (src.getD (y0 + k) [])))
    (s.modComp h (fun c => { c with canvas := c.canvas ++ rows }), rows)

/-- A row in the writeback format: 8 bytes a pixel, A = 0xFFFF (R365). -/
def wbWord (p : Px) : Bytes :=
  let c (v : Nat) := toLE 2 (min ((v + 32) / 64) 65535)
  c p.r ++ c p.g ++ c p.b ++ [0xFF#8, 0xFF#8]
def wbRow (row : List Px) : Bytes := row.flatMap wbWord

/-- Write rows from row y on into a head's writeback target. DEDUCED: assumption 42. -/
def State.writeback (s : State) (h : HeadIx) (y : Nat) (rows : List (List Px)) : State :=
  match s.surface (s.comp[h]).wbNow with
  | none => s
  | some (ix, x) =>
    match x.planes with
    | [] => s
    | p :: _ =>
      let s := ((List.range rows.length).zip rows).foldl (fun s (k, row) =>
        s.writeMem x.pool (x.off + (y + k) * p.pitch) (wbRow row) (.compositor h)) s
      let s := s.modComp h (fun c => { c with wbRows := c.wbRows + rows.length })
      if (s.comp[h]).wbRows = s.canvasH h then s.modSurf ix (fun x => { x with wbFull := true }) else s

end Sys2Proof.Machine
end

