-- ==== Sys2Proof/Machine/Plans.lean ====
section
/-! DEFINITION. Frame plans: the FRAME_PLAN checks, and the latch and retire decisions of an edge (06 R350 to R367; 05 R286 to
R297). -/

namespace Sys2Proof.Machine

/-- A session or seam reference (R350, 16 R776). -/
def sessionRef (r : Nat) : Option Nat := if 0x00FFFF00 ≤ r ∧ r ≤ 0x00FFFF07 then some (r - 0x00FFFF00) else none
/-- DEDUCED: assumption 43. -/
def seamRef (r : Nat) : Option Nat := if 0x00FFFE00 ≤ r ∧ r ≤ 0x00FFFE07 then some (r - 0x00FFFE00) else none

/-- The code of CMP_LAYER KIND. -/
def surfKindCode : SurfKind → Nat
  | .planar => 0
  | .packed => 1
  | .atc => 2
  | .bytes => 3

/-- Does a source of a kind, format and size match a layer (R352)? -/
def matchesLayer (lay : Layer) (kind f w h : Nat) : Bool :=
  kind == lay.kind && (if kind = 0 then bits f 23 16 == bits lay.format 23 16 else f == lay.format) &&
    decide (lay.sx + lay.sw ≤ w) && decide (lay.sy + lay.sh ≤ h)

def surfMatches (lay : Layer) (x : Surf) : Bool := matchesLayer lay (surfKindCode x.kind) x.format x.width x.height

/-- The configuration active at an edge: the staged one when a commit is pending for it or an earlier one (R352). -/
def State.bankAt (s : State) (edge : Nat) : Bank :=
  match s.tick.commitAt with
  | some c => if c ≤ edge then s.par.staged else s.par.active
  | none => s.par.active

/-- The check of one source (R352). DEDUCED: assumption 43. -/
def State.sourceRefusal (s : State) (b : Bank) (lay : Layer) (r : Nat) : Option Status :=
  match sessionRef r, seamRef r with
  | some v, _ =>
    if matchesLayer lay 0 (bkN b P.ETH_RX_FORMAT v) (bkN b P.ETH_RX_WIDTH v) (bkN b P.ETH_RX_HEIGHT v) then none else some .errRange
  | none, some k =>
    match s.surface (le32 (bkT b P.CAS_SEAM_RX k) 4) with
    | none => some .errRange
    | some (_, x) => if seamOn (bkT b P.CAS_SEAM_RX k) && surfMatches lay x then none else some .errRange
  | none, none =>
    match s.surface r with
    | none => some .errStaleHandle
    | some (_, x) =>
      if x.st = .freePending then some .errSurfaceBusy
      else if surfMatches lay x then none else some .errRange

/-- Every active and pending plan. -/
def State.plans (s : State) : List Plan := s.comp.toList.flatMap (fun c => c.plan.toList ++ c.pend.toList)

/-- The check of a writeback target (R354, R355). -/
def State.writebackRefusal (s : State) (b : Bank) (h wb : Nat) (src : List Nat) : Option Status :=
  match s.surface wb with
  | none => some .errStaleHandle
  | some (_, x) =>
    if x.kind ≠ .packed ∨ x.format ≠ 0x20 ∨ x.width ≠ bkN b P.CMP_CANVAS_W h ∨ x.height ≠ bkN b P.CMP_CANVAS_H h ∨
        s.inRing wb = true ∨ src.contains wb = true ∨ s.plans.any (fun p => p.src.contains wb) = true then some .errRange
    else if x.st = .filling ∨ x.st = .freePending then some .errSurfaceBusy
    else none

/-- The FRAME_PLAN reply (R356). -/
def planReply (edge fail : Nat) : Bytes := toBE 8 edge ++ [byteOf fail] ++ zeros 3

/-- FRAME_PLAN (R351 to R357). DEDUCED: assumption 18. DEDUCED: assumption 108. -/
def framePlan (s : State) (m : Msg) : Answer :=
  let b := m.body
  let head := u8 b 0
  let wb := bit (u8 b 1) 0
  let wbHandle := be32 b 4
  let target := be64 b 8
  let src := (List.range 16).map (fun j => be32 b (16 + 4 * j))
  let c := s.tick.count
  let edge := if c < target then target else c + 1
  let bank := s.bankAt edge
  let no (st : Status) (l : Nat) : Answer := (s, st, planReply 0 l)
  if s.dev = .hold then no .errState 0xFF
  else if b.length ≠ 80 then no .errParam 0xFF
  else if 4 ≤ head ∨ bits (u8 b 1) 7 1 ≠ 0 ∨ be16 b 2 ≠ 0 ∨ (wb = false ∧ wbHandle ≠ 0) ∨ c + 65536 < target then no .errRange 0xFF
  else if target ≠ 0 ∧ target ≤ c then no .errCommitLate 0xFF
  else if bkN bank P.CMP_CLONE head < 4 then no .errState 0xFF
  else
    let bad := (List.range 16).filterMap (fun j =>
      let lay := layerOf (bkT bank P.CMP_LAYER (16 * head + j))
      let r := src.getD j 0
      if r = 0 ∨ lay.enable = false then none else (s.sourceRefusal bank lay r).map (fun st => (st, j)))
    match bad with
    | (st, j) :: _ => no st j
    | [] =>
      match (if wb then s.writebackRefusal bank head wbHandle src else none) with
      | some st => no st 16
      | none =>
        (s.modComp (Fin.ofNat 4 head) (fun x => { x with pend := some ⟨wb, wbHandle, target, edge, src⟩ }), .ok, planReply edge 0xFF)

/-! ## The edge (R357 to R367) -/

/-- What an edge decides for one layer. -/
inductive Decision where
  | noSource
  | mismatch
  | latch (handle : Nat)
  | hold (handle : Nat)
  deriving DecidableEq, Repr

/-- The candidate of a plan entry; 0 for none. -/
def State.candidate (s : State) (r : Nat) : Nat :=
  match sessionRef r, seamRef r with
  | some v, _ => (s.rx[Fin.ofNat 8 v]).current
  | none, some k => (s.cas.seam[Fin.ofNat 8 k]).newest
  | none, none => r

/-- Keep the previously latched surface, where it can be (R361, R362). -/
def State.holdPrev (s : State) (lay : Layer) (prev : Nat) : Decision :=
  match s.surface prev with
  | none => .noSource
  | some (_, x) => if x.st ≠ .inUse then .noSource else if surfMatches lay x then .hold prev else .mismatch

/-- The decision for an enabled layer of a running head (R359 to R362). DEDUCED: assumption 43. -/
def State.layerDecision (s : State) (lay : Layer) (r prev : Nat) : Decision :=
  let cand := s.candidate r
  if cand = 0 then .noSource
  else match s.surface cand with
    | none => s.holdPrev lay prev
    | some (_, x) =>
      if x.st = .freePending then .noSource
      -- outside the mirror pool while a controller is FAILED (17 R788)
      else if s.mcFailed && !x.pool then .noSource
      else if surfMatches lay x = false then .mismatch
      else if (x.st = .ready ∧ x.valid = true) ∨ (x.st = .inUse ∧ cand = prev) then .latch cand
      else s.holdPrev lay prev

/-- Decisions of one head, for its 16 layers; a stopped head and a clone latch nothing (R364, R368). -/
def State.decisions (s : State) (h : HeadIx) (running : Bool) : List Decision :=
  (List.range 16).map (fun j =>
    let lay := layerOf (s.pT P.CMP_LAYER (16 * h.1 + j))
    let c := s.comp[h]
    if running && s.canvasHead h == h && lay.enable then
      s.layerDecision lay (match c.plan with
        | none => 0
        | some p => p.src.getD j 0) c.latched[Fin.ofNat 16 j]
    else .noSource)

def Decision.handle : Decision → Nat
  | .latch h => h
  | .hold h => h
  | _ => 0

/-- The writeback target an edge names for a head; 0 for none (R289, R366, R367). DEDUCED: assumption 42. -/
def State.writebackAt (s : State) (h : HeadIx) (running : Bool) : Nat :=
  match (s.comp[h]).plan with
  | none => 0
  | some p =>
    if running && s.canvasHead h == h && p.wb then
      match s.surface p.wbHandle with
      | some (_, x) => if x.st = .ready ∨ x.st = .inUse then p.wbHandle else 0
      | none => 0
    else 0

/-- Pending plans whose edge has come become active (R357). -/
def State.activatePlans (s : State) : State :=
  (allFin 4).foldl (fun s h =>
    match (s.comp[h]).pend with
    | some p => if p.edge ≤ s.tick.count && s.dev != .hold then s.modComp h (fun c => { c with plan := some p, pend := none }) else s
    | none => s) s

/-- Record an edge's decisions for one head. DEDUCED: assumption 42. -/
def State.recordLatch (s : State) (h : HeadIx) (ds : List Decision) (wb : Nat) : State :=
  let dec (i : Fin 16) : Decision := ds.getD i.1 .noSource
  s.modComp h (fun c => { c with
    latched := Vector.ofFn (fun i => (dec i).handle)
    wbNow := wb
    wbRows := 0
    held := Vector.ofFn (fun i => match dec i with
      | .hold _ => inc 32 c.held[i]
      | _ => c.held[i])
    mismatch := Vector.ofFn (fun i => match dec i with
      | .mismatch => inc 32 c.mismatch[i]
      | _ => c.mismatch[i]) })

/-- Mark a latched surface (R287 to R289). -/
def State.markLatched (s : State) (handle : Nat) : State :=
  match s.surface handle with
  | none => s
  | some (ix, _) => s.modSurf ix (fun x => { x with st := .inUse, lastTick := s.tick.count, wbFull := false })

/-- The latch of an edge: every decision from the surface states as they stand, then the marks, then the retires (R294,
R291). -/
def State.latchEdge (s : State) (running : HeadIx → Bool) : State :=
  let s := s.activatePlans
  let all := (allFin 4).map (fun h => (h, s.decisions h (running h), s.writebackAt h (running h)))
  let keep := all.flatMap (fun (_, ds, wb) => ds.map (·.handle) ++ [wb])
  let s1 := all.foldl (fun s (h, ds, wb) => s.recordLatch h ds wb) s
  let old := s1.surf.tbl.filter (fun (ix, x) => (x.st == .inUse || x.st == .freePending) && !keep.contains (handleOf ix x))
  -- content written in full by a writeback counts when the surface retires (R289)
  let s2 := old.foldl (fun s (ix, _) => s.retire ix) s1
  keep.foldl (fun s k => s.markLatched k) s2

/-- CMP_PLAN: the active plan in little-endian order (Table 6-9). -/
def planBytes (h : Nat) : Option Plan → Bytes
  | none => zeros 80
  | some p => [byteOf h, byteOf (b2n p.wb), 0#8, 0#8] ++ toLE 4 p.wbHandle ++ toLE 8 p.target ++ p.src.flatMap (toLE 4)

end Sys2Proof.Machine
end

