-- ==== Sys2Proof/Machine/SoftFloat.lean ====
section
/-! DEFINITION. IEEE 754 binary32 and binary64 arithmetic, round to nearest, ties to even: the colour solve (08 R432) and the
Belay profiles (12 R624) are computed in it. -/

namespace Sys2Proof.Machine

/-- A format: precision, least exponent of a unit, exponent bits and bias. -/
structure FFmt where
  prec : Nat
  emin : Int
  emax : Int
  ebits : Nat
  bias : Int
  deriving DecidableEq, Repr

def binary32 : FFmt := ⟨24, -149, 104, 8, 127⟩
def binary64 : FFmt := ⟨53, -1074, 971, 11, 1023⟩

/-- A floating-point value: (-1)^neg * m * 2^e, an infinity, or not a number. -/
inductive Fl where
  | fin (neg : Bool) (m : Nat) (e : Int)
  | inf (neg : Bool)
  | nan
  deriving DecidableEq, Repr

/-- Round m * 2^e (and a little more when `sticky`) into a format. -/
def flRound (f : FFmt) (neg : Bool) (m : Nat) (e : Int) (sticky : Bool := false) : Fl :=
  let m := 2 * m + b2n sticky
  let e := e - 1
  if m = 0 then .fin neg 0 f.emin
  else
    let et := max (e + (m.log2 : Int) + 1 - f.prec) f.emin
    let (q, et) :=
      if et ≤ e then (m * 2 ^ (e - et).toNat, et)
      else
        let sh := (et - e).toNat
        let q := m / 2 ^ sh
        let r := m % 2 ^ sh
        let half := 2 ^ (sh - 1)
        let q := if half < r ∨ (r = half ∧ q % 2 = 1) then q + 1 else q
        if q = 2 ^ f.prec then (2 ^ (f.prec - 1), et + 1) else (q, et)
    if f.emax < et then .inf neg else .fin neg q et

/-- An exact integer times a power of two, rounded. -/
def flOfInt (f : FFmt) (i : Int) (e : Int := 0) : Fl := flRound f (decide (i < 0)) i.natAbs e

/-- n / d, rounded. -/
def flOfRat (f : FFmt) (n : Int) (d : Nat) : Fl :=
  let k := f.prec + 3 + d.log2
  let a := n.natAbs * 2 ^ k
  flRound f (decide (n < 0)) (a / d) (-(k : Int)) (a % d != 0)

def flNeg : Fl → Fl
  | .fin s m e => .fin (!s) m e
  | .inf s => .inf (!s)
  | .nan => .nan

/-- The signed mantissa over a common exponent. -/
def flMant (s : Bool) (m : Nat) (e c : Int) : Int := (if s then -(m : Int) else (m : Int)) * (2 ^ (e - c).toNat : Nat)

def flAdd (f : FFmt) : Fl → Fl → Fl
  | .fin s m e, .fin s' m' e' =>
    let c := min e e'
    let v := flMant s m e c + flMant s' m' e' c
    if v = 0 then .fin (s && s') 0 f.emin else flOfInt f v c
  | .inf s, .inf s' => if s = s' then .inf s else .nan
  | .inf s, .fin _ _ _ => .inf s
  | .fin _ _ _, .inf s => .inf s
  | _, _ => .nan

def flSub (f : FFmt) (a b : Fl) : Fl := flAdd f a (flNeg b)

def flMul (f : FFmt) : Fl → Fl → Fl
  | .fin s m e, .fin s' m' e' => flRound f (s != s') (m * m') (e + e')
  | .inf s, .inf s' => .inf (s != s')
  | .inf s, .fin s' m _ => if m = 0 then .nan else .inf (s != s')
  | .fin s m _, .inf s' => if m = 0 then .nan else .inf (s != s')
  | _, _ => .nan

def flDiv (f : FFmt) : Fl → Fl → Fl
  | .fin s m e, .fin s' m' e' =>
    if m' = 0 then (if m = 0 then .nan else .inf (s != s'))
    else
      let k := f.prec + 3 + m'.log2
      let a := m * 2 ^ k
      flRound f (s != s') (a / m') (e - e' - k) (a % m' != 0)
  | .inf s, .fin s' _ _ => .inf (s != s')
  | .fin s _ _, .inf s' => .fin (s != s') 0 f.emin
  | _, _ => .nan

/-- Square root. -/
def flSqrt (f : FFmt) : Fl → Fl
  | .fin s m e =>
    if m = 0 then .fin s 0 f.emin
    else if s then .nan
    else
      let k := 2 * f.prec + 4
      let (m, e) := if (e - k) % 2 = 0 then (m * 2 ^ k, e - k) else (m * 2 ^ (k + 1), e - k - 1)
      let r := isqrt (m.log2 / 2 + 1) m
      flRound f false r (e / 2) (r * r != m)
  | .inf s => if s then .nan else .inf false
  | .nan => .nan

/-- a < b and a ≤ b; false when one is not a number. -/
def flLt : Fl → Fl → Bool
  | .fin s m e, .fin s' m' e' => let c := min e e'
                                 decide (flMant s m e c < flMant s' m' e' c)
  | .inf s, .inf s' => s && !s'
  | .inf s, .fin _ _ _ => s
  | .fin _ _ _, .inf s => !s
  | _, _ => false
def flLe (a b : Fl) : Bool :=
  match a, b with
  | .nan, _ => false
  | _, .nan => false
  | a, b => !flLt b a

def flAbs : Fl → Fl
  | .fin _ m e => .fin false m e
  | .inf _ => .inf false
  | .nan => .nan

/-- The integer nearest to v * 2^k, halves up; 0 for what is not finite. -/
def flToInt (v : Fl) (k : Int := 0) : Int :=
  match v with
  | .fin s m e =>
    let i : Int := if s then -(m : Int) else m
    let e := e + k
    if 0 ≤ e then i * (2 ^ e.toNat : Nat) else (2 * i + (2 ^ (-e).toNat : Nat)) / (2 * (2 ^ (-e).toNat : Nat))
  | _ => 0

/-- The value of v * 2^k rounded down. -/
def flFloor (v : Fl) (k : Int := 0) : Int :=
  match v with
  | .fin s m e =>
    let i : Int := if s then -(m : Int) else m
    let e := e + k
    if 0 ≤ e then i * (2 ^ e.toNat : Nat) else i / (2 ^ (-e).toNat : Nat)
  | _ => 0

/-- The bit pattern of a format. -/
def flBits (f : FFmt) : Fl → Nat
  | .fin s m e =>
    let top := 2 ^ (f.prec - 1)
    let mag := if m < top then m else (e - f.emin + 1).toNat * top + (m - top)
    mag + b2n s * 2 ^ (f.prec - 1 + f.ebits)
  | .inf s => (2 ^ f.ebits - 1) * 2 ^ (f.prec - 1) + b2n s * 2 ^ (f.prec - 1 + f.ebits)
  | .nan => (2 ^ f.ebits - 1) * 2 ^ (f.prec - 1) + 2 ^ (f.prec - 2)

/-- The value of a bit pattern. -/
def flOfBits (f : FFmt) (b : Nat) : Fl :=
  let top := 2 ^ (f.prec - 1)
  let s := bit b (f.prec - 1 + f.ebits)
  let ex := b / top % 2 ^ f.ebits
  let m := b % top
  if ex = 2 ^ f.ebits - 1 then (if m = 0 then .inf s else .nan)
  else if ex = 0 then .fin s m f.emin
  else .fin s (m + top) (f.emin + ex - 1)

/-- A value of one format in another. -/
def flConv (f : FFmt) : Fl → Fl
  | .fin s m e => flRound f s m e
  | x => x

def Fl.isFinite : Fl → Bool
  | .fin _ _ _ => true
  | _ => false

end Sys2Proof.Machine
end

