-- ==== Sys2Proof/Machine/Timing.lean ====
section
/-! DEFINITION. Quantities a head's configuration fixes: the plane schedule and its slots, the scan raster's periods
(02 R48, R61; 09 R458, R459, R470 to R484; 10 R512 to R518; 18 R812). -/

namespace Sys2Proof.Machine

/-! ## The head frame (02) -/

/-- HDT_TYPE. -/
def typeNone : Nat := 0
def typePlane : Nat := 1
def typeScan : Nat := 2

/-- Head frames per tick, M (R61). -/
def multOf (b : Bank) (h : Nat) : Nat := bkN b P.TCK_HEAD_MULT h + 1

/-- The nominal head frame period T/M is num/den seconds (R48). -/
def frameNum (b : Bank) : Nat := bkN b P.TCK_RATE_DEN
def frameDen (b : Bank) (h : Nat) : Nat := bkN b P.TCK_RATE_NUM * multOf b h

/-- The nominal tick period, ns, rounded down; 16,666,667 at reset as Table 2-1 gives is rounded half up. DEDUCED:
assumption 79. -/
def tickNs (b : Bank) : Nat := divHalfUp (1000000000 * bkN b P.TCK_RATE_DEN) (bkN b P.TCK_RATE_NUM)

/-- The geometry of a head's raster: columns and rows of the array or of the sample grid. -/
def gridW (b : Bank) (h : Nat) : Nat :=
  if bkN b P.HDT_TYPE h = typePlane then bkN b P.PLN_COLS h else bkN b P.SCN_SAMPLES h
def gridH (b : Bank) (h : Nat) : Nat :=
  if bkN b P.HDT_TYPE h = typePlane then bkN b P.PLN_ROWS h else bkN b P.SCN_LINES_ACT h
def meshStep (b : Bank) (h : Nat) : Nat :=
  if bkN b P.HDT_TYPE h = typePlane then bkN b P.PLN_MESH_STEP h else bkN b P.SCN_MESH_STEP h

/-- Nodes of the mesh in each direction (09 R459, 10 R522). -/
def meshNx (b : Bank) (h : Nat) : Nat := ceilDiv (gridW b h) (2 ^ meshStep b h) + 1
def meshNy (b : Bank) (h : Nat) : Nat := ceilDiv (gridH b h) (2 ^ meshStep b h) + 1

/-! ## Plane heads (09) -/

/-- A field of PLN_FIELDS (Table 9-2): group and bits. -/
def fieldOf (b : Bank) (h f : Nat) : Option (Nat × Nat) :=
  let t := bkT b P.PLN_FIELDS h
  if u8 t (4 * f) = 0xFF then none else some (u8 t (4 * f), u8 t (4 * f + 1))

/-- The used fields: field, group, bits. -/
def fieldsOf (b : Bank) (h : Nat) : List (Nat × Nat × Nat) :=
  (List.range 8).filterMap (fun f => (fieldOf b h f).map (fun (g, n) => (f, g, n)))

/-- A slot of PLN_SCHED (Table 9-3). -/
structure Slot where
  dark  : Bool
  field : Nat
  bit   : Nat
  dur   : Nat
  deriving DecidableEq, Repr

def slotOf (t : Bytes) (s : Nat) : Slot := ⟨u8 t (4 + 8 * s) == 1, u8 t (5 + 8 * s), u8 t (6 + 8 * s), le32 t (8 + 8 * s)⟩

def slotsOf (t : Bytes) : List Slot := (List.range (le16 t 0)).map (slotOf t)

/-- First row of a block (R458). -/
def blockRow (b : Bank) (h k : Nat) : Nat := k * bkN b P.PLN_ROWS h / bkN b P.PLN_BLOCKS h

/-- The data beats N_b of a block (R472). -/
def blockBeats (b : Bank) (h k : Nat) : Nat := ceilDiv ((blockRow b h (k + 1) - blockRow b h k) * bkN b P.PLN_COLS h) 2048

/-- T_cycle, T_x and Tmin, in 2.5 ns (R472). -/
def tCycle (b : Bank) (h : Nat) : Nat :=
  let n := bkN b P.PLN_BLOCKS h
  let beats := (List.range n).foldl (fun a k => a + blockBeats b h k + 2) 0
  ceilDiv (33 * beats) 4 + (n - 1) * bkN b P.PLN_TPHASE h

def tX (b : Bank) (h : Nat) : Nat := bkN b P.PLN_TSETTLE h + (bkN b P.PLN_BLOCKS h - 1) * bkN b P.PLN_TPHASE h

def tMin (b : Bank) (h : Nat) : Nat := max (tCycle b h - tX b h) (bkN b P.PLN_EMIN h)

/-- The weight exponent of a slot (R473). -/
def slotJ (tmin dur : Nat) : Nat := ((List.range 32).find? (fun j => decide (tmin ≤ 2 ^ j * dur))).getD 32

/-- The emission of a slot at full luminance (R473). -/
def slotE (tmin : Nat) (x : Slot) : Nat := if x.dark then max x.dur tmin else 2 ^ slotJ tmin x.dur * x.dur

/-- What a slot does under a time factor D_t in U1.31 (R476). -/
structure SlotUse where
  slot : Slot
  j    : Nat
  /-- duration d -/
  d    : Nat
  /-- e', and a' in U1.15 -/
  emit : Nat
  amp  : Nat
  deriving DecidableEq, Repr

def slotUse (tx tmin dt : Nat) (x : Slot) : SlotUse :=
  let e := slotE tmin x
  if x.dark then ⟨x, 0, tx + e, e, 0⟩
  else
    let e' := ceilDiv (dt * e) (2 ^ 31)
    ⟨x, slotJ tmin x.dur, tx + e, e', divHalfUp (dt * x.dur) (65536 * e')⟩

/-- The slots of a schedule table under a bank. -/
def usesOf (b : Bank) (h : Nat) (sched : Bytes) (dt : Nat) : List SlotUse :=
  (slotsOf sched).map (slotUse (tX b h) (tMin b h) dt)

/-- Sum of d over the written schedule (R478, Table 9-6). -/
def schedSum (b : Bank) (h : Nat) : Nat :=
  (usesOf b h (bkT b P.PLN_SCHED h) (2 ^ 31)).foldl (fun a u => a + u.d) 0

/-- U_f (R470): the sum of DUR over the slots of bit 0. -/
def unitOf (b : Bank) (h f : Nat) : Nat :=
  (slotsOf (bkT b P.PLN_SCHED h)).foldl (fun a x => if !x.dark && x.field == f && x.bit == 0 then a + x.dur else a) 0

/-- The duty ratio of a field (R479) as numerator and denominator: sum of e over (sum of d less n settle times). -/
def dutyOf (b : Bank) (h f : Nat) : Nat × Nat :=
  let us := (usesOf b h (bkT b P.PLN_SCHED h) (2 ^ 31)).filter (fun u => !u.slot.dark && u.slot.field == f)
  (us.foldl (fun a u => a + slotE (tMin b h) u.slot) 0,
   us.foldl (fun a u => a + u.d) 0 - us.length * bkN b P.PLN_TSETTLE h)

/-- Stripes of 16 rows, and planes per stripe (R484). -/
def stripesOf (b : Bank) (h : Nat) : Nat := ceilDiv (bkN b P.PLN_ROWS h) 16
def headPlanes (b : Bank) (h : Nat) : Nat := (fieldsOf b h).foldl (fun a (_, _, n) => a + n) 0
def sliceBytes (b : Bank) (h : Nat) : Nat := 2 * bkN b P.PLN_COLS h + 4

/-- The bytes of a plane store (R484). -/
def storeBytes (b : Bank) (h : Nat) : Nat :=
  ceilDiv (3 * stripesOf b h * headPlanes b h * sliceBytes b h) 4096 * 4096

/-- The slack of R647 in ns, times 1000: min(140 us - T_cycle - T_x, T/M - SUM - 8 us), not below 0. -/
def syncSlackPs (b : Bank) (h : Nat) : Nat :=
  min (140000000 - 2500 * (tCycle b h + tX b h))
    (1000000000000 * frameNum b / frameDen b h - 2500 * schedSum b h - 8000000)

/-! ## Scan heads (10) -/

/-- The nominal centre sample period tau_s in ps, at scale 2^160 (R518). -/
def tauS (b : Bank) (h : Nat) : Nat :=
  (fxDiv (fxRat (bkN b P.SCN_ACTIVE h * 1000000000000000) (65536 * bkN b P.SCN_SAMPLES h * bkN b P.SCN_FREQ h)) fxPi).toNat

/-- f_lo and f_hi times 10^6, in mHz (R513). -/
def fLo (b : Bank) (h : Nat) : Nat := bkN b P.SCN_FREQ h * (1000000 - bkN b P.SCN_FTOL h)
def fHi (b : Bank) (h : Nat) : Nat := bkN b P.SCN_FREQ h * (1000000 + bkN b P.SCN_FTOL h)

/-- The QDR load of a scan head in bytes per second, times TCK_RATE_DEN (R533). -/
def qdrLoadNum (b : Bank) (h : Nat) (w hh : Nat) : Nat :=
  let frames := bkN b P.TCK_RATE_NUM * multOf b h
  let px := w * hh * 8 * frames
  let groups := popCount 6 ((allFin 48).foldl (fun m c =>
    let v := bkN b P.EMT_BIND c.1
    if bit v 7 && bits v 4 3 == h && decide (bits v 2 0 ≤ 5) && !bit m (bits v 2 0) then m + 2 ^ bits v 2 0 else m) 0)
  let maps := 8 * meshNx b h * meshNy b h + 2 * ceilDiv (gridW b h) 4 * ceilDiv (gridH b h) 4 * groups
  px + px * (if bkN b P.SCN_FILTER h = 1 then 4 else 2) + maps * frames

/-! ## Bindings (11) -/

/-- EMT_BIND (Table 11-3): head and role of a bound channel. -/
def bindOf (b : Bank) (c : Nat) : Option (Nat × Nat) :=
  let v := bkN b P.EMT_BIND c
  if bit v 7 then some (bits v 4 3, bits v 2 0) else none

def roleTouch : Nat := 6

/-- The channels bound to a head in a role, ascending. -/
def chansOf (b : Bank) (h role : Nat) : List ChanIx := (allFin 48).filter (fun c => bindOf b c.1 == some (h, role))

/-- The groups of a head, ascending (Table 11-3). -/
def groupsOf (b : Bank) (h : Nat) : List Nat := (List.range 6).filter (fun g => !(chansOf b h g).isEmpty)

/-- Every channel bound to a head. -/
def boundTo (b : Bank) (h : Nat) : List ChanIx := (allFin 48).filter (fun c =>
  match bindOf b c.1 with
  | some (k, _) => k == h
  | none => false)

/-! ## Mesh and uniformity (09 R461, R466) -/

/-- Byte offset `o` of a paged table of head `h`. -/
def pagedBytes (b : Bank) (id h o n : Nat) : Bytes := slice (bkT b id (h * 16384 + o / 4096)) (o % 4096) n

/-- Interpolation between the nodes of a mesh: position (x, y), cells of 2^k, node value by column and row (R461). -/
def meshAt (node : Nat → Nat → Int) (k x y : Nat) : Int :=
  let s := 2 ^ k
  let i := x / s
  let j := y / s
  let fx : Int := (x % s : Nat)
  let fy : Int := (y % s : Nat)
  let sI : Int := (s : Nat)
  ((sI - fx) * (sI - fy) * node i j + fx * (sI - fy) * node (i + 1) j + (sI - fx) * fy * node i (j + 1) +
    fx * fy * node (i + 1) (j + 1) + (2 ^ (2 * k - 1) : Nat)) / (2 ^ (2 * k) : Nat)

/-- The gain of R466 from the cell gains. DEDUCED: assumption 39. -/
def gainAt (cell : Nat → Nat → Nat) (mx my x y : Nat) : Nat :=
  let pos (v m : Nat) : Nat × Nat :=
    let i := clampI 0 ((m : Int) - 2) ((2 * (v : Int) - 3) / 8)
    (i.toNat, (clampI 0 8 (2 * v - 3 - 8 * i)).toNat)
  let (i, fx) := pos x mx
  let (j, fy) := pos y my
  ((8 - fx) * (8 - fy) * cell i j + fx * (8 - fy) * cell (i + 1) j + (8 - fx) * fy * cell i (j + 1) +
    fx * fy * cell (i + 1) (j + 1) + 32) / 64

end Sys2Proof.Machine
end

