-- ==== Sys2Proof/Machine/Colour.lean ====
section
/-! DEFINITION. Colour constancy: estimates, the solve of R432 and its dimming, and its arithmetic (08 R415 to R447). -/

namespace Sys2Proof.Machine

/-! ## COL_CAL (Table 8-5) -/

structure Cal where
  resp  : Nat
  lref  : Nat
  tcoef : Int
  tref  : Int
  tsense : Nat
  wmode : Nat
  pnom  : Nat
  /-- g_0 to g_3, U0.16; g_0 = 65,536 -/
  gains : List Nat
  rmin  : Nat
  rmax  : Nat
  curve : List Nat
  deriving DecidableEq, Repr

def calOf (b : Bytes) : Cal where
  resp := le32 b 0
  lref := le16 b 4
  tcoef := sle16 b 6
  tref := sle16 b 8
  tsense := u8 b 10
  wmode := u8 b 11
  pnom := le32 b 12
  gains := [65536, le16 b 16, le16 b 18, le16 b 20]
  rmin := le16 b 24
  rmax := le16 b 26
  curve := (List.range 17).map (fun i => le16 b (28 + 2 * i))

/-- The gain of a driver range, U0.16. -/
def Cal.gain (k : Cal) (r : Nat) : Nat := k.gains.getD r 65536

/-! ## Estimates (R415 to R422) -/

/-- λ in U12.4, truncated (00 R964), is clamped to 380 nm to 780 nm (R419). -/
def lambdaClamp (v : Int) : Nat := (clampI 6080 12480 v).toNat

/-- The temperature model (R421); T is sum/n in 0.01 degC, or TREF. -/
def Cal.model (k : Cal) (t : Option (Int × Nat)) : Nat :=
  match t with
  | none => lambdaClamp k.lref
  | some (sum, n) => if n = 0 then lambdaClamp k.lref
    else lambdaClamp (k.lref + k.tcoef * (sum - k.tref * n) / (25600 * n : Nat))

/-- The ratio curve (R420) at ρ = w/p. -/
def Cal.ratio (k : Cal) (w p : Int) : Nat :=
  let num := 16 * (w * 65536 - k.rmin * p)
  let den := p * ((k.rmax : Int) - k.rmin)
  let i := (clampI 0 15 (num / den)).toNat
  let a : Int := k.curve.getD i 0
  let b : Int := k.curve.getD (i + 1) 0
  lambdaClamp ((a * den + (b - a) * (num - i * den)) / den)

/-- The estimate before the first valid sums (R422). -/
def Cal.start (k : Cal) (t : Option (Int × Nat)) : Est :=
  { Est.reset with lambda := if k.wmode = 1 then k.model t else lambdaClamp k.lref, power := k.pnom, src := 3 }

/-- The dark means that apply to a tick's sums (R415): number and sums. DESIGN CHOICE: assumption 46. -/
def Emit.darkNow (e : Emit) : Nat × Nat × Nat := if e.sums.nd = 0 then e.dark else (e.sums.nd, e.sums.zp, e.sums.zw)

/-- P' and W' times the number of dark samples, with that number (R415). -/
def Emit.primed (e : Emit) : Int × Int × Nat :=
  match e.darkNow with
  | (0, _, _) => (e.sums.sp, e.sums.sw, 1)
  | (n, zp, zw) => ((e.sums.sp : Int) * n - (e.sums.nl : Int) * zp, (e.sums.sw : Int) * n - (e.sums.nl : Int) * zw, n)

/-- Are the closed sums valid (R416)? -/
def Emit.validSums (e : Emit) (minSamples : Nat) : Bool :=
  decide (minSamples ≤ e.sums.nl) && decide (0 < e.sums.sd) && decide (0 < e.primed.1)

/-- The estimate that stands: before the first valid sums since the head started, that of R422 (Table 8-6: not yet
valid). DESIGN CHOICE: assumption 46. -/
def Emit.estNow (e : Emit) (k : Cal) (t : Option (Int × Nat)) : Est :=
  if e.fresh then e.est else { k.start t with stale := true, age := e.est.age }

/-- Close a channel's estimate at a tick edge (R417 to R422); P_c is truncated (00 R964). `lit` is false where no estimate
changes (R418). DESIGN CHOICE: assumption 46. -/
def Emit.closeEst (e : Emit) (k : Cal) (minSamples : Nat) (t : Option (Int × Nat)) (lit : Bool) : Emit :=
  let valid := e.validSums minSamples
  let (p, w, n) := e.primed
  let t := if k.tsense = 0xFF then none else t
  let age := if valid then 0 else min 65535 (e.est.age + 1)
  let before := e.estNow k t
  let stale : Est := { before with stale := !valid, age := age }
  if !lit then { e with est := stale }
  else if valid then
    let power := min (2 ^ 32 - 1) (k.resp * p.toNat * 4095 * 65536 / (n * e.sums.sd))
    let inside := decide ((k.rmin : Int) * p ≤ w * 65536) && decide (w * 65536 ≤ k.rmax * p)
    let (lam, src) :=
      if k.wmode = 1 then (k.model t, 1)
      else if k.wmode = 2 then (lambdaClamp k.lref, 2)
      else if inside then (k.ratio w p, 0)
      else if k.tsense ≠ 0xFF then (k.model t, 1)
      else (before.lambda, before.src)
    { e with est := ⟨lam, power, src, false, k.wmode == 0 && !inside, 0⟩, fresh := true }
  else if !e.fresh then { e with est := stale }
  else if k.wmode = 1 then { e with est := { stale with lambda := k.model t, src := 1 } }
  else if k.wmode = 2 then { e with est := { stale with lambda := lambdaClamp k.lref, src := 2 } }
  else { e with est := stale }

/-! ## Linear algebra in binary32 (R432) -/

def fA (a b : Fl) : Fl := flAdd binary32 a b
def fS (a b : Fl) : Fl := flSub binary32 a b
def fM (a b : Fl) : Fl := flMul binary32 a b
def fD (a b : Fl) : Fl := flDiv binary32 a b
def fQ (n : Int) (d : Nat) : Fl := flOfRat binary32 n d

structure V3 where
  x : Fl
  y : Fl
  z : Fl
  deriving DecidableEq, Repr

def V3.zero : V3 := ⟨fQ 0 1, fQ 0 1, fQ 0 1⟩
def V3.add (a b : V3) : V3 := ⟨fA a.x b.x, fA a.y b.y, fA a.z b.z⟩
def V3.scale (k : Fl) (a : V3) : V3 := ⟨fM k a.x, fM k a.y, fM k a.z⟩
def V3.overR (a : V3) (k : Fl) : V3 := ⟨fD a.x k, fD a.y k, fD a.z k⟩
def V3.dot (a b : V3) : Fl := fA (fA (fM a.x b.x) (fM a.y b.y)) (fM a.z b.z)
def V3.cross (a b : V3) : V3 :=
  ⟨fS (fM a.y b.z) (fM a.z b.y), fS (fM a.z b.x) (fM a.x b.z), fS (fM a.x b.y) (fM a.y b.x)⟩
def V3.norm (a : V3) : Fl := flSqrt binary32 (a.dot a)

/-- The inverse of the matrix of three columns, as its rows; none where it is singular by the test of R432. DESIGN
CHOICE: assumption 44. -/
def inverse3 (a b c : V3) : Option (V3 × V3 × V3) :=
  let det := a.dot (b.cross c)
  let bound := fM (fQ 1 1000000) (fM (fM a.norm b.norm) c.norm)
  if flLt (flAbs det) bound || !det.isFinite || !flLt (fQ 0 1) (flAbs det) then none
  else some ((b.cross c).overR det, (c.cross a).overR det, (a.cross b).overR det)

/-- A pseudo-inverse: for each group of the set its row. -/
abbrev Pinv := List (Nat × V3)

def Pinv.apply (p : Pinv) (v : V3) : List Fl := p.map (fun r => r.2.dot v)

/-- transpose(e) * inverse(e * transpose(e)) for the columns e of a set; none where e * transpose(e) is singular (R432). DESIGN
CHOICE: assumption 44. -/
def rightInverse (cols : List (Nat × V3)) : Option Pinv :=
  let col (f : V3 → Fl) : V3 := cols.foldl (fun acc c => acc.add (c.2.scale (f c.2))) V3.zero
  (inverse3 (col V3.x) (col V3.y) (col V3.z)).map (fun (r, s, t) =>
    cols.map (fun c => (c.1, ⟨c.2.dot ⟨r.x, s.x, t.x⟩, c.2.dot ⟨r.y, s.y, t.y⟩, c.2.dot ⟨r.z, s.z, t.z⟩⟩)))

/-- The pseudo-inverse of the columns of a set; the inverse for three groups (R432). DESIGN CHOICE: assumption 44. -/
def pinvOf (cols : List (Nat × V3)) : Option Pinv :=
  match cols with
  | [(g, a), (h, b), (k, c)] => (inverse3 a b c).map (fun (r, s, t) => [(g, r), (h, s), (k, t)])
  | _ => rightInverse cols

/-- -2^-20. -/
def slightlyNegative : Fl := fQ (-1) (2 ^ 20)

/-- The POWER objective: the set of least power (R432). -/
def powerSet (cols : List (Nat × V3)) (power : Nat → Fl) (w : V3) : Option Pinv :=
  let n := cols.length
  let triples := (List.range n).flatMap (fun i => (List.range n).flatMap (fun j => (List.range n).filterMap (fun k =>
    if i < j ∧ j < k then some [cols.getD i (0, V3.zero), cols.getD j (0, V3.zero), cols.getD k (0, V3.zero)] else none)))
  let found := triples.filterMap (fun t => (pinvOf t).bind (fun p =>
    let d := (p.apply w).map (fun x => if flLt slightlyNegative x && flLt x (fQ 0 1) then fQ 0 1 else x)
    if d.all (fun x => flLe (fQ 0 1) x) then
      some (p, (p.zip d).foldl (fun a (r, x) => fA a (fM x (power r.1))) (fQ 0 1))
    else none))
  match found with
  | [] => none
  | (p, q) :: rest => some (rest.foldl (fun (acc : Pinv × Fl) e => if flLt e.2 acc.2 then e else acc) (p, q)).1

/-- The most negative entry: its place in the list, the lowest on a tie. -/
def mostNegative (d : List Fl) : Nat :=
  ((d.zip (List.range d.length)).foldl (fun (acc : Fl × Nat) e => if flLt e.1 acc.1 then e else acc) (d.getD 0 (fQ 0 1), 0)).2

/-- The SPREAD objective (R432): the white's drives by the right inverse of the set; fuel is the number of groups. -/
def spreadSet : Nat → List (Nat × V3) → V3 → Option Pinv
  | 0, _, _ => none
  | fuel + 1, cols, w =>
    if cols.length < 3 then none
    else match rightInverse cols with
      | none => none
      | some p =>
        let d := p.apply w
        if d.all (fun x => flLe slightlyNegative x) then pinvOf cols
        else spreadSet fuel (cols.eraseIdx (mostNegative d)) w

/-! ## Target (R429 to R431) -/

/-- (x/y, 1, (1-x-y)/y) of an xy code pair. -/
def xyz (x y : Nat) : V3 := ⟨fQ x y, fQ 1 1, fQ (65536 - (x : Int) - y) y⟩

structure Target where
  w : V3
  /-- columns R, G, B of T, and their Y -/
  t : List V3
  lum : Nat
  deriving DecidableEq, Repr

def targetOf (b : Bytes) : Option Target :=
  let at_ (k : Nat) : V3 := xyz (le16 b (4 * k)) (le16 b (4 * k + 2))
  let w := at_ 0
  (inverse3 (at_ 1) (at_ 2) (at_ 3)).map (fun (r, s, t) =>
    ⟨w, [(at_ 1).scale (r.dot w), (at_ 2).scale (s.dot w), (at_ 3).scale (t.dot w)], le32 b 16⟩)

/-- The colour-matching values that the spec prints, over 100,000: entry of COL_CMF, then x, y, z (Table 8-9). -/
def cmfPrinted : List (Nat × List Nat) :=
  [(70, [33620, 3800, 177211]), (140, [6327, 71000, 7825]), (250, [64240, 26500, 5]), (260, [44790, 17500, 2]),
    (270, [28350, 10700, 0])]

/-- Entry i of COL_CMF, function 0 to 2, U2.14 rounded half up (R423): the values that Table 8-9 prints; the others stand in the
CIE's table, which the spec does not hold. DESIGN CHOICE: assumption 9. -/
def cmfEntry (i f : Nat) : Nat :=
  match assocGet i cmfPrinted with
  | some v => divHalfUp (v.getD f 0 * 16384) 100000
  | none => (Config.cmf i f).toNat

/-- COL_CMF (R423). -/
def cmfTable : Bytes := (List.range 401).flatMap (fun i => (List.range 3).flatMap (fun f => toLE 2 (cmfEntry i f)))

/-- A colour-matching function at a wavelength code (R424). -/
def cmfAt (lam f : Nat) : Nat :=
  let i := lam / 16 - 380
  let a := cmfEntry i f
  if 400 ≤ i then cmfEntry 400 f
  else ((a : Int) + (((cmfEntry (i + 1) f : Int) - a) * (lam % 16 : Nat) + 8) / 16).toNat

/-! ## The solve (R425 to R445) -/

/-- What a solve takes of one channel. -/
structure ChanIn where
  chan : ChanIx
  role : Nat
  est  : Est
  excluded : Bool
  maxCode : Nat
  cal  : Cal
  deriving DecidableEq, Repr

/-- K_c (R426): limited to EMT_MAXCODE/4,095 and rounded to U1.15; 0 when excluded. -/
def relCurrent (equalPower : Bool) (pmin : Nat) (c : ChanIn) : Nat :=
  if c.excluded then 0
  else
    let (n, d) := if equalPower then (pmin, c.est.power) else (1, 1)
    if n * 4095 ≤ c.maxCode * d then divHalfUp (32768 * n) d else divHalfUp (32768 * c.maxCode) 4095

/-- P_c in W. -/
def watts (c : ChanIn) : Fl := fQ c.est.power 1000000

/-- e_c (R425). DESIGN CHOICE: assumption 44. -/
def tristimulus (c : ChanIn) (k : Nat) : V3 :=
  let s := fM (fM (fQ 683 1) (watts c)) (fQ k 32768)
  ⟨fM s (fQ (cmfAt c.est.lambda 0) 16384), fM s (fQ (cmfAt c.est.lambda 1) 16384), fM s (fQ (cmfAt c.est.lambda 2) 16384)⟩

/-- Round half up into n fraction bits, not below 0 and not above a limit. -/
def flCode (v : Fl) (n : Nat) (hi : Nat) : Nat := (clampI 0 hi ((flFloor v (n + 1) + 1) / 2)).toNat

/-- s by bisection (R432): the largest feasible value found in [0, 1]. -/
def bisect (ok : Fl → Bool) : Nat → Fl → Fl → Fl
  | 0, lo, _ => lo
  | n + 1, lo, hi =>
    let mid := fM (fA lo hi) (fQ 1 2)
    if ok mid then bisect ok n mid hi else bisect ok n lo mid

/-- The driver range of R444 and R445: `prev` is the range of the previous solve. Gains U0.16, D_i U1.31. -/
def rangeOf (k : Cal) (di : Nat) (prev : Option Nat) : Nat :=
  let best := ((List.range 4).reverse.find? (fun r => decide (di ≤ k.gain r * 2 ^ 15))).getD 0
  match prev with
  | none => best
  | some r => if r < best && !decide (10 * di < 9 * (k.gain (r + 1) * 2 ^ 15)) then r else best

/-- What the dimming of R440 to R443 gives. -/
structure Dim where
  dt : Nat
  di : Nat
  lum : Nat
  limited : Bool
  floor : Bool
  deriving DecidableEq, Repr

/-- D_t,min (R442). -/
def dtMin (b : Bank) (h : Nat) : Fl :=
  if bkN b P.HDT_TYPE h = typeScan then fQ (25 * fxOne) (8 * tauS b h) else fQ 1 1024

/-- DEDUCED: assumption 45. -/
def dimOf (b : Bank) (h : Nat) (lum : Nat) (k : Fl) (dimmed : Bool) : Dim :=
  let ymax := fD (fQ 1 1) k
  let lmax := fM (fQ (bkN b P.COL_ETA h) 65536) ymax
  let d := fD (fQ lum 1000) lmax
  let limited := flLt (fQ 1 1) d
  let d := if limited then fQ 1 1 else d
  let d := if dimmed then fM d (fQ (bkN b P.THM_DIM h) 65536) else d
  let ifl := fQ (bkN b P.COL_IFLOOR h) 65536
  let di := if flLt d ifl then ifl else d
  let dt := fD d di
  let low := flLt dt (dtMin b h)
  let dt := if low then dtMin b h else dt
  ⟨flCode dt 31 (2 ^ 31), flCode di 31 (2 ^ 31), flCode (fM (fM (fM lmax di) dt) (fQ 1000 1)) 0 (2 ^ 32 - 1), limited, low⟩

/-- The solve of one head under a configuration (R432); none when it fails (R436). `dimmed`: D is replaced by D times
THM_DIM (20 R895). DESIGN CHOICE: assumption 44. DEDUCED: assumption 45. -/
def solveOf (b : Bank) (h : Nat) (ins : List ChanIn) (prev : Option Solve) (cal : Bool) (forTick : Nat)
    (dimmed : Bool) : Option Solve :=
  let equal := bkN b P.COL_BALANCE h == 1
  let ofGroup (g : Nat) : List ChanIn := ins.filter (fun c => c.role == g)
  let live (g : Nat) : List ChanIn := (ofGroup g).filter (fun c => !c.excluded)
  let pminOf (g : Nat) : Nat := ((live g).map (fun c => c.est.power)).foldl min (2 ^ 32)
  let kOf (c : ChanIn) : Nat := relCurrent equal (pminOf c.role) c
  let present := (List.range 6).filter (fun g => !(live g).isEmpty)
  let cols := present.map (fun g => (g, (live g).foldl (fun a c => a.add (tristimulus c (kOf c))) V3.zero))
  let power (g : Nat) : Fl := (live g).foldl (fun a c => fA a (fM (fQ (kOf c) 32768) (watts c))) (fQ 0 1)
  (targetOf (bkT b P.COL_TARGET h)).bind (fun tg =>
    if present.length < 3 then none
    else
      let set_ := if bkN b P.COL_OBJECTIVE h = 0 then powerSet cols power tg.w else spreadSet 7 cols tg.w
      set_.bind (fun pinv =>
        let moved (s : Fl) : List V3 :=
          tg.t.map (fun t => (t.scale s).add (tg.w.scale (fM (fS (fQ 1 1) s) t.y)))
        let ok (s : Fl) : Bool := (moved s).all (fun t => (pinv.apply t).all (fun x => flLe (fQ 0 1) x))
        let s := if ok (fQ 1 1) then fQ 1 1 else bisect ok 16 (fQ 0 1) (fQ 1 1)
        let ms := (moved s).map pinv.apply
        let mAt (p g : Nat) : Fl := (ms.getD p []).getD g (fQ 0 1)
        let n := pinv.length
        let dw := (List.range n).map (fun g => fA (fA (mAt 0 g) (mAt 1 g)) (mAt 2 g))
        let k := dw.foldl (fun a x => if flLt a x then x else a) (dw.getD 0 (fQ 0 1))
        if !flLt (fQ 0 1) k then none
        else
          let place (g : Nat) : Option Nat := pinv.findIdx? (fun r => r.1 == g)
          let m := (List.range 18).map (fun q =>
            match place (q / 3) with
            | none => 0
            | some ix => flCode (fD (mAt (q % 3) ix) k) 15 65535)
          let d := dimOf b h tg.lum k dimmed
          let uses := ins.map (fun c =>
            let r := rangeOf c.cal d.di (prev.bind (fun p => (p.chans.find? (fun u => u.chan == c.chan.1)).map (fun u => u.range)))
            ⟨c.chan.1, c.role, c.excluded, kOf c, min 65535 (divHalfUp d.di (c.cal.gain r)), r, c.est⟩)
          some { groups := maskOf present, active := maskOf (pinv.map (·.1)), held := false, cal := cal, limited := d.limited
                 floor := d.floor, clip := flLt s (fQ 1 1), failed := false, m := m, dt := d.dt, di := d.di, lum := d.lum
                 sat := flCode s 15 32768, forTick := forTick, chans := uses }))

/-- A_c = K_c * s_c, U1.15 (R447), rounded half up. -/
def ChanUse.peak (u : ChanUse) : Nat := (u.k * u.scale + 2 ^ 14) / 2 ^ 15

/-- DEDUCED: assumption 45. -/
def Solve.chan (x : Solve) (c : Nat) : Option ChanUse := x.chans.find? (fun u => u.chan == c)

/-- Is a channel fault of any kind latched? -/
def Emit.faulted (e : Emit) : Bool := e.openF || e.shortF || e.driverF

end Sys2Proof.Machine
end

