-- ==== Sys2Proof/Machine/Safe.lean ====
section
/-! DEFINITION. Emission conditions, Anchor faults, device state changes and SAFE (11 R546 to R583; 17 R791 to R795;
19 R847 to R852). -/

namespace Sys2Proof.Machine

def State.modHead (s : State) (h : HeadIx) (f : Head → Head) : State := { s with head := vmod s.head h f }
def State.modEm (s : State) (c : ChanIx) (f : Emit → Emit) : State := { s with em := vmod s.em c f }
def State.modPln (s : State) (h : HeadIx) (f : Pln → Pln) : State := { s with pln := vmod s.pln h f }
def State.modScn (s : State) (h : HeadIx) (f : Scn → Scn) : State := { s with scn := vmod s.scn h f }

/-- Every head frame on its way to the array is blank. -/
def Pln.blanked (p : Pln) : Pln :=
  { p with
    shown := { p.shown with blank := true }
    loading := { p.loading with blank := true }
    coming := { p.coming with blank := true } }

/-! ## Heads -/

/-- HDT_TYPE of the active configuration. -/
def State.typeOf (s : State) (h : HeadIx) : Nat := s.pN P.HDT_TYPE h.1
def State.isPlane (s : State) (h : HeadIx) : Bool := s.typeOf h == typePlane
def State.isScan (s : State) (h : HeadIx) : Bool := s.typeOf h == typeScan

/-- Does a head run? -/
def State.running (s : State) (h : HeadIx) : Bool := (s.head[h]).on

/-- Is a running head ARMED-blank (02 R88, R89; 09 R497; 10 R511)? -/
def State.armedBlank (s : State) (h : HeadIx) : Bool :=
  let x := s.head[h]
  x.wait || Nat.blt s.tick.count x.showAt

/-- Head PLL numbers (18 Table 18-1). -/
def headPll (h : HeadIx) : PllIx := ⟨3 + h.1, by omega⟩
def State.locked (s : State) (k : PllIx) : Bool := (s.clk.pll[k]).st == .locked

/-- Are the domains of a PLL on their guard clocks, or stopped: until it is locked and realigned (18 R819, R822, R830)? -/
def State.onGuard (s : State) (k : PllIx) : Bool := !s.locked k || !(s.clk.pll[k]).aligned

/-- PLL_SNS (18 Table 18-1). -/
def pllSns : PllIx := 7

/-- The ideal instant of base period b, ps after base period 0 (12 R585). -/
def idealPs (b : Nat) : Nat := b * 1000000000000 / 192000

/-- The instant of base period b, ps after base period 0: on the guard clock since base period g, groups of six periods, one of 520
guard cycles and five of 521, from the ideal instant of g on (18 R832). DESIGN CHOICE: assumption 105. -/
def basePs (guardAt : Option Nat) (b : Nat) : Nat :=
  match guardAt with
  | some g =>
    let j := b - g
    idealPs g + j / 6 * 31250000 + (if j % 6 = 0 then 0 else 5200000 + 5210000 * (j % 6 - 1))
  | none => idealPs b

/-- The instant of the next base period, ps and ns. -/
def State.blyPs (s : State) : Int := 1000 * (s.bly.startNs : Int) + (basePs s.bly.guardAt s.bly.base : Nat)
def State.blyNs (s : State) : Nat := s.bly.startNs + basePs s.bly.guardAt s.bly.base / 1000

/-- The latest instant known: that of the last command, or of the next base period. -/
def State.latest (s : State) : Nat := max s.now s.blyNs

/-- The head of a bound channel, in the active configuration. -/
def State.boundHead (s : State) (c : ChanIx) : Option (HeadIx × Nat) :=
  let v := s.pN P.EMT_BIND c.1
  if bit v 7 then some (Fin.ofNat 4 (bits v 4 3), bits v 2 0) else none

/-! ## Emission conditions (11 R569) -/

/-- The Anchor's own motion test passes: R579. -/
def State.motionOk (s : State) (h : HeadIx) : Bool := !s.isScan h || s.anc.motion[h]

/-- Is an Anchor fault latched? -/
def State.anchorFault (s : State) : Bool := s.anc.discrepancy || s.anc.power || s.anc.halt

/-- Emission is permitted device-wide (Table 11-11 FLAGS[4]). -/
def State.emissionOn (s : State) : Bool := s.dev == .lit && s.anc.pinA && s.anc.pinB && !s.anchorFault

/-- May channel c emit (R569)? DESIGN CHOICE: assumption 60. -/
def State.permitted (s : State) (c : ChanIx) : Bool :=
  s.emissionOn && !(s.em[c]).faulted &&
    match s.boundHead c with
    | none => false
    | some (h, _) => s.typeOf h != typeNone && s.running h && !s.armedBlank h && s.locked (headPll h) && s.motionOk h

/-- The bias code before the Anchor's limit (R546, 12 Table 12-3). -/
def State.biasCode (s : State) (c : ChanIx) : Nat :=
  if s.pN P.EMT_BIAS_SRC c.1 = 1 then (s.em[c]).belayBias else s.pN P.EMT_BIAS c.1

/-- A bias code limited to EMT_MAXBIAS, with whether it was reduced (R577). -/
def State.biasLimit (s : State) (c : ChanIx) : Nat × Bool :=
  let m := s.pN P.EMT_MAXBIAS c.1
  if m < s.biasCode c then (m, true) else (s.biasCode c, false)

/-- Bring one channel's enable and bias up to date (R546, R547, R577): bias flows only while the channel is enabled, and
a code that the Anchor reduces counts when it changes. -/
def State.settleChan (s : State) (c : ChanIx) : State :=
  let on := s.permitted c
  let (b, cut) := s.biasLimit c
  s.modEm c (fun e => { e with
    en := if on then some (e.en.getD s.now) else none
    steady := e.steady && on
    probeDue := e.probeDue && on
    clamps := if on && cut && e.bias != b then inc 32 e.clamps else e.clamps
    bias := if on then b else 0 })

/-! ## Trace triggers (12 R632) -/

def State.modTrace (s : State) (f : Trace → Trace) : State := { s with bly := { s.bly with trace := f s.bly.trace } }

/-- Trigger an armed capture whose trigger channel has recorded PRE samples. DESIGN CHOICE: assumption 24. -/
def State.traceTrigger (s : State) : State :=
  s.modTrace (fun x =>
    if x.st = .armed ∧ x.pre ≤ x.count then
      { x with st := .triggered, trigBase := s.bly.base, trigTick := s.tick.count }
    else x)

/-- An event of TRIG EVENT: 0 Anchor blanking, 1 scan failure, 2 tick edge, 3 hand-over. -/
def State.traceEvent (s : State) (code : Nat) : State :=
  if s.bly.trace.trig = 4 ∧ s.bly.trace.trigCh = code then s.traceTrigger else s

def State.modTouch (s : State) (h : HeadIx) (f : Touch → Touch) : State := { s with tch := vmod s.tch h f }

/-- The IDs that are reported as present. -/
def Touch.shown (t : Touch) : List Contact := t.contacts.filter (fun c => !c.hidden)

/-- Lift every ID (14 R683, R685). -/
def Touch.liftAll (t : Touch) : Touch :=
  { t with lifted := maskOf (t.shown.map (·.id) ++ (List.range 16).filter (bit t.lifted)), contacts := [] }

/-- Restart the background of a head (14 R684, R685): frames that wait for the TOUCH task go. DEDUCED: assumption 64. -/
def State.touchRestart (s : State) (h : HeadIx) : State :=
  s.modTouch h (fun t => { t.liftAll with stage := .restart, announce := true, ready := [] })

/-- The TOUCH channel of a head. -/
def State.touchChan (s : State) (h : HeadIx) : Option ChanIx := (chansOf s.par.active h.1 roleTouch).head?

/-- A head whose TOUCH channel is permitted to emit during an active line has a head frame that is not unlit (14 R683). -/
def State.touchLit (s : State) (h : HeadIx) : State :=
  match (s.scn[h]).active, s.touchChan h with
  | some _, some c =>
    if (s.em[c]).en.isSome then s.modTouch h (fun t => { t with acc := t.acc.map (fun a => { a with lit := true }) }) else s
  | _, _ => s

/-- Bring every channel up to date after a change of a condition of R569. DESIGN CHOICE: assumption 60. -/
def State.settle (s : State) : State :=
  let t := (allFin 4).foldl State.touchLit ((allFin 48).foldl State.settleChan s)
  if (allFin 48).any (fun c => (s.em[c]).en.isSome && (t.em[c]).en.isNone) then t.traceEvent 0 else t

/-- Bring one channel up to date after a fault of it; a blanking by the Anchor is a trace event (R566, Table 11-9; 12 R632). -/
def State.settleFault (s : State) (c : ChanIx) : State :=
  let t := s.settleChan c
  if (s.em[c]).en.isSome && (t.em[c]).en.isNone then t.traceEvent 0 else t

/-- Limit a modulation code to EMT_MAXCODE and count a reduction (R577). -/
def State.limitCode (s : State) (c : ChanIx) (code : Nat) : State × Nat :=
  let m := s.pN P.EMT_MAXCODE c.1
  if m < code then (s.modEm c (fun e => { e with clamps := inc 32 e.clamps }), m) else (s, code)

/-- Is the head presented blank, every channel with code 0 (02 R64, 13 R660)? -/
def State.blankNow (s : State) (h : HeadIx) : Bool := if s.isPlane h then (s.pln[h]).shown.blank else (s.head[h]).blank

/-- Does a pulse that starts at step `start` after an instant in ps start within 10 us of an enable at t ns (R547)? -/
def tooEarly (t base : Nat) (start : Int) : Bool := decide ((base : Int) + 25 * start < (1000 * (t + 10000) : Nat))

/-- One pulse of a channel, its start counted from an instant in ps (R539 to R541, R547, R577): a blank channel emits nothing,
within 10 us of its enable a pulse carries code 0, and successive pulses load alternate cores. Energy is counted for the
diagnosis (R560). -/
def State.pulse (s : State) (c : ChanIx) (base : Nat) (code : Nat) (start : Int) (len gain : Nat) : State :=
  match (s.em[c]).en with
  | none => s
  | some t =>
    if len = 0 then s
    else
      let (s, code) := s.limitCode c (if tooEarly t base start then 0 else code)
      let core : Fin 2 := (s.em[c]).core + 1
      let s := s.modEm c (fun e => { e with
        sums := { e.sums with e := e.sums.e + code * len * gain }, cores := vset e.cores core code, core := core })
      if code = 0 then s else s.emit (.pulse c core code start len)

/-! ## SAFE (17 R791) -/

/-- SAFE causes (Table 17-5). -/
def causeHost : Nat := 1
def causeHalt : Nat := 2
def causeDiscrepancy : Nat := 3
def causePower : Nat := 4
def causeTemperature : Nat := 5
def causePll : Nat := 6
def causeMemory : Nat := 7

/-- Enter SAFE for a cause. In SAFE nothing more happens; in HOLD the device is in SAFE when HOLD ends (19 Table 19-3);
in BOOT it leaves BOOT into SAFE (R793). DEDUCED: assumption 84. -/
def State.enterSafe (s : State) (cause : Nat) : State :=
  match s.dev with
  | .safe => s
  | .hold => if s.pwr.holdSafe = 0 then { s with pwr := { s.pwr with holdSafe := cause } } else s
  | .boot => if s.flt.safeCause = 0 then { s with flt := { s.flt with safeCause := cause } } else s
  | _ =>
    let s := s.log 0 1 clsDevice 0xFF [byteOf cause]
    { s with dev := .safe, flt := { s.flt with safeCause := cause } }.settle

/-- An Anchor fault: code of Table 11-11. -/
inductive AncFault where
  | discrepancy
  | power (c : ChanIx)
  | halt
  deriving DecidableEq, Repr

def AncFault.code : AncFault → Nat
  | .discrepancy => 1
  | .power _ => 2
  | .halt => 3

/-- Is this fault latched already? -/
def State.latchedAlready (s : State) : AncFault → Bool
  | .discrepancy => s.anc.discrepancy
  | .power _ => s.anc.power
  | .halt => s.anc.halt

/-- Latch an Anchor fault and enter SAFE (R573, R578, R581; 03 R166). The entry of a HALT is written with its reply. -/
def State.latchAnchor (s : State) (f : AncFault) : State :=
  if s.latchedAlready f then s
  else
    let first := !s.anchorFault
    let ch := match f with
      | .power c => c.1
      | _ => 0xFF
    let a := match f with
      | .discrepancy => { s.anc with discrepancy := true }
      | .power _ => { s.anc with power := true }
      | .halt => { s.anc with halt := true }
    let a := if first then { a with fault := f.code, faultCh := ch, faultTick := s.tick.count } else a
    let s := { s with anc := a }.settle
    let s := match f with
      | .halt => s
      | _ => s.log 3 f.code clsDevice ch []
    s.enterSafe (match f with
      | .discrepancy => causeDiscrepancy
      | .power _ => causePower
      | .halt => causeHalt)

/-! ## Device state changes -/

/-- Leave LIT for ARMED (R571). -/
def State.toArmed (s : State) : State := { s with dev := .armed }.settle

/-- HOLD entry (19 R847, R848) for a rail at a level. -/
def State.enterHold (s : State) (core a18 : Bool) (mv : Nat) : State :=
  let prior := s.dev
  let s := { s with
    dev := .hold
    pwr := { s.pwr with
      holdFrom := prior, holdAt := s.now, holdCore := core, holdA18 := a18, vmin := mv, missed := 0, holdDrop := false
      holdSafe := 0, holds := inc 32 s.pwr.holds } }.settle
  let s := s.log 0 5 clsInfo 0xFF ([byteOf (if core && a18 then 2 else if a18 then 1 else 0), 1#8, byteOf prior.code, 0#8] ++
    zeros 4 ++ toBE 2 mv ++ zeros 2)
  s.raise evBrownoutWarn ([byteOf (if core && a18 then 2 else if a18 then 1 else 0), 1#8, byteOf prior.code, 0#8] ++
    zeros 4 ++ toBE 2 mv ++ zeros 2)

end Sys2Proof.Machine
end

