-- ==== Sys2Proof/Machine/Acm.lean ====
section
/-! DEFINITION. Agfold Control Messages: the checks of a datagram, sequence handling, the order of execution, the journal,
HELLO, events' acknowledgement and HALT (03 R108 to R142, R155 to R169, R960 to R963, R974). -/

namespace Sys2Proof.Machine

/-! ## Datagrams (R109 to R117) -/

/-- A message as its header gives it (Table 3-1). -/
structure Dgram where
  typ     : Nat
  mailbox : Nat
  session : Nat
  seq     : Nat
  irt     : Nat
  device  : Nat
  epoch   : Nat
  body    : Bytes
  deriving DecidableEq, Repr

def dgramOf (b : Bytes) : Dgram :=
  ⟨be16 b 4, u8 b 6, u8 b 7, be32 b 8, be32 b 12, u8 b 20, be32 b 22, slice b 32 (b.length - 48)⟩

/-- The form R109 asks of a datagram. DESIGN CHOICE: assumption 17. -/
def dgramForm (b : Bytes) : Bool :=
  decide (48 ≤ b.length) && b.length == 48 + be16 b 16 && decide (be16 b 16 ≤ 8192) && be16 b 0 == 0x4146 && u8 b 2 == 3 &&
    decide (u8 b 7 < 4)

/-- A datagram with FWD set or cleared (16 R766). -/
def withFwd (b : Bytes) (on : Bool) : Bytes := splice b 3 [byteOf (u8 b 3 - b2n (bit (u8 b 3) 3) * 8 + b2n on * 8)]

/-- The tag is right (R110; 16 R766). -/
def dgramTagOk (key b : Bytes) : Bool :=
  let m := withFwd b false
  m.drop (m.length - 16) == tagOf key (m.take (m.length - 16))

def typHalt : Nat := 0x0001
def typHello : Nat := 0x0010
def typBye : Nat := 0x0011
def typParamSet : Nat := 0x0020
def typParamGet : Nat := 0x0021
def typCommit : Nat := 0x0022
def typAbort : Nat := 0x0023
def typAlloc : Nat := 0x0030
def typFree : Nat := 0x0031
def typWrite : Nat := 0x0032
def typStatus : Nat := 0x0033
def typPlan : Nat := 0x0040
def typState : Nat := 0x0050
def typTraceArm : Nat := 0x0060
def typTraceRead : Nat := 0x0061
def typFwBegin : Nat := 0x0070
def typFwData : Nat := 0x0071
def typFwCommit : Nat := 0x0072
def typEvent : Nat := 0x0080
def typEventAck : Nat := 0x0081
def typIslandRead : Nat := 0x0090
def typPeek : Nat := 0x00A0
def typPoke : Nat := 0x00A1
def typReset : Nat := 0x00F0

/-- The types of a request that Table 3-10 lists and that is sequenced. -/
def knownTypes : List Nat :=
  [typBye, typParamSet, typParamGet, typCommit, typAbort, typAlloc, typFree, typWrite, typStatus, typPlan, typState,
    typTraceArm, typTraceRead, typFwBegin, typFwData, typFwCommit, typIslandRead, typPeek, typPoke, typReset]

/-- A reply that at most one per session goes out in `gap` ns: may it go? -/
def State.mayAnswer (s : State) (last : Option Nat) (gap : Nat) : Bool :=
  match last with
  | none => true
  | some t => decide (t + gap ≤ s.now)

/-- A wrong tag (R112). -/
def State.badTag (s : State) (dst : ReplyTo) (q : SessIx) (d : Dgram) : State :=
  let x := s.acm.sess[q]
  let s := s.modSess q (fun x => { x with authFail := inc 32 x.authFail })
  if s.mayAnswer x.lastAuth 10000000 then
    (s.modSess q (fun x => { x with lastAuth := some s.now })).reply dst 0 d.typ d.mailbox q d.seq .errAuth []
  else s

/-- Does R117 refuse it? A request that names another device and comes here is not one the master forwards. -/
def State.refusedDevice (s : State) (d : Dgram) : Bool :=
  decide (16 ≤ d.mailbox) || !(d.device == 0xFE || d.device == s.devNum)

/-- Does the master forward it (R116)? DEDUCED: assumption 76. -/
def State.forwards (s : State) (d : Dgram) : Bool := s.cas.role == .master && s.present d.device

/-- Keep what a route needs of a forwarded request (16 R767). -/
def forwardedOf (d : Dgram) : Option Forwarded :=
  if d.typ = typWrite then some ⟨d.session, d.seq, d.device, d.typ, u8 d.body 4, if u8 d.body 4 = 0 then d.seq else be32 d.body 8, be32 d.body 0⟩
  else if d.typ = typFree then some ⟨d.session, d.seq, d.device, d.typ, 0, 0, be32 d.body 0⟩
  else none

/-- The body of an ACM frame that carries a datagram. DESIGN CHOICE: assumption 71. -/
def acmFrameBody (port udp ip : Nat) (b : Bytes) : Bytes := [0#8, byteOf port] ++ toBE 2 udp ++ toBE 4 ip ++ b

/-- Forward a request (16 R766). DEDUCED: assumption 76. -/
def State.forwardRequest (s : State) (dst : ReplyTo) (d : Dgram) (b : Bytes) : State :=
  let port := match dst.via with
    | .eth p => p.1
    | .trav _ r => r % 256
  let s := match forwardedOf d with
    | none => s
    | some f => s.modCas (fun c => { c with fwd := (f :: c.fwd.filter (· != f)).take 1024 })
  s.travSend kindAcm d.device (acmFrameBody port dst.udp dst.ip (withFwd b true))

/-! ## Sequence handling (Table 3-6) -/

/-- Messages a mailbox holds, accepted or held (R132). -/
def State.mailboxCount (s : State) (m : Nat) : Nat :=
  (s.acm.accepted.filter (fun x => x.mailbox == m)).length +
    s.acm.sess.toList.foldl (fun a x => a + (x.held.filter (fun y => y.mailbox == m)).length) 0

def State.mailboxFull (s : State) (m : Nat) : Bool := decide (64 ≤ s.mailboxCount m)

/-- A NAK (R128). -/
def State.nak (s : State) (dst : ReplyTo) (q : SessIx) (d : Dgram) : State :=
  let x := s.acm.sess[q]
  if s.mayAnswer x.lastNak 5000000 then
    (s.modSess q (fun x => { x with lastNak := some s.now })).reply dst flagNak d.typ d.mailbox q d.seq .errSeq (toBE 4 x.next)
  else s

/-- Accept a message: E becomes E + 1. -/
def State.accept (s : State) (m : Msg) : State :=
  let s := s.modSess m.session (fun x => { x with next := m.seq + 1 })
  { s with acm := { s.acm with accepted := s.acm.accepted ++ [{ m with order := s.acm.order }], order := s.acm.order + 1 } }

/-- Accept the held messages that follow contiguously (R129). -/
def State.acceptHeld : Nat → SessIx → State → State
  | 0, _, s => s
  | n + 1, q, s =>
    let x := s.acm.sess[q]
    match x.held.find? (fun m => m.seq == x.next) with
    | none => s
    | some m => State.acceptHeld n q ((s.modSess q (fun x => { x with held := x.held.filter (fun y => y.seq != m.seq) })).accept m)

/-- Repeat a cached reply (R130, R137). DESIGN CHOICE: assumption 21. -/
def State.repeatReply (s : State) (dst : ReplyTo) (q : SessIx) (c : Cached) : State :=
  s.sendAcmAs c.device dst (s.pN P.SYS_ACM_PORT) (flagDup + (if c.trunc then flagTrunc else 0)) c.typ c.mailbox q 0 c.seq c.status
    c.tick c.payload

/-- Treat an authenticated sequenced request of an OPEN session as Table 3-6 gives. A full mailbox drops what would be accepted
or held (R132). DEDUCED: assumption 95. -/
def State.sequence (s : State) (dst : ReplyTo) (q : SessIx) (d : Dgram) : State :=
  let x := s.acm.sess[q]
  let e := x.next
  let m : Msg := ⟨q, d.seq, d.typ, d.mailbox, d.device, d.body, dst, 0, false⟩
  let full (s : State) : State := { s with acm := { s.acm with drops := inc 32 s.acm.drops } }
  if d.seq = 0 ∨ e + 64 < d.seq then s.nak dst q d
  else if d.seq = e then
    if s.mailboxFull d.mailbox then full s else State.acceptHeld 64 q (s.accept m)
  else if e < d.seq then
    if x.held.any (fun y => y.seq == d.seq) then s.nak dst q d
    else if s.mailboxFull d.mailbox then full s
    else (s.modSess q (fun x => { x with held := x.held ++ [m] })).nak dst q d
  else if e ≤ d.seq + 256 then
    match x.cache.find? (fun c => c.seq == d.seq) with
    | some c => s.repeatReply dst q c
    | none => s
  else s.reply dst flagDup d.typ d.mailbox q d.seq .errSeq []

/-! ## An arriving request (R960) -/

/-- The steps of R960 for a request that is not forwarded. -/
def State.receive (s : State) (dst : ReplyTo) (q : SessIx) (d : Dgram) : State :=
  let x := s.acm.sess[q]
  if d.typ ≠ typHello ∧ d.epoch ≠ s.acm.epoch then s.reply dst 0 d.typ d.mailbox q d.seq .errSeq []
  else if s.refusedDevice d then
    if s.mayAnswer x.lastRefusal 10000000 then
      (s.modSess q (fun x => { x with lastRefusal := some s.now })).reply dst 0 d.typ d.mailbox q d.seq .errParam []
    else s
  else if d.typ = typHello then
    { s with acm := { s.acm with hellos := s.acm.hellos ++ [⟨q, d.seq, d.mailbox, d.epoch, d.body, dst⟩] } }
  else if !x.open_ then s.reply dst 0 d.typ d.mailbox q d.seq .errState []
  else if d.typ = typEventAck then { s with acm := { s.acm with acks := s.acm.acks ++ [(q, d.irt)] } }
  else s.sequence dst q d

/-- A datagram on SYS_ACM_PORT, or in an ACM frame, that is no HALT for the classifier: R109, R111, R112, R116, R156,
R974, then R960. -/
def State.acmDatagram (s : State) (dst : ReplyTo) (b : Bytes) : State :=
  let d := dgramOf b
  if s.dev = .boot ∨ dgramForm b = false ∨ d.typ = typHalt ∨ s.acmSourceOk dst.ip b = false then s
  else
    let q := Fin.ofNat 4 d.session
    match s.acm.keys[q] with
    | none => s
    | some key =>
      if !dgramTagOk key b then s.badTag dst q d
      else
        let s := s.modSess q (fun x => { x with addr := some dst })
        if s.forwards d then s.forwardRequest dst d b else s.receive dst q d

/-- ACM_REQUEST_RX (R108, R960): the oldest control datagram of a port. DESIGN CHOICE: assumption 5. -/
def execAcmRequestRx (t : Nat) (p : PortIx) (s : State) : Res :=
  let s := s.atTime t
  match s.takeFrame p isAcm with
  | some (.acm ip port b, s) => .next (s.acmDatagram ⟨.eth p, ip, port⟩ b)
  | _ => .next s

/-! ## Execution (R133 to R139) -/

/-- The one to execute first of two messages (R133). -/
def Msg.first (a b : Msg) : Msg := if b.mailbox < a.mailbox ∨ (b.mailbox = a.mailbox ∧ b.order < a.order) then b else a

/-- The oldest of each session, in a list in order of acceptance. -/
def heads (l : List Msg) : List Msg := (allFin 4).filterMap (fun q => l.find? (fun m => m.session == q))

/-- The message the device executes next (R133, R140, R156). DESIGN CHOICE: assumption 5. -/
def State.chosen (s : State) : Option Msg :=
  if s.dev = .boot then none
  else match s.acm.intent with
    | some m => some m
    | none =>
      let old := s.acm.accepted.filter (·.old)
      match heads (if old.isEmpty then s.acm.accepted else old) with
      | [] => none
      | m :: r => some (r.foldl Msg.first m)

/-- The message leaves the journal's list of those that wait. -/
def State.drop (s : State) (m : Msg) : State :=
  { s with acm := { s.acm with
      intent := if s.acm.intent = some m then none else s.acm.intent
      accepted := if s.acm.intent = some m then s.acm.accepted else s.acm.accepted.erase m } }

/-- Tell the master of a transfer that came over a Traverse port and has ended (16 R768). -/
def State.releaseRoutes (s : State) : State :=
  let open_ (r : Remote) : Bool := s.surf.tbl.any (fun e => match e.2.writer with
    | none => false
    | some w => w.session.1 == r.session && w.writeId == r.writeId)
  let gone := s.cas.remote.filter (fun r => !open_ r)
  gone.foldl (fun s r => s.travSend kindAcm r.master ([1#8, byteOf r.session] ++ toBE 4 r.writeId))
    (s.modCas (fun c => { c with remote := c.remote.filter open_ }))

/-- A transfer of a forwarded OPEN is open here: the master holds a route for it (16 R767, R768). -/
def State.noteRemote (s : State) (m : Msg) (st : Status) : State :=
  match m.reply.via with
  | .eth _ => s
  | .trav p r =>
    if m.typ = typWrite ∧ st = .ok then
      if u8 m.body 4 = 0 then s.modCas (fun c => { c with remote := ⟨m.session.1, m.seq, p, r / 256⟩ :: c.remote })
      else s.modCas (fun c => { c with remote := c.remote.filter (fun x =>
        !(x.session == m.session.1 && x.writeId == be32 m.body 8 &&
          !(s.surf.tbl.any (fun e => match e.2.writer with
            | none => false
            | some w => w.session == m.session && w.writeId == be32 m.body 8)))) })
    else s

/-- Complete a message: its result is cached, then sent (R136 to R138, R144, R157). DESIGN CHOICE: assumption 20. -/
def State.finish (s0 : State) (m : Msg) (a : Answer) : State :=
  let (s, st, payload) := a
  let long := decide (64 < payload.length)
  let c : Cached := ⟨m.seq, m.typ, m.mailbox, s.devNum, st.code, s0.tick.count, s0.acm.epoch, long, if long then [] else payload⟩
  let s := (s.drop m).modSess m.session (fun x => { x with lastExec := m.seq, cache := (c :: x.cache).take 256 })
  let s := s.sendAcm m.reply (s0.pN P.SYS_ACM_PORT) 0 m.typ m.mailbox m.session 0 m.seq st.code s0.tick.count payload
  (s.noteRemote m st).releaseRoutes

/-- Execute the chosen message if it is of the kind asked for. DESIGN CHOICE: assumption 5. DESIGN CHOICE: assumption 20. -/
def runMessage (want : Msg → Bool) (f : State → Msg → Answer) (s : State) : Res :=
  match s.chosen with
  | some m => if want m then .next (s.finish m (f s m)) else .next s
  | none => .next s

def isType (t : Nat) (m : Msg) : Bool := m.typ == t

/-! ## HELLO, BYE (R118 to R125, Tables 3-3 to 3-5) -/

/-- SYS_PART, SYS_STEPPING and SYS_FW_RELEASE (00 Table 0-3). -/
def sysPart : Nat := 0x4896
def sysStepping : Nat := 0xB1
def sysFwRelease : Nat := 0x0302

/-- The HELLO reply (Table 3-4). -/
def State.helloReply (s : State) (q : SessIx) : Bytes :=
  let x := s.acm.sess[q]
  toBE 4 s.acm.epoch ++ toBE 4 x.next ++ toBE 4 x.lastExec ++ toBE 4 x.evNext ++
    [byteOf s.dev.code, byteOf (if x.commission then 2 else 0)] ++ toBE 2 sysPart ++
    [byteOf sysStepping, byteOf (b2n Config.variantNx)] ++ toBE 2 sysFwRelease ++ toBE 8 s.tick.count ++ toBE 8 (deviceDigest s.par.accA) ++ zeros 8

/-- A new sequence space (R122). -/
def Session.fresh (x : Session) (commission : Bool) (count mask : Nat) : Session :=
  { x with open_ := true, commission := commission, next := 1, lastExec := 0, evNext := 1, mask := mask, helloCount := count,
           cache := [], held := [], events := [], lost := 0 }

/-- The status a HELLO gets (R960 step 3). -/
def State.helloStatus (s : State) (x : Hello) : Status :=
  let e := s.acm.sess[x.session]
  let mode := u8 x.body 0
  if x.body.length ≠ 12 then .errParam
  else if x.epoch ≠ s.acm.epoch ∨ be32 x.body 4 ≤ e.helloCount then .errSeq
  else if 2 < mode then .errRange
  else if mode = 1 ∧ e.open_ = false then .errState
  else if mode = 2 ∧ s.acm.commKey[x.session] = false then .errAuth
  else .ok

/-- Execute a HELLO. -/
def State.hello (s : State) (x : Hello) : State :=
  let q := x.session
  let st := s.helloStatus x
  let count := be32 x.body 4
  let mask := be32 x.body 8
  let s := { s with acm := { s.acm with hellos := s.acm.hellos.erase x } }
  if st ≠ .ok then s.reply x.reply 0 typHello x.mailbox q x.seq st []
  else
    let s :=
      if u8 x.body 0 = 1 then s.modSess q (fun e => { e with mask := mask, helloCount := count })
      else
        let s := { s with surf := { s.surf with refused := s.surf.refused.filter (fun r => r.1 != q.1) } }
        s.modSess q (fun e => e.fresh (u8 x.body 0 == 2) count mask)
    s.reply x.reply 0 typHello x.mailbox q x.seq .ok (s.helloReply q)

/-- May a HELLO execute (R125, and R140 for the messages of before a WARM reset)? DESIGN CHOICE: assumption 21. -/
def State.helloReady (s : State) (x : Hello) : Bool :=
  s.dev != .boot && s.acm.intent.isNone && !s.acm.accepted.any (fun m => m.session == x.session || m.old)

/-- Execute the first HELLO that may execute, if it is of the kind asked for. DESIGN CHOICE: assumption 21. -/
def State.runHello (s : State) (want : Hello → Bool) : State :=
  match s.acm.hellos.find? s.helloReady with
  | some x => if want x then s.hello x else s
  | none => s

def helloMode (x : Hello) : Nat := u8 x.body 0

/-- HELLO_NEW (R120 to R122): MODE 0; and a HELLO of wrong length or reserved MODE, which it refuses. -/
def execHelloNew (s : State) : Res := .next (s.runHello (fun x => x.body.length != 12 || helloMode x == 0 || decide (2 < helloMode x)))

/-- HELLO_RESUME (R123): MODE 1. -/
def execHelloResume (s : State) : Res := .next (s.runHello (fun x => x.body.length == 12 && helloMode x == 1))

/-- HELLO_NEW_COMMISSIONING (R124): MODE 2. -/
def execHelloNewCommissioning (s : State) : Res := .next (s.runHello (fun x => x.body.length == 12 && helloMode x == 2))

/-- BYE (Table 3-5, R139): after the reply the session is CLOSED, and what follows it is discarded. -/
def execBye (s : State) : Res :=
  match s.chosen with
  | some m =>
    if m.typ ≠ typBye then .next s
    else if m.body.length ≠ 0 then .next (s.finish m (refuse s .errParam))
    else
      let s := s.finish m (s, .ok, [])
      let s := s.modSess m.session (fun x => { x with open_ := false, cache := [], held := [], events := [], lost := 0 })
      .next { s with acm := { s.acm with
        accepted := s.acm.accepted.filter (fun x => x.session != m.session)
        acks := s.acm.acks.filter (fun a => a.1 != m.session) } }
  | none => .next s

/-- UNKNOWN_REQUEST (R155): a type that Table 3-10 does not list as one the host sends is refused once accepted. -/
def execUnknownRequest (s : State) : Res := runMessage (fun m => !knownTypes.contains m.typ) (fun s _ => refuse s .errParam) s

/-! ## Events (R160 to R163) -/

/-- EVENT_ACK (R160): the oldest one received. -/
def execEventAck (s : State) : Res :=
  match s.acm.acks with
  | [] => .next s
  | (q, n) :: rest =>
    let s := { s with acm := { s.acm with acks := rest } }
    if (s.acm.sess[q]).events.any (fun e => e.seq == n && e.due.isSome) then
      .next (s.modSess q (fun x => { x with events := x.events.filter (fun e => Nat.blt n e.seq) }))
    else .next s

/-- Does one event fall due before another, or with it and before it in sequence (R161)? -/
def QEvent.before (f e : QEvent) : Bool :=
  match f.due, e.due with
  | some a, some b => Nat.blt a b || (a == b && Nat.blt f.seq e.seq)
  | _, _ => false

/-- EVENT_RETRANSMIT (R161): an event whose timer has run out is sent again, after those that fell due before it. -/
def execEventRetransmit (t : Nat) (q : SessIx) (seq : Nat) (s : State) : Res :=
  let s := s.atTime t
  let l := (s.acm.sess[q]).events
  match l.find? (fun e => e.seq == seq) with
  | some e =>
    match e.due with
    | some d => if s.dev ≠ .boot ∧ d ≤ s.now ∧ l.all (fun f => !f.before e) = true then .next (s.sendEvent q e) else .next s
    | none => .next s
  | none => .next s

/-! ## HALT (R164 to R169) -/

/-- Is a HALT for this device? -/
def State.haltMine (s : State) (d : Dgram) : Bool := d.device == s.devNum || d.device == 0xFE || d.device == 0xFF

/-- Is a HALT's counter above the last one accepted (R164)? -/
def State.haltFresh (s : State) (q : SessIx) (d : Dgram) : Bool := Nat.blt (s.acm.sess[q]).haltCount d.seq

/-- The classifier acts on an authentic HALT of the current epoch for this device, or leaves the reply alone to the
firmware when its counter is not fresh (R164 to R168). DESIGN CHOICE: assumption 21. -/
def State.haltAct (s : State) (dst : Option ReplyTo) (q : SessIx) (d : Dgram) : State :=
  let fresh := s.haltFresh q d
  let s := { s with acm := { s.acm with halts := s.acm.halts ++ [⟨q, d.mailbox, d.seq, be16 d.body 0, dst, fresh⟩] } }
  if fresh then (s.modSess q (fun x => { x with haltCount := d.seq })).latchAnchor .halt else s

/-- Forward a HALT over the Traverse ports: a fresh one for every device (R168, R169), or the master's one that names another
(16 R770). DEDUCED: assumption 76. -/
def State.haltForward (s : State) (q : SessIx) (d : Dgram) (b : Bytes) : State :=
  if d.device = 0xFF then if !s.haltFresh q d then s else s.travSend kindHalt 0xFF (withFwd b true)
  else if s.forwards d then s.travSend kindHalt d.device (withFwd b true)
  else s

/-- HALT (R164): the oldest of a port's HALT slot. -/
def execHalt (t : Nat) (p : PortIx) (s : State) : Res :=
  let s := s.atTime t
  match s.eth.halt[p] with
  | [] => .next s
  | x :: rest =>
    let s := { s with eth := { s.eth with halt := vset s.eth.halt p rest } }
    match x.payload with
    | .acm ip port b =>
      let d := dgramOf b
      let q := Fin.ofNat 4 d.session
      let dst : ReplyTo := ⟨.eth p, ip, port⟩
      if s.dev = .boot ∨ dgramForm b = false then .next s
      else match s.acm.keys[q] with
        | none => .next s
        | some key =>
          if !dgramTagOk key b then .next (s.badTag dst q d)
          else
            let s := s.modSess q (fun x => { x with addr := some dst })
            if d.epoch ≠ s.acm.epoch then .next (s.reply dst 0 typHalt d.mailbox q d.seq .errSeq [])
            else
              let s := s.haltForward q d b
              .next (if s.haltMine d then s.haltAct (some dst) q d else s)
    | _ => .next s

/-- HALT_REPLY (R168): the firmware answers and logs the oldest HALT on which the classifier has acted. DESIGN CHOICE:
assumption 98. -/
def execHaltReply (s : State) : Res :=
  match s.acm.halts with
  | [] => .next s
  | x :: rest =>
    if s.dev = .boot then .next s
    else
      let s := { s with acm := { s.acm with halts := rest } }
      let s := if x.acted then s.log 3 3 clsDevice 0xFF ([byteOf x.session.1] ++ toLE 2 x.reason) else s
      match x.reply with
      | none => .next s
      | some dst => .next (s.reply dst 0 typHalt x.mailbox x.session x.counter .ok [])

end Sys2Proof.Machine
end

