-- ==== Sys2Proof/Machine/Thermal.lean ====
section
/-! DEFINITION. Thermal sensing, throttling and the rope clock level (20 R882 to R897). -/

namespace Sys2Proof.Machine

/-- The thermal input's code (Table 20-1). -/
def thermCode : ThermIn → Nat
  | .die d => d.1
  | .remote s => 0x20 + s.1

/-- A temperature in 0.01 degC from a rational: rounded down and truncated. DEDUCED: assumption 91. -/
def tempOf (n : Int) (d : Nat) : Int × Int := (n / (d : Int), truncDiv n d)

/-- The temperature a remote conversion forms (R884, R885); none where the formulas give none. -/
def State.remoteTemp (s : State) (i : Fin 16) : ThermReading → Option (Int × Int)
  | .die _ => none
  | .diode v10 v100 =>
    -- in 0.01 K: dV * q / (eta * k * ln 10), q / k = 16021766340 / 1380649 K/V exactly
    let num := ((v100 : Int) - v10) * 16021766340 * 16384
    let centi := fxDiv (fxRat num (13806490000000 * s.pN P.THM_IDEAL i.1)) (fxLn (10 * fxOne))
    some (tempOf (centi + fxRat (-27315 + s.pI P.THM_OFFSET i.1) 1) fxOne)
  | .ntc x =>
    if x = 0 ∨ 2 ^ 24 ≤ x then none
    else
      let r := fxRat ((s.pN P.THM_RREF i.1 : Int) * x) ((2 ^ 24 - x) * s.pN P.THM_R25 i.1)
      let inv := fxRat 100 29815 + fxLn r.toNat / (s.pN P.THM_BETA i.1 : Int)
      if inv ≤ 0 then none
      else some (tempOf (fxDiv (fxRat 100 1) inv + fxRat (-27315 + s.pI P.THM_OFFSET i.1) 1) fxOne)

/-- Is a remote conversion bad (R886)? -/
def State.remoteBad (s : State) (i : Fin 16) (r : ThermReading) (t : Int) : Bool :=
  match r with
  | .diode _ v100 => decide (v100 < 200000000) || decide (1000000000 < v100) || decide (t < -5500) || decide (20000 < t)
  | .ntc x => decide (x * 100 < 2 * 2 ^ 24) || decide (98 * 2 ^ 24 < x * 100)
  | .die _ => s.pN P.THM_MODE i.1 == 0

/-- Levels of an input: warning, throttle, critical, hysteresis, step 2 (R888). -/
structure Levels where
  warn  : Int
  throt : Int
  crit  : Int
  hyst  : Int
  step  : Option Int
  deriving DecidableEq, Repr

/-- The levels of an input (R889, R890). DEDUCED: assumption 91. -/
def State.levels (s : State) : ThermIn → Levels
  | .die _ => ⟨s.pI P.THM_DIE_WARN, s.pI P.THM_DIE_THROT, 12500, 200, some (s.pI P.THM_DIE_THROT + s.pI P.THM_DIE_STEP2)⟩
  | .remote i => ⟨s.pI P.THM_WARN i.1, s.pI P.THM_THROT i.1, s.pI P.THM_CRIT i.1, s.pI P.THM_HYST i.1, none⟩

/-- Judge one conversion against the levels (R889, R890). DEDUCED: assumption 91. -/
def Therm.judge (x : Therm) (l : Levels) (t : Int) : Therm :=
  let run (n : Nat) (at_ : Bool) : Nat := if at_ then min 2 (n + 1) else 0
  let nWarn := run x.nWarn (decide (l.warn ≤ t))
  let nThrot := run x.nThrot (decide (l.throt ≤ t))
  { x with
    nWarn := nWarn
    nThrot := nThrot
    nStep := run x.nStep (match l.step with
      | some v => decide (v ≤ t)
      | none => false)
    warn := if x.warn then decide (l.warn - l.hyst ≤ t) else nWarn == 2
    throt := if x.throt then decide (l.throt - l.hyst ≤ t) else nThrot == 2
    crit := if x.crit then decide (l.crit - l.hyst ≤ t) else decide (l.crit ≤ t) }

/-- KIND of Table 20-1: 0 NORMAL, 1 WARN, 2 THROTTLE, 3 CRITICAL, 4 FAULT. -/
def Therm.kind (x : Therm) : Nat := if x.fault then 4 else if x.crit then 3 else if x.throt then 2 else if x.warn then 1 else 0

def State.therm (s : State) : ThermIn → Therm
  | .die d => s.thm.die[d]
  | .remote i => s.thm.rem[i]

def State.setTherm (s : State) (i : ThermIn) (x : Therm) : State :=
  match i with
  | .die d => { s with thm := { s.thm with die := vset s.thm.die d x } }
  | .remote j => { s with thm := { s.thm with rem := vset s.thm.rem j x } }

/-- The rope level set: that of a DIV_GO that is held, else the level in effect (18 R833). -/
def State.levelSet (s : State) : Nat := s.clk.divHeld.getD s.clk.level

/-- EV_THERMAL DATA (Table 20-1). -/
def State.thermData (s : State) (input kind : Nat) (temp limit : Int) : Bytes :=
  [byteOf input, byteOf kind, byteOf s.levelSet, 0#8] ++ toSBE 2 temp ++ toSBE 2 limit ++ toBE 4 s.tick.count

/-- The level crossed between two kinds. -/
def Levels.crossed (l : Levels) (old new : Nat) : Int :=
  match max old new with
  | 3 => l.crit
  | 2 => l.throt
  | _ => l.warn

/-- The rope level the sensors call for (R893). -/
def State.wantLevel (s : State) : Nat :=
  if s.thm.step2 then 2 else if s.thm.die.toList.any (fun x => x.throt) then 1 else 0

/-- Change the rope level: entry, and the event at the tick's end (R894, R897). The divider step is held while PLL_ENG is not
locked and aligned (18 R833). -/
def State.setLevel (s : State) (n : Nat) : State :=
  let s := { s with clk := if s.onGuard 1 then { s.clk with divHeld := some n } else { s.clk with level := n } }
  let d := s.thermData 0xFF 6 0 0
  { s with thm := { s.thm with levelAt := some s.now, levelEv := some d } }.log 0x24 5 clsInfo 0xFF d

/-- A rise of the level takes effect at the conversion that decides it (R894). DEDUCED: assumption 91. -/
def State.raiseLevel (s : State) : State :=
  let step (x : Therm) : Bool := x.nStep == 2
  let low : Int := s.pI P.THM_DIE_THROT + s.pI P.THM_DIE_STEP2 - 200
  let on := if s.thm.step2 then !(s.thm.die.toList.all (fun x => decide (x.low < low))) else s.thm.die.toList.any step
  let s := { s with thm := { s.thm with step2 := on } }
  if s.levelSet < s.wantLevel then s.setLevel s.wantLevel else s

/-- Entries of a transition (Table 20-2), and its event (R897). -/
def State.transition (s : State) (i : ThermIn) (old new : Therm) (t : Int) (l : Levels) : State :=
  if old.kind = new.kind then s
  else
    let k := new.kind
    let input := thermCode i
    let d := if k = 4 then s.thermData input 4 0 0 else s.thermData input k t (l.crossed old.kind k)
    let s := s.setTherm i { new with ev := some d }
    let s := if new.throt && !old.throt then
        ({ s with thm := { s.thm with throttles := inc 32 s.thm.throttles } }).log 0x24 1 clsInfo input d else s
    let s := if old.throt && !new.throt then s.log 0x24 2 clsInfo input d else s
    let s := if k = 3 then s.log 0x24 3 clsDevice input d else s
    if k = 4 then s.log 0x24 4 clsInfo input d else s

/-- A conversion of a temperature (R882, R886 to R894). DEDUCED: assumption 91. -/
def State.convert (s : State) (i : ThermIn) (low trunc : Int) (bad : Bool) : State :=
  let old := s.therm i
  let l := s.levels i
  let nBad := if bad then min 2 (old.nBad + 1) else 0
  let nGood := if bad then 0 else min 16 (old.nGood + 1)
  let fault := if old.fault then decide (nGood < 16) else decide (nBad = 2)
  let x := old.judge l low
  let x := { x with
    nBad := nBad
    nGood := nGood
    fault := fault
    good := if bad then old.good else trunc
    temp := if fault then (if bad then old.good else trunc) else trunc
    low := low
    sum := if bad then x.sum else x.sum + trunc
    n := if bad then x.n else x.n + 1 }
  let s := (s.setTherm i x).transition i old x trunc l
  let s := match i with
    | .die _ => s.raiseLevel
    | .remote _ => s
  if l.crit ≤ low then
    let s := if s.dev = .safe then s else s.log 3 4 clsDevice 0xFF []
    s.enterSafe causeTemperature
  else s

/-- Does a reading fit its input's mode? -/
def State.readingFits (s : State) (i : ThermIn) (r : ThermReading) : Bool :=
  match i, r with
  | .die _, .die _ => true
  | .remote k, .diode _ _ => s.pN P.THM_MODE k.1 == 1
  | .remote k, .ntc _ => s.pN P.THM_MODE k.1 == 2
  | _, _ => false

/-- Does a value fit the S16 field? -/
def fitsS16 (t : Int) : Bool := decide (-32768 ≤ t) && decide (t ≤ 32767)

/-- THERMAL_CONVERSION (R882 to R894). A conversion for which the rules give no temperature that THM_TEMP can hold takes a
free value. DEDUCED: assumption 91. -/
def execThermalConversion (t : Nat) (input : ThermIn) (reading : ThermReading) (s : State) : Res :=
  let s := s.atTime t
  if s.readingFits input reading = false then .next s
  else
    let free := Config.openTemp s.free
    let value (s : State) (v : Option (Int × Int)) : State × Int × Int :=
      match v with
      | some (a, b) => if fitsS16 a then (s, a, b) else (s.draw, free.toInt, free.toInt)
      | none => (s.draw, free.toInt, free.toInt)
    match input, reading with
    | .die _, .die c =>
      let (s, a, b) := value s (some (c, c))
      .next (s.convert input a b false)
    | .remote i, r =>
      let (s, a, b) := value s (s.remoteTemp i r)
      .next (s.convert input a b (s.remoteBad i r a))
    | _, _ => .next s

/-- ROPE_LEVEL_FALL (R894): no sooner than 100 ms after the previous change. -/
def execRopeLevelFall (t : Nat) (s : State) : Res :=
  let s := s.atTime t
  let due := match s.thm.levelAt with
    | none => true
    | some a => decide (a + 100000000 ≤ s.now)
  if s.wantLevel < s.levelSet ∧ due = true then .next (s.setLevel s.wantLevel) else .next s

/-- The tick's end: means are closed and the events raised (R421, R887, R897). -/
def State.thermalEdge (s : State) : State :=
  let close (x : Therm) : Therm :=
    { x with mean := if x.n ≠ 0 ∧ x.fault = false then (x.sum, x.n) else x.mean, sum := 0, n := 0, ev := none }
  let evs := s.thm.die.toList.filterMap (·.ev) ++ s.thm.rem.toList.filterMap (·.ev) ++ s.thm.levelEv.toList
  let s := evs.foldl (fun s d => s.raise evThermal d) s
  { s with thm := { s.thm with die := s.thm.die.map close, rem := s.thm.rem.map close, levelEv := none } }

/-- An input that a commit turns OFF or gives another mode starts NORMAL again (R887); its latest conversion stays
reported. DEDUCED: assumption 91. -/
def State.thermalMode (s : State) (a b : Bank) : State :=
  { s with thm := { s.thm with rem := Vector.ofFn (fun i =>
    let x := s.thm.rem[i]
    if bkN a P.THM_MODE i.1 = bkN b P.THM_MODE i.1 then x else { Therm.reset with
      temp := x.temp, low := x.low, good := x.good, sum := x.sum, n := x.n, mean := x.mean, ev := x.ev }) } }

/-- T of R421 for input i: sum and number of the last good tick; none before one. DESIGN CHOICE: assumption 46. -/
def State.tickTemp (s : State) (i : Nat) : Option (Int × Nat) :=
  if i < 16 then
    let m := (s.thm.rem[Fin.ofNat 16 i]).mean
    if m.2 = 0 then none else some m
  else none

/-- Heads that R895 dims. -/
def State.dimmed (s : State) (b : Bank) : Nat :=
  maskBelow 4 (fun h => (allFin 16).any (fun i =>
    let x := s.thm.rem[i]
    bkN b P.THM_MODE i.1 != 0 && bit (bkN b P.THM_DIMMASK i.1) h && (x.fault || x.crit || x.throt)))

/-- Is every thermal input below its throttle threshold, a faulted one not (R794, R887)? -/
def State.thermalBelow (s : State) : Bool :=
  s.thm.die.toList.all (fun x => decide (x.low < s.pI P.THM_DIE_THROT)) &&
    (allFin 16).all (fun i => s.pN P.THM_MODE i.1 == 0 ||
      (!(s.thm.rem[i]).fault && decide ((s.thm.rem[i]).low < s.pI P.THM_THROT i.1)))

/-- Bit [9] of Table 17-8 (R896). -/
def State.throttling (s : State) : Bool :=
  s.thm.die.toList.any (fun x => x.throt || x.crit) ||
    (allFin 16).any (fun i =>
      let x := s.thm.rem[i]
      s.pN P.THM_MODE i.1 != 0 && (x.throt || x.crit || (x.fault && s.pN P.THM_DIMMASK i.1 != 0)))

/-- THM_STATE and THM_DIE_STATE (Table 20-3). -/
def State.thmState (s : State) (i : Fin 16) : Nat := if s.pN P.THM_MODE i.1 = 0 then 0 else (s.thm.rem[i]).kind + 1

end Sys2Proof.Machine
end

