-- ==== Sys2Proof/Machine/Belay.lean ====
section
/-! DEFINITION. The Belay engine: slots, laws, bank swap, hand-over, the mirror law, profiles (12 R585 to R628). -/

namespace Sys2Proof.Machine

def State.modBly (s : State) (f : Bly → Bly) : State := { s with bly := f s.bly }
def State.modSlot (s : State) (k : Fin 128) (f : BlySlot → BlySlot) : State :=
  s.modBly (fun b => { b with slot := vmod b.slot k f })

/-! ## Descriptors and coefficients (Tables 12-4, 12-5) -/

structure Desc where
  law    : Nat
  order  : Nat
  div    : Nat
  phase  : Nat
  inp    : Nat
  inIdx  : Nat
  out    : Nat
  outIdx : Nat
  sp     : Nat
  spIdx  : Nat
  shift  : Nat
  mode   : Nat
  blend  : Nat
  rev    : Bool
  deriving DecidableEq, Repr

def descOf (b : Bytes) : Desc :=
  ⟨u8 b 0, u8 b 1, u8 b 2, u8 b 3, u8 b 4, u8 b 5, u8 b 6, u8 b 7, u8 b 8, u8 b 9, u8 b 10, u8 b 11, le16 b 12, bit (u8 b 14) 0⟩

def lawOff : Nat := 0
def lawPid : Nat := 1
def lawBiquad : Nat := 2
def lawLead : Nat := 3
def lawState : Nat := 4
def lawMirror : Nat := 5

/-- The index set of a source and of a sink. -/
def inIndexOk (src i : Nat) : Bool :=
  match src with
  | 0 => i == 0
  | 1 => Nat.blt i 4
  | 2 => Nat.blt i 4
  | 3 => Nat.blt i 48
  | 4 => Nat.blt i 48
  | 5 => Nat.blt i 16
  | 6 => Nat.blt i 128
  | _ => false
def outIndexOk (snk i : Nat) : Bool :=
  match snk with
  | 0 => i == 0
  | 1 => Nat.blt i 4
  | 2 => Nat.blt i 4
  | 3 => Nat.blt i 8
  | _ => false

/-- A BLY_SLOT write that R600 accepts. -/
def descOk (b : Bytes) : Bool :=
  let d := descOf b
  if d.law = lawOff then b.all (· == 0#8)
  else
    Nat.ble d.law 5 &&
      (if d.law = lawBiquad then Nat.ble 1 d.order && Nat.ble d.order 5
        else if d.law = lawState then Nat.ble 1 d.order && Nat.ble d.order 4
        else d.order == 0) &&
      Nat.ble 1 d.div && Nat.ble d.div 192 && Nat.blt d.phase d.div && inIndexOk d.inp d.inIdx && outIndexOk d.out d.outIdx &&
      (d.out != 1 || d.law == lawMirror) && Nat.ble d.sp 2 && (if d.sp = 2 then Nat.blt d.spIdx 128 else d.spIdx == 0) &&
      Nat.ble d.shift 15 && Nat.ble d.mode (if d.law = lawMirror then 0 else 1) && Nat.ble d.blend 4096 &&
      Nat.ble (u8 b 14) 1 && u8 b 15 == 0

/-- A coefficient word. -/
def word (c : Bytes) (k : Nat) : Int := sle32 c (4 * k)
def uMin (c : Bytes) : Int := word c 30
def uMax (c : Bytes) : Int := word c 31

/-- A BLY_COEF write that R602 accepts, for a law. -/
def coefOk (law : Nat) (c : Bytes) : Bool :=
  decide (uMin c ≤ uMax c) && (law != lawPid || decide (word c 5 ≤ word c 6)) &&
    (law != lawMirror || (decide (0 ≤ uMin c) && decide (0 < word c 4) && decide (0 < word c 5)))

/-! ## Arithmetic (R597, R598) -/

def one30 : Int := 1073741824
def sat30 (v : Int) : Int := clampI (-2147483648) 2147483647 v
/-- A sum in the S3.60 accumulator. -/
def acc (a b : Int) : Int := clampI (-9223372036854775808) 9223372036854775807 (a + b)
/-- An S1.30 value as S3.60. -/
def wide (v : Int) : Int := v * one30
/-- Conversion with SHIFT. -/
def convert (shift : Nat) (a : Int) : Int := sat30 ((a + (2 ^ (29 - shift) : Nat)) / (2 ^ (30 - shift) : Nat))

/-! ## Inputs (Table 12-2, R594) -/

/-- The value of a source for a slot that last sampled at `at_`; none when stale. -/
def State.blyInput (s : State) (x : BlySlot) (d : Desc) (senses : Vector HeadSense 4) : Option Int :=
  let enabled (c : ChanIx) : Bool := match (s.em[c]).en with
    | some t => Nat.ble t x.at_
    | none => false
  match d.inp with
  | 1 => some (s.scn[Fin.ofNat 4 d.inIdx]).ampNow
  | 2 => some (senses[Fin.ofNat 4 d.inIdx]).slow
  | 3 =>
    let c : ChanIx := Fin.ofNat 48 d.inIdx
    let t := (s.em[c]).totDark
    if t.1 == x.totDark.1 || !enabled c then none
    else some (sat30 (((t.2 - x.totDark.2) * 32 / (t.1 - x.totDark.1) : Nat)))
  | 4 =>
    let c : ChanIx := Fin.ofNat 48 d.inIdx
    let t := (s.em[c]).tot
    if !enabled c then none
    else some (sat30 (((t.2 - x.tot.2) * 32 / (t.1 - x.tot.1) : Nat)))
  | 5 =>
    let t := s.thm.rem[Fin.ofNat 16 d.inIdx]
    if t.fault then none else some (sat30 (t.temp * one30 / 25600))
  | 6 => some (s.bly.slot[Fin.ofNat 128 d.inIdx]).u
  | _ => some 0

/-- The setpoint (Table 12-4 SP_SRC). -/
def State.blySetpoint (s : State) (x : BlySlot) (d : Desc) : Int :=
  match d.sp with
  | 1 => sat30 (flToInt (flOfBits binary64 x.pp) 30)
  | 2 => (s.bly.slot[Fin.ofNat 128 d.spIdx]).u
  | _ => word x.cfg.coef 29

/-! ## Blends (R615 to R617) -/

def blendAt (b : Blend) (un : Int) : Int := b.uo + (2 * (un - b.uo) * (b.k : Int) + b.n) / (2 * (b.n : Int))
def Blend.advance (b : Blend) : Option Blend := if b.k < b.n then some { b with k := b.k + 1 } else none
def blendOf (uo : Int) (n : Nat) : Option Blend := if n = 0 then none else some ⟨uo, 1, n⟩

/-- Apply a blend in progress to a mode's own output. -/
def BlySlot.finish (x : BlySlot) (un : Int) : BlySlot :=
  match x.blend with
  | none => { x with next := un }
  | some b => { x with next := blendAt b un, blend := b.advance }

def BlySlot.node (x : BlySlot) (k : Nat) (v : Int) : BlySlot := { x with nodes := vset x.nodes (Fin.ofNat 18 k) v }

/-! ## Laws (R603 to R608) -/

/-- The PID law, with the preset of R614 at a hand-over. -/
def BlySlot.pid (x : BlySlot) (d : Desc) (r y : Int) : BlySlot :=
  let c := x.cfg.coef
  let sgn (a b : Int) : Int := if d.rev then sat30 (b - a) else sat30 (a - b)
  let e := sgn r y
  let br := word c 4 * r
  let ep := convert 0 (if d.rev then acc (wide y) (-br) else acc br (-(wide y)))
  let p := word c 0 * ep
  let kd := word c 2 * sat30 (y - x.yPrev)
  let dd := convert d.shift (acc (word c 3 * x.d) (if d.rev then kd else -kd))
  let ff := wide (word c 7)
  let lo := wide (word c 5)
  let hi := wide (word c 6)
  let out (i : Int) : Int := convert d.shift (acc (acc (acc p i) (wide dd)) ff)
  let ke := word c 1 * e
  let lim (v : Int) : Int := clampI (uMin c) (uMax c) v
  let done (x : BlySlot) (i us : Int) (stop : Bool) (u : Int) : BlySlot :=
    let x := { x with i := i, d := dd, y := y, yPrev := y, hand := false, fStop := stop, fInt := i == lo || i == hi }
    let x := { x.finish u with fLim := u == uMin c || u == uMax c }
    ((((x.node 2 e).node 3 (convert d.shift p)).node 4 (convert 0 i)).node 5 dd).node 7 us
  if x.hand then
    let preset := x.u * (2 ^ (30 - d.shift) : Nat) - p - wide dd - ff
    let i := clampI lo hi preset
    let x := { x with blend := if i = preset then none else blendOf x.u d.blend }
    done x i (out i) false (lim (out i))
  else
    let ic := acc x.i ke
    let us := out ic
    let stop := (decide (uMax c < us) && decide (0 < ke)) || (decide (us < uMin c) && decide (ke < 0))
    let i := clampI lo hi (if stop then x.i else ic)
    done x i us stop (lim (out i))

/-- One direct-form section of BIQUAD: accumulator and new values. -/
def biquadSection (c : Bytes) (k : Nat) (x x1 x2 v1 v2 : Int) : Int :=
  acc (acc (acc (acc (word c (5 * k) * x) (word c (5 * k + 1) * x1)) (word c (5 * k + 2) * x2)) (-(word c (5 * k + 3) * v1)))
    (-(word c (5 * k + 4) * v2))

/-- A linear combination in the accumulator. -/
def dot (cs xs : List Int) : Int := (cs.zip xs).foldl (fun a (c, x) => acc a (c * x)) 0

/-- BIQUAD, LEADLAG and STATESPACE: u* and the new states. -/
def BlySlot.filter (x : BlySlot) (d : Desc) (e : Int) : Int × List Int :=
  let c := x.cfg.coef
  let st (k : Nat) : Int := x.x.getD k 0
  if d.law = lawBiquad then
    let r := (List.range d.order).foldl (fun (a : Int × Int × List Int) k =>
      let v := biquadSection c k a.1 (st (4 * k)) (st (4 * k + 1)) (st (4 * k + 2)) (st (4 * k + 3))
      (convert 0 v, v, a.2.2 ++ [a.1, st (4 * k), convert 0 v, st (4 * k + 2)])) (e, 0, [])
    (convert d.shift r.2.1, r.2.2)
  else if d.law = lawLead then
    let us := convert d.shift (acc (acc (word c 0 * e) (word c 1 * st 0)) (-(word c 2 * st 1)))
    (us, [e, us])
  else
    let n := d.order
    let xs := (List.range n).map st
    let us := convert d.shift (acc (dot ((List.range n).map (fun k => word c (20 + k))) xs) (word c 24 * e))
    (us, (List.range n).map (fun r =>
      convert 0 (acc (dot ((List.range n).map (fun k => word c (n * r + k))) xs) (word c (16 + r) * e))))

/-- The mode hand-over of a mode without an integrator: a blend from the old output (R615). -/
def BlySlot.takeHand (x : BlySlot) (d : Desc) : BlySlot :=
  if x.hand then { x with blend := blendOf x.u d.blend, hand := false } else x

/-- State and section outputs as nodes 8 to 11. -/
def BlySlot.stateNodes (x : BlySlot) (d : Desc) : BlySlot :=
  (List.range 4).foldl (fun x k => x.node (8 + k) (x.x.getD (if d.law = lawBiquad then 4 * k + 2 else k) 0)) x

/-- One sample of a slot whose law is PID to STATESPACE. -/
def BlySlot.law (x : BlySlot) (d : Desc) (r y : Int) : BlySlot :=
  let c := x.cfg.coef
  let e := if d.rev then sat30 (y - r) else sat30 (r - y)
  let x := { x with fStale := false }
  let x := ((x.node 0 y).node 1 r).node 6 x.u
  if d.mode = 1 then
    let u := clampI (uMin c) (uMax c) (word c 28)
    let x := (x.takeHand d).finish u
    (({ x with y := y, yPrev := y, fLim := u == uMin c || u == uMax c, fStop := false }).node 2 e).node 7 (word c 28)
  else if d.law = lawPid then x.pid d r y
  else
    let (us, st) := x.filter d e
    let u := clampI (uMin c) (uMax c) us
    let x := (x.takeHand d).finish u
    let x := { x with x := st, y := y, yPrev := y, fLim := u == uMin c || u == uMax c, fStop := false }
    ((x.node 2 e).node 7 us).stateNodes d

/-! ## The mirror law (R619 to R623) -/

/-- The lag λ from I and Q, in 2^-31 turn: the drive is the cosine of the NCO phase. DEDUCED: assumption 61. -/
def lagOf (i q : Int) : Int := divRoundI (fxTurns i q * (2 ^ 31 : Nat)) fxOne

/-- The phase error e_φ of a lag. DEDUCED: assumption 61. -/
def phaseError (trim lam : Int) : Int := (one30 / 2 + trim - lam + one30) % (2 * one30) - one30

/-- A turn in the unit of Scn.phase; the phase that passes in a sample of DIV base periods at a frequency in 2^-30 mHz. -/
def turnUnits : Nat := 192000000 * 2 ^ 31
def phaseStep (freq div : Nat) : Nat := 2 * freq * div

/-- The frequency of a MIRROR slot's NCO, f_set (1 + x), in 2^-30 mHz. -/
def BlySlot.freq (x : BlySlot) : Nat := (x.cfg.fSet * (one30 + x.mx)).toNat

/-- A = 2 sqrt(I^2 + Q^2). -/
def amplitude (i q : Int) : Int := sat30 (isqrt 36 (4 * (i * i + q * q)).toNat : Nat)

/-- Integrate and limit: value and integrator of a loop of gains kp, ki with limits lo, hi (R620). -/
def piLoop (shift : Nat) (kp ki e i lo hi : Int) : Int × Int × Bool :=
  let ic := acc i (ki * e)
  let us := convert shift (acc (kp * e) ic)
  let stop := (decide (hi < us) && decide (0 < ki * e)) || (decide (us < lo) && decide (ki * e < 0))
  let i := clampI (wide lo) (wide hi) (if stop then i else ic)
  (clampI lo hi (convert shift (acc (kp * e) i)), i, stop)

/-- SCN_FTOL as S1.30. -/
def ftol30 (ppm : Nat) : Int := (divHalfUp (ppm * 1073741824) 1000000 : Nat)

/-- One sample of a MIRROR slot. `eph` is the phase error. It answers the slot and the fast-axis state. -/
def BlySlot.mirror (x : BlySlot) (d : Desc) (st : FastState) (a eph : Int) (retime : Option (Nat × Nat)) : BlySlot × FastState :=
  let c := x.cfg.coef
  let ft := ftol30 x.cfg.ftol
  let aSet : Int := (x.cfg.aSet : Int) * 16384
  let x := ({ x with fStale := false, hand := false }.node 6 x.u).node 12 a
  let x := x.node 13 eph
  let amp (x : BlySlot) : BlySlot :=
    let (u, i, stop) := piLoop d.shift (word c 2) (word c 3) (sat30 (x.aTgt - a)) x.iAmp (uMin c) (uMax c)
    { x with next := u, iAmp := i, fStop := stop, fLim := u == uMin c || u == uMax c }.node 7 u
  -- preset of the frequency loop to keep x (R614, R621, R622)
  let preset (x : BlySlot) (keep : Int) : BlySlot :=
    let want := wide keep / (2 ^ d.shift : Nat) - word c 0 * eph
    let i := clampI (wide (-ft)) (wide ft) want
    let xn := clampI (-ft) ft (convert d.shift (acc (word c 0 * eph) i))
    let bl := if i = want then none else blendOf keep d.blend
    { x with
      i := i
      mx := match bl with
        | none => xn
        | some b => blendAt b xn
      blend := bl.bind Blend.advance
      lock := true
      sweep := false
      handovers := inc 32 x.handovers }
  let aim (x : BlySlot) : BlySlot :=
    let step := convert 0 (word c 5 * aSet)
    { x with aTgt := if x.aTgt < aSet then min aSet (x.aTgt + step) else max aSet (x.aTgt - step) }
  let out := fun (x : BlySlot) (st : FastState) => ((amp x).node 14 x.mx, st)
  match st with
  | .sweep =>
    let x := { x with aTgt := aSet / 4, lock := false, sweep := true, mx := if x.sweep then min ft (x.mx + word c 4) else -ft }
    if eph ≤ 0 then out (aim (preset x x.mx)) .locking else out x .sweep
  | .locking | .locked =>
    match retime with
    | some (fOld, fNew) =>
      -- f keeps its value: x' = fOld (1 + x) / fNew - 1
      let keep := sat30 (divRoundI ((one30 + x.mx) * fOld) fNew - one30)
      out (aim (preset x keep)) .locking
    | none =>
      let (xn, i, _) := piLoop d.shift (word c 0) (word c 1) eph x.i (-ft) ft
      let m := match x.blend with
        | none => xn
        | some b => blendAt b xn
      let x := { x with i := i, mx := m, blend := x.blend.bind Blend.advance, lock := true, sweep := false,
                        fInt := i == wide ft || i == wide (-ft) }
      out (aim x) st
  | _ =>
    (({ x with next := 0, i := 0, iAmp := 0, mx := -ft, aTgt := 0, lock := false, sweep := false, blend := none,
               fStop := false }).node 7 0, st)

/-! ## Profiles (R624 to R627) -/

structure Prof where
  saw   : Bool
  head  : Nat
  tgt   : Fl
  step  : Fl
  vmax  : Fl
  amax  : Fl
  jmax  : Fl
  park  : Fl
  deriving DecidableEq, Repr

def profOf (b : Bytes) : Prof :=
  let f (o : Nat) : Fl := flOfBits binary32 (le32 b o)
  ⟨u8 b 0 == 1, u8 b 1, f 4, f 8, f 12, f 16, f 20, f 24⟩

def dAdd := flAdd binary64
def dSub := flSub binary64
def dMul := flMul binary64
def dDiv := flDiv binary64
def dOf (i : Int) : Fl := flOfInt binary64 i
def dClamp (v lo hi : Fl) : Fl := if flLt v lo then lo else if flLt hi v then hi else v

/-- Position, velocity, acceleration. -/
structure Motion where
  p : Fl
  v : Fl
  a : Fl
  deriving DecidableEq, Repr

/-- One step of a POINT move (R625). -/
def pointStep (f : Prof) (q ts : Fl) (m : Motion) : Motion :=
  let dist := dSub q m.p
  let a2 := dMul f.amax f.amax
  let k := dDiv a2 (dMul (dOf 2) f.jmax)
  let root := flSqrt binary64 (dAdd (dDiv (dMul a2 a2) (dMul (dOf 4) (dMul f.jmax f.jmax))) (dMul (dMul (dOf 2) f.amax) (flAbs dist)))
  let mag := dSub root k
  let zero := dOf 0
  let vb := if flLt zero dist then mag else if flLt dist zero then flNeg mag else zero
  let vc := dClamp vb (flNeg f.vmax) f.vmax
  let ac := dClamp (dDiv (dSub vc m.v) ts) (flNeg f.amax) f.amax
  let jt := dMul f.jmax ts
  let a := dAdd m.a (dClamp (dSub ac m.a) (flNeg jt) jt)
  let v := dClamp (dAdd m.v (dMul a ts)) (flNeg f.vmax) f.vmax
  let p := dAdd m.p (dMul v ts)
  if flLe (flAbs (dSub q p)) (dMul jt (dMul ts ts)) && flLe (flAbs v) (dMul jt ts) && flLe (flAbs a) jt then ⟨q, zero, zero⟩
  else ⟨p, v, a⟩

/-- The ramp velocity v_r and the lead time T_L, s, for a frequency in mHz (R627). -/
def rampSpeed (f : Prof) (mhz : Fl) : Fl := dDiv (dMul (dMul f.step (dOf 2)) mhz) (dOf 1000)
def leadTime (f : Prof) (v : Fl) : Fl :=
  let v := flAbs v
  if flLe (dDiv (dMul f.amax f.amax) f.jmax) v then dAdd (dDiv v f.amax) (dDiv f.amax f.jmax)
  else dMul (dOf 2) (flSqrt binary64 (dDiv v f.jmax))

/-- The first half of the lead-in, τ seconds after its start: distance, speed, acceleration. -/
def leadHalf (f : Prof) (tau : Fl) : Motion :=
  let tj := dDiv f.amax f.jmax
  let cube (t : Fl) := dDiv (dMul f.jmax (dMul t (dMul t t))) (dOf 6)
  let sq (t : Fl) := dDiv (dMul f.jmax (dMul t t)) (dOf 2)
  if flLe tau tj then ⟨cube tau, sq tau, dMul f.jmax tau⟩
  else
    let r := dSub tau tj
    ⟨dAdd (dAdd (cube tj) (dMul (sq tj) r)) (dDiv (dMul f.amax (dMul r r)) (dOf 2)), dAdd (sq tj) (dMul f.amax r), f.amax⟩

/-- The whole lead-in to speed V over T_L: its second half mirrors the first. -/
def leadIn (f : Prof) (v tl tau : Fl) : Motion :=
  if flLe (dMul (dOf 2) tau) tl then leadHalf f tau
  else
    let m := leadHalf f (dSub tl tau)
    ⟨dAdd (dSub (dMul v tau) (dDiv (dMul v tl) (dOf 2))) m.p, dSub v m.v, m.a⟩

/-- Seconds from picoseconds. -/
def dPs (ps : Int) : Fl := flOfRat binary64 ps 1000000000000

/-- Where a SAWTOOTH generator is in its head frame. -/
inductive ProfPhase where
  | park
  | lead (ps : Int)
  | ramp (j : Nat) (ps : Int) (mhz : Fl)
  | stop (ps : Int)
  | return_
  deriving DecidableEq, Repr

/-- A frequency in 2^-30 mHz as mHz. -/
def mhzOf (freq : Nat) : Fl := flOfRat binary64 freq 1073741824

/-- The phase of a head's generator at an instant in ps (R627). Line 0 is expected at the first line start at or after
0.49 ms into the head frame, from the last line start and frequency. -/
def State.profPhase (s : State) (h : HeadIx) (leadPs : Int) (ps : Int) : ProfPhase :=
  let x := s.scn[h]
  let y := s.head[h]
  let la := s.pN P.SCN_LINES_ACT h.1
  if !y.on || x.st != .locked then .park
  else match x.active with
    | some j => .ramp j (ps - 1000 * x.lineAt) (mhzOf x.freq)
    | none =>
      let sinceEnd := ps - 1000 * x.endAt
      let half : Int := (1000000000000000 * 1073741824 / (2 * x.freq) : Nat)
      let frame : Int := if x.begun = la then (y.t0 + 1000000000 * frameNum s.par.active / frameDen s.par.active h.1 : Nat) else (y.t0 : Nat)
      let from_ := 1000 * (frame + 490000)
      let last : Int := 1000 * x.lineAt
      let k := if from_ ≤ last then 0 else (from_ - last + half - 1) / half
      let line0 := last + k * half
      if x.begun = la ∧ sinceEnd < leadPs then .stop sinceEnd
      else if line0 - leadPs ≤ ps then .lead (min leadPs (ps - (line0 - leadPs)))
      else .return_

/-- A sample of a slot's generator. DEDUCED: assumption 61. -/
def State.profStep (s : State) (x : BlySlot) (d : Desc) (ps : Int) : Motion :=
  let f := profOf x.cfg.prof
  let m : Motion := ⟨flOfBits binary64 x.pp, flOfBits binary64 x.pv, flOfBits binary64 x.pa⟩
  let ts := flOfRat binary64 d.div 192000
  if !f.saw then pointStep f f.tgt ts m
  else
    let h : HeadIx := Fin.ofNat 4 f.head
    let mhz := mhzOf (s.scn[h]).freqNow
    let vr := rampSpeed f mhz
    let tl := leadTime f vr
    let v := flAbs vr
    let sgn (q : Fl) : Fl := if flLt vr (dOf 0) then flNeg q else q
    let pre := dSub f.tgt (dDiv (dMul vr tl) (dOf 2))
    let endP := dAdd f.tgt (dMul (dOf (s.pN P.SCN_LINES_ACT h.1)) f.step)
    match s.profPhase h (flToInt (dMul tl (dOf 1000000000000))) ps with
    | .park => pointStep f f.park ts m
    | .return_ => pointStep f pre ts m
    | .lead q =>
      let k := leadIn f v tl (dPs q)
      ⟨dAdd pre (sgn k.p), sgn k.v, sgn k.a⟩
    | .ramp j q g =>
      ⟨dAdd f.tgt (dMul f.step (dAdd (dOf j) (dDiv (dMul (dMul (dOf 2) g) (dPs q)) (dOf 1000)))), rampSpeed f g, dOf 0⟩
    | .stop q =>
      let k := leadIn f v tl (dSub tl (dPs q))
      ⟨dAdd endP (sgn (dSub (dDiv (dMul v tl) (dOf 2)) k.p)), sgn k.v, flNeg (sgn k.a)⟩

/-! ## Configuration in use, swap (R609 to R614, R618, R622) -/

def State.blyDesc (s : State) (k : Fin 128) : Desc := descOf (s.pT P.BLY_SLOT k.1)

def State.blyCfg (s : State) (k : Fin 128) : BlyCfg :=
  let d := s.blyDesc k
  let mir := d.law == lawMirror
  ⟨s.pT P.BLY_SLOT k.1, s.pT P.BLY_COEF k.1, s.pT P.BLY_PROFILE k.1, if mir then s.pN P.SCN_FREQ d.outIdx else 0,
    if mir then s.pN P.SCN_AMP_SET d.outIdx else 0, if mir then s.pN P.SCN_FTOL d.outIdx else 0⟩

/-- Take the committed configuration at the slot's boundary. -/
def BlySlot.swap (x : BlySlot) (n : BlyCfg) (edge : Nat) : BlySlot :=
  let o := descOf x.cfg.desc
  let d := descOf n.desc
  let changed := o.law != d.law || o.mode != d.mode
  let x := if x.cfg.coef = n.coef then x
    else
      let lo := if d.law = lawPid then word n.coef 5 else if d.law = lawMirror then -(ftol30 n.ftol) else -2147483648
      let hi := if d.law = lawPid then word n.coef 6 else if d.law = lawMirror then ftol30 n.ftol else 2147483647
      { x with
        bankB := !x.bankB
        swapTick := edge
        i := clampI (wide lo) (wide hi) x.i
        iAmp := clampI (wide (uMin n.coef)) (wide (uMax n.coef)) x.iAmp }
  let x := if o.law = d.law then x else { x with x := [], d := 0 }
  { x with cfg := n, hand := x.hand || changed, handovers := if changed then inc 32 x.handovers else x.handovers }

/-! ## The base period (R585 to R590) -/

/-- A slot is due. -/
def State.blyDue (s : State) (k : Fin 128) : Bool :=
  let d := s.blyDesc k
  d.law != lawOff && s.bly.base % d.div == d.phase

/-- The bias code of an output (Table 12-3). -/
def biasOf (u : Int) : Nat := (clampI 0 16383 ((u + 32768) / 65536)).toNat
/-- The duty of a PWM output. -/
def dutyCode (u : Int) : Nat := (clampI 0 65535 ((u + 8192) / 16384)).toNat

/-- Bias codes follow the applied outputs (R595; 11 R546). -/
def State.applyBias (s : State) : State :=
  (allFin 48).foldl (fun s c =>
    let u := (s.bly.slot[Fin.ofNat 128 (s.pN P.EMT_BIAS_SLOT c.1)]).u
    if (s.em[c]).belayBias = biasOf u then s
    else (s.modEm c (fun e => { e with belayBias := biasOf u })).settleChan c) s

/-- Outputs are applied: a slot whose law has become OFF stops, a due slot applies its result. -/
def State.blyApply (s : State) : State :=
  ((allFin 128).foldl (fun s k =>
    let x := s.bly.slot[k]
    if !x.on then s
    else if (s.blyDesc k).law = lawOff then
      s.modSlot k (fun x => { BlySlot.reset with handovers := x.handovers, swapTick := x.swapTick })
    else if s.blyDue k then s.modSlot k (fun x => { x with u := x.next })
    else s) s).applyBias

/-- Record a value of a trace channel (R632, R633). DESIGN CHOICE: assumption 24. -/
def Trace.record (t : Trace) (c : Fin 8) (v : Int) (base tick : Nat) : Trace :=
  let full := 16384 - t.pre
  let armed := t.st == .armed
  let isTrig := t.ch.toList.findIdx? (fun q => q.slot.isSome) == some c.1
  let lead := if 1 ≤ t.trig ∧ t.trig ≤ 3 then t.trigCh == c.1 else isTrig
  let fires := armed && lead && Nat.ble t.pre t.count &&
    (match t.trig, t.last with
     | 0, _ => true
     | 4, _ => false
     | _, none => false
     | 1, some p => decide (p < t.level) && decide (t.level ≤ v)
     | 2, some p => decide (t.level ≤ p) && decide (v < t.level)
     | _, some p => (decide (p < t.level) && decide (t.level ≤ v)) || (decide (t.level ≤ p) && decide (v < t.level)))
  let t := if fires then { t with st := .triggered, trigBase := base, trigTick := tick } else t
  let t := if lead && armed then { t with count := min 16384 (t.count + 1), last := some v } else t
  let t := { t with ch := vmod t.ch c (fun q =>
    if t.st = .triggered then (if q.post.length < full then { q with post := v :: q.post } else q)
    else { q with pre := (v :: q.pre).take t.pre }) }
  if t.st == .triggered && t.ch.toList.all (fun q => q.slot.isNone || Nat.ble full q.post.length) then { t with st := .done } else t

/-- The traces see a sample of slot k. -/
def State.traceSample (s : State) (k : Fin 128) : State :=
  let nodes := (s.bly.slot[k]).nodes
  (allFin 8).foldl (fun s c =>
    let t := s.bly.trace
    let q := t.ch[c]
    if q.slot == some k && (t.st == .armed || t.st == .triggered) then
      let s := s.modTrace (fun t => { t with ch := vmod t.ch c (fun q => { q with seen := q.seen + 1 }) })
      if q.seen % q.decim == 0 then s.modTrace (fun t => t.record c nodes[Fin.ofNat 18 q.node] s.bly.base s.tick.count) else s
    else s) s

/-- A hand-over of a slot is a trace event when the slot is that of trace channel 0. -/
def State.handEvent (s : State) (k : Fin 128) (was : Nat) : State :=
  if (s.bly.slot[k]).handovers ≠ was ∧ (s.bly.trace.ch[0]).slot = some k then s.traceEvent 3 else s

/-- One sample of slot k: swap, inputs, law, profile, trace. DEDUCED: assumption 61. -/
def State.blySample (s : State) (k : Fin 128) (senses : Vector HeadSense 4) : State :=
  let cfg := s.blyCfg k
  let x0 := s.bly.slot[k]
  let was := x0.handovers
  let x1 := if x0.on then (if x0.cfg = cfg then x0 else x0.swap cfg s.bly.edge)
    else { x0 with on := true, cfg := cfg, at_ := s.blyNs }
  let d := descOf cfg.desc
  -- the profile runs at every sample
  let x1 := if d.sp = 1 then
      let m := s.profStep x1 d s.blyPs
      let x := { x1 with pp := flBits binary64 m.p, pv := flBits binary64 m.v, pa := flBits binary64 m.a }
      ((x.node 15 (sat30 (flToInt m.p 30))).node 16 (toSigned 32 (flBits binary32 (flConv binary32 m.v)))).node 17
        (toSigned 32 (flBits binary32 (flConv binary32 m.a)))
    else x1
  let mark (s : State) (x : BlySlot) : BlySlot :=
    let c : ChanIx := Fin.ofNat 48 d.inIdx
    { x with at_ := s.blyNs, tot := (s.em[c]).tot, totDark := (s.em[c]).totDark }
  if d.law = lawMirror then
    let h : HeadIx := Fin.ofNat 4 d.outIdx
    let q := senses[h]
    let y := s.scn[h]
    let s := if q.i = 0 ∧ q.q = 0 then s.draw else s
    let free : Int := (Config.freeNat (s.free - 1) % 2147483648 : Nat)
    let lam := if q.i = 0 ∧ q.q = 0 then free else lagOf q.i q.q
    let eph := phaseError (word cfg.coef 6) lam
    let a := amplitude q.i q.q
    let moved := x0.on && (x0.cfg.fSet != cfg.fSet || x0.cfg.aSet != cfg.aSet)
    let (x, st) := x1.mirror d y.st a eph (if moved then some (x0.cfg.fSet, cfg.fSet) else none)
    -- the NCO runs on at the frequency of the last sample, and is halted in STOP (Table 12-6)
    let theta := if y.st == .stopped || y.st == .failed then x0.theta else (x0.theta + phaseStep x0.freq d.div) % turnUnits
    let sense := ((theta - 192000000 * lam) % (turnUnits : Int)).toNat
    let s := s.modSlot k (fun _ => { mark s x with y := a, theta := theta, sense := sense, err := eph })
    let s := s.modScn h (fun y => { y with st := st })
    (s.handEvent k was).traceSample k
  else
    match s.blyInput x1 d senses with
    | none =>
      let s := s.modSlot k (fun _ => mark s { x1 with fStale := true })
      (s.handEvent k was).traceSample k
    | some y =>
      let x := x1.law d (s.blySetpoint x1 d) y
      let s := s.modSlot k (fun _ => mark s x)
      (s.handEvent k was).traceSample k

/-- An axis that has returned to STOPPED begins its sweep. -/
def State.sweepStart (s : State) (h : HeadIx) : State :=
  s.modScn h (fun x => { x with st := .sweep, since := s.now, sweepDue := false, reached := false })

/-! ## What a MIRROR slot delivers (R623; 10 R504), and the conditions watched on it (10 R509, R536) -/

/-- A condition holds without a break: the phase that has passed since it first held. -/
def heldFor (was : Option Nat) (step : Nat) (now : Bool) : Option Nat := if now then some ((was.map (· + step)).getD 0) else none

/-- The conditions of Tables 10-5 and 10-6 on a delivered amplitude, phase error and frequency, S1.30, S1.30 and 2^-30 mHz. -/
def AxisWatch.see (w : AxisWatch) (st : FastState) (aSet fSet ftol : Nat) (a err : Int) (freq step : Nat) : AxisWatch :=
  let set : Int := 16384 * aSet
  let off : Nat := (a - set).natAbs
  let locked := st == .locked
  { w with
    window := heldFor w.window step (st == .locking && decide (100 * (off : Int) ≤ 2 * set) && decide (180 * (err.natAbs : Int) ≤ one30))
    sense := heldFor w.sense step ((locked || st == .locking) && decide (10 * a < set))
    lock := heldFor w.lock step (locked && decide (one30 < 18 * (err.natAbs : Int)))
    amplitude := heldFor w.amplitude step (locked && decide (5 * set < 100 * (off : Int)))
    frequency := locked && (decide ((freq : Int) < fSet * (one30 - ftol30 ftol)) || decide (fSet * (one30 + ftol30 ftol) < (freq : Int))) }

/-- A MIRROR slot that is due delivers the values that its last sample computed, with φ at the instant of delivery. -/
def State.blyDeliver (s : State) (k : Fin 128) : State :=
  let d := s.blyDesc k
  let x := s.bly.slot[k]
  if d.law ≠ lawMirror ∨ !s.blyDue k then s
  else
    let h : HeadIx := Fin.ofNat 4 d.outIdx
    let step := phaseStep x.freq d.div
    s.modScn h (fun y => { y with
      ampNow := x.y
      freqNow := x.freq
      phaseNow := (x.sense + step) % turnUnits
      errNow := x.err
      watch := y.watch.see y.st (s.pN P.SCN_AMP_SET h.1) (s.pN P.SCN_FREQ h.1) (s.pN P.SCN_FTOL h.1) x.y x.err x.freq step })

/-- ρ(t) - j at the midpoint of the running active line, at scale 2^160: the tracking error of the slow slot's last sample
(R628); none when LINE_STEP is 0. -/
def State.slowError (s : State) (h : HeadIx) : Option Int :=
  let x := s.bly.slot[Fin.ofNat 128 (s.pN P.SCN_SLOW_SLOT h.1)]
  let step := flToInt (profOf x.cfg.prof).step 160
  if step = 0 then none else some (fxDiv ((x.y : Int) * (2 ^ 130 : Nat) - flToInt (flOfBits binary64 x.pp) 160) step)

/-- Judge the midpoint of the running active line: SLOW counts the consecutive lines with |ρ - j| above SCN_FAIL_POS. -/
def State.judgeSlow (s : State) (h : HeadIx) : State :=
  let x := s.scn[h]
  if x.active.isNone || x.watch.judged then s
  else
    let e := (s.slowError h).getD 0
    let far := decide ((s.pN P.SCN_FAIL_POS h.1 * 2 ^ 152 : Nat) < e.natAbs)
    s.modScn h (fun x => { x with watch := { x.watch with
      judged := true, offset := e / (2 ^ 144 : Nat), slow := if far then x.watch.slow + 1 else 0 } })

/-- Has the midpoint of the running line passed by the instant of a base period? -/
def State.midPassed (s : State) (h : HeadIx) : Bool :=
  let x := s.scn[h]
  decide (((1000000000000 * 1073741824 / (4 * x.freq) : Nat) : Int) ≤ s.blyPs / 1000 - x.lineAt)


/-- A base period begins: the domain goes to its guard clock, or returns from it (18 R832). -/
def State.blyClock (s : State) : State :=
  s.modBly (fun b => { b with guardAt := if s.onGuard pllSns then some (b.guardAt.getD b.base) else none })

/-- BELAY_BASE_PERIOD (R585 to R588): the base count gives the instant. DEDUCED: assumption 61. -/
def execBelayBasePeriod (senses : Vector HeadSense 4) (s : State) : Res :=
  if s.dev = .boot then .next s
  else
    let s := s.blyClock
    let s := s.atTime s.blyNs
    let s := (allFin 4).foldl (fun s h => if (s.scn[h]).sweepDue && s.isScan h then s.sweepStart h else s) s
    let s := (allFin 4).foldl (fun s h => if s.isScan h && s.midPassed h then s.judgeSlow h else s) s
    let s := (allFin 128).foldl State.blyDeliver s.blyApply
    let s := (allFin 128).foldl (fun s k => if s.blyDue k then s.blySample k senses else s) s
    .next (s.modBly (fun b => { b with base := b.base + 1 }))

/-! ## Load (R591, Table 12-1) -/

/-- Cost of a slot, operations per sample. -/
def slotCost (d : Desc) : Nat :=
  (match d.law with
   | 1 => 24
   | 2 => 8 + 12 * d.order
   | 3 => 12
   | 4 => d.order * d.order + 2 * d.order + 9
   | 5 => 160
   | _ => 0) + (if d.law ≠ 0 ∧ d.sp = 1 then 40 else 0)

/-- The load of a configuration (R591): the sum of cost over divider, as numerator and denominator. -/
def blyLoad (b : Bank) : Nat × Nat :=
  (List.range 128).foldl (fun (a : Nat × Nat) k =>
    let d := descOf (bkT b P.BLY_SLOT k)
    if d.law = 0 ∨ d.div = 0 then a
    else
      let n := a.1 * d.div + slotCost d * a.2
      let m := a.2 * d.div
      let g := Nat.gcd n m
      if g = 0 then a else (n / g, m / g)) (0, 1)

/-! ## Sinks and reports (Tables 12-3, 12-13) -/

/-- The applied output of the slot that drives a sink; 0 for none. -/
def State.sinkValue (s : State) (out idx : Nat) : Int :=
  match s.bly.slot.toList.find? (fun x => x.on && (descOf x.cfg.desc).out == out && (descOf x.cfg.desc).outIdx == idx) with
  | some x => x.u
  | none => 0

/-- SCh_FXP/N amplitude, SCh_SXP/N level, PWM duty (Table 12-3). -/
def State.fastDrive (s : State) (h : HeadIx) : Int := s.sinkValue 1 h.1
def State.slowDrive (s : State) (h : HeadIx) : Int := clampI (-one30) one30 (s.sinkValue 2 h.1)
def State.pwmDuty (s : State) (k : Nat) : Nat := dutyCode (s.sinkValue 3 k)

/-- What an FPWM pin does (20 R898): high impedance, or pulses at a rate in Hz whose high time is duty / 65,536 of the period in 10
ns steps, active low or high. -/
inductive Fpwm where
  | highZ
  | runs (hz duty : Nat) (activeLow : Bool)
  deriving DecidableEq, Repr

/-- Pin FPWMo: high impedance from the assertion of a reset until BOOT ends, and while its source is OFF; else it runs, in HOLD and
SAFE as well, with the duty that its next period takes (20 R898, R899). -/
def State.fpwm (s : State) (o : Fin 8) : Fpwm :=
  if s.dev = .boot then .highZ
  else match s.pN P.THM_PWM_SRC o.1 with
    | 0 => .highZ
    | 1 => .runs (s.pN P.THM_PWM_HZ o.1) (s.pN P.THM_PWM_DUTY o.1) (s.pB P.THM_PWM_POL o.1)
    | _ => .runs (s.pN P.THM_PWM_HZ o.1) (s.pwmDuty o.1) (s.pB P.THM_PWM_POL o.1)

/-- MODE of BLY_STATUS. -/
def State.blyMode (s : State) (x : BlySlot) : Nat :=
  let d := descOf x.cfg.desc
  if d.law = lawMirror then
    match (s.scn[Fin.ofNat 4 d.outIdx]).st with
    | .sweep => 3
    | .locking => 4
    | .locked => 4
    | _ => 2
  else d.mode

/-- BLY_STATUS (Table 12-13). -/
def State.blyStatus (s : State) (k : Fin 128) : Bytes :=
  let x := s.bly.slot[k]
  if !x.on then zeros 20 ++ toLE 8 x.swapTick ++ zeros 4
  else
    let d := descOf x.cfg.desc
    let left := match x.blend with
      | some b => b.n + 1 - b.k
      | none => 0
    [byteOf d.law, byteOf (s.blyMode x), byteOf (b2n x.bankB),
      byteOf (b2n x.fLim + 2 * b2n x.fInt + 4 * b2n x.blend.isSome + 8 * b2n x.fStale + 16 * b2n x.fStop)] ++
      toLE 2 left ++ zeros 2 ++ toSLE 4 x.y ++ toSLE 4 x.u ++ toSLE 4 (Sys2Proof.Machine.convert 0 x.i) ++ toLE 8 x.swapTick ++ zeros 4

end Sys2Proof.Machine
end

