-- ==== Sys2Proof/Machine/Solving.lean ====
section
/-! DEFINITION. The SOLVE task of a tick: completion, deadline, application at the edge (08 R425 to R448; 02 R62 to R66;
20 R895). -/

namespace Sys2Proof.Machine

/-- The inputs of a head's solve: bound channels of G0 to G5 in ascending order; a channel with a latched fault is excluded from
every solve (R427). -/
def State.solveIns (s : State) (b : Bank) (h : Nat) (cal : Bool) : List ChanIn :=
  (allFin 48).filterMap (fun c =>
    match bindOf b c.1 with
    | some (hh, role) =>
      if hh = h ∧ role ≤ 5 then
        let k := calOf (bkT b P.COL_CAL c.1)
        let e := s.em[c]
        let est := if cal then { e.est with lambda := k.lref, power := k.pnom, src := 3, ratioOut := false }
          else e.estNow k (if k.tsense = 0xFF then none else s.tickTemp k.tsense)
        some ⟨c, role, est, e.faulted || est.power == 0, s.pN P.EMT_MAXCODE c.1, k⟩
      else none
    | none => none)

/-- The calibration solve of a head under a configuration (R437). DESIGN CHOICE: assumption 46. -/
def State.calSolve (s : State) (b : Bank) (h : Nat) : Option Solve := solveOf b h (s.solveIns b h true) none true 0 false

def State.modCol (s : State) (h : HeadIx) (f : Col → Col) : State := { s with col := vmod s.col h f }

/-- COL_MODE. -/
def tracks (b : Bank) (h : Nat) : Bool := bkN b P.COL_MODE h == 1

/-- Does a solve match a configuration's groups and bindings (R64)? DEDUCED: assumption 47. -/
def Solve.matches (x : Solve) (b : Bank) (h : Nat) : Bool :=
  x.chans.map (fun u => (u.chan, u.role)) ==
    (allFin 48).filterMap (fun c => match bindOf b c.1 with
      | some (hh, role) => if hh = h ∧ role ≤ 5 then some (c.1, role) else none
      | none => none)

/-- The solve a head holds: the one in use, or the calibration solve (R65). DEDUCED: assumption 47. -/
def Col.holds (x : Col) : Option Solve := if x.produced then x.cur else x.cal

/-- The head's solves as an edge finds them: a commit of that edge installs its calibration solve (R65, R73). -/
def State.colAt (s : State) (h : HeadIx) (edge : Nat) : Col :=
  let x := s.col[h]
  match s.tick.commitAt with
  | some c => if c ≤ edge then { x with cal := x.calNext } else x
  | none => x

/-- Is every solve held because no rope carries the SOLVE entry (17 R785)? -/
def State.solveBare (s : State) : Bool := s.flt.bare.any (fun e => e.1 == 3)

/-- The solve deadline of the running tick (R62). -/
def State.deadlineAt (s : State) : Nat := s.tick.edgeAt + s.tick.period * 85 / 100

/-- What the deadline arms for a head (R63 to R65): held, and blanked under R64. A head whose solve fails (08 R436) holds too.
DEDUCED: assumption 93. -/
def State.heldAt (s : State) (h : HeadIx) (b : Bank) : Bool × Bool :=
  let x := s.colAt h (s.tick.count + 1)
  if !(s.head[h]).on || !tracks b h.1 then (false, false)
  else match x.next with
    | .ok _ => (false, false)
    | _ => (true, !((x.holds).map (fun y => y.matches b h.1)).getD false)

/-- The deadline of the running tick (R62 to R66): at most one EV_TICK_OVERRUN. -/
def State.deadline (s : State) : State :=
  if s.sol.deadline then s
  else
    let n := s.tick.count + 1
    let b := s.bankAt n
    let marks := (allFin 4).map (fun h => (h.1, s.heldAt h b))
    let held := maskOf ((marks.filter (fun m => m.2.1)).map (·.1))
    let blanked := maskOf ((marks.filter (fun m => m.2.2)).map (·.1))
    let s := { s with sol := { s.sol with deadline := true, held := held, dimNext := if s.sol.done then s.sol.dimNext else s.dimmed b } }
    if held = 0 then s
    else
      let s := { s with tick := { s.tick with overruns := inc 32 s.tick.overruns } }
      s.raise evTickOverrun (toBE 8 n ++ [byteOf held, byteOf blanked, 0#8, 0#8])

/-- SOLVE_DEADLINE (02 R62, R63): an instant before 0.85 T after the edge changes nothing. -/
def execSolveDeadline (t : Nat) (s : State) : Res :=
  let s := s.atTime t
  if s.now < s.deadlineAt then .next s else .next s.deadline

/-- SOLVE_COMPLETE (08 R432, R436; 02 Table 2-2 step 2): the solves for the next frame of every running TRACK head. A solve
that completes after the deadline is discarded (R63). -/
def execSolveComplete (t : Nat) (s : State) : Res :=
  let s := s.atTime t
  if s.sol.done || s.solveBare then .next s
  else
    let s := if Nat.blt s.deadlineAt s.now then s.deadline else s
    let next := s.tick.count + 1
    let b := s.bankAt next
    let s := { s with sol := { s.sol with dimNext := if s.sol.deadline then s.sol.dimNext else s.dimmed b } }
    let s := { s with tick := { s.tick with solves := (s.tick.count, s.now - s.tick.edgeAt) :: s.tick.solves.take 255 } }
    if s.sol.deadline then .next { s with sol := { s.sol with done := true } }
    else
      let one (s : State) (h : HeadIx) : State :=
        let x := s.col[h]
        if !(s.head[h]).on || !tracks b h.1 then s
        else match solveOf b h.1 (s.solveIns b h.1 false) x.holds false next (bit (s.dimmed b) h.1) with
          | some r => s.modCol h (fun x => { x with next := .ok r, lastFailed := false })
          | none =>
            let s := if x.lastFailed then s else s.log 2 2 clsInfo h.1 []
            s.modCol h (fun x => { x with next := .failed, lastFailed := true, fails := inc 32 x.fails })
      .next { (allFin 4).foldl one s with sol := { s.sol with done := true } }

/-- Apply the armed solve of a head at an edge, under the configuration then active (R63 to R65, R439, R448). DEDUCED:
assumption 47. -/
def State.applySolve (s : State) (h : HeadIx) : State :=
  let b := s.par.active
  let n := s.tick.count
  if !(s.head[h]).on then s.modCol h (fun x => { x with next := .none, blank := false })
  else s.modCol h (fun x =>
    if !tracks b h.1 then
      let y := if bit s.sol.dimNext h.1 then solveOf b h.1 (s.solveIns b h.1 true) none true n true else x.cal
      { x with cur := y.map (fun y => { y with forTick := n }), next := .none, blank := false }
    else match x.next with
      | .ok r => { x with cur := some { r with forTick := n }, produced := true, next := .none, blank := false }
      | nx =>
        let base := x.holds
        let failed := match nx with
          | .failed => true
          | _ => false
        { x with
          cur := base.map (fun y => { y with held := true, failed := failed, forTick := n })
          next := .none
          blank := !(base.map (fun y => y.matches b h.1)).getD false })

/-- COL_SOLVE (Table 8-7). DEDUCED: assumption 45. -/
def solveBytes : Option Solve → Bytes
  | none => zeros 64
  | some x =>
    [byteOf x.groups, byteOf x.active] ++
      toLE 2 (1 + 2 * b2n x.held + 4 * b2n x.cal + 8 * b2n x.limited + 16 * b2n x.floor + 32 * b2n x.clip + 64 * b2n x.failed) ++
      x.m.flatMap (toLE 2) ++ toLE 4 x.dt ++ toLE 4 x.di ++ toLE 4 x.lum ++ toLE 2 x.sat ++ zeros 2 ++ toLE 8 x.forTick

/-- COL_EST (Table 8-6): the estimates in use for the current frame. -/
def ChanUse.estBytes (u : ChanUse) : Bytes :=
  toLE 2 u.est.lambda ++ [byteOf (u.est.src + 4 * b2n u.est.stale + 8 * b2n u.est.ratioOut + 16 * b2n u.excluded), byteOf u.range] ++
    toLE 4 u.est.power ++ toLE 2 u.k ++ toLE 2 u.scale ++ toLE 2 u.est.age ++ zeros 2

def State.estBytes (s : State) (c : ChanIx) : Bytes :=
  match bindOf s.par.active c.1 with
  | some (h, _) => (((s.col[Fin.ofNat 4 h]).cur.bind (fun x => x.chan c.1)).map ChanUse.estBytes).getD (zeros 16)
  | none => zeros 16

end Sys2Proof.Machine
end

