-- ==== Sys2Proof/Machine/Emitters.lean ====
section
/-! DEFINITION. Emitter channels: sensing, diagnosis, faults, probes and the interlock pins (11 R550 to R583; 08 R412 to
R416). -/

namespace Sys2Proof.Machine

/-! ## Sensing -/

/-- A count of range r, normalised (R550). -/
def normalised (raw r : Nat) : Nat := raw * 8 ^ r

/-- A front end after a sample (R551). -/
def SenseEnd.sample (f : SenseEnd) (raw : Nat) : SenseEnd :=
  { f with overR := decide (60000 < raw), low := if raw < 6000 then min 64 (f.low + 1) else 0, moved := false
           last := normalised raw f.range }

/-- The move that is due: up after an overrange sample, down after 64 low ones (R551). -/
def SenseEnd.due (f : SenseEnd) : Option Nat :=
  if f.overR then (if f.range < 3 then some (f.range + 1) else none)
  else if f.low = 64 then (if 0 < f.range then some (f.range - 1) else none)
  else none

/-- SENSE_RANGE_CHANGE (R551): takes effect at the next aperture boundary, so the next sample is the range-change sample. -/
def execSenseRangeChange (c : ChanIx) (wavelength : Bool) (s : State) : Res :=
  let f := if wavelength then (s.em[c]).pdw else (s.em[c]).pdp
  match f.due with
  | none => .next s
  | some r =>
    let f := { f with range := r, low := 0, overR := false, moved := true }
    .next (s.modEm c (fun e => if wavelength then { e with pdw := f } else { e with pdp := f }))

/-- Is a sample lit, dark (Table 8-1)? -/
def isLit (d : Aperture) (moved : Bool) : Bool := decide (4095 ≤ 256 * d.minCode) && decide (500 ≤ d.litFor) && !moved
def isDark (d : Aperture) : Bool := d.maxCode == 0 && decide (2000 ≤ d.darkFor)

/-- The gain of a channel in the driver range on its pins, U0.16. -/
def State.gainNow (s : State) (c : ChanIx) : Nat := (calOf (s.pT P.COL_CAL c.1)).gain (s.em[c]).range

/-- Add a sample to the sums of the tick (R414) and to the channel's totals. -/
def Emit.addSample (e : Emit) (p w : Nat) (d : Aperture) (lit dark : Bool) (gain : Nat) : Emit :=
  let x := e.sums
  let x := { x with n := x.n + 1, q := x.q + p }
  let x := if lit then
      { x with nl := x.nl + 1, sp := x.sp + p, sw := x.sw + w, sd := x.sd + d.meanCode * gain
               pn := x.pn + b2n d.probe, pp := if d.probe then x.pp + p else x.pp }
    else x
  let x := if dark then { x with nd := x.nd + 1, zp := x.zp + p, zw := x.zw + w } else x
  { e with sums := x, tot := (e.tot.1 + 1, e.tot.2 + p), totDark := if dark then (e.totDark.1 + 1, e.totDark.2 + p) else e.totDark }

/-- The Anchor's mean of a channel is watched (R578). -/
def State.watched (s : State) (c : ChanIx) : Bool := s.pN P.EMT_MAXCODE c.1 != 0 || s.pN P.EMT_MAXBIAS c.1 != 0

/-- Does the 1 ms mean exceed EMT_MAXPWR? DEDUCED: assumption 59. -/
def State.overPower (s : State) (c : ChanIx) : Bool :=
  s.watched c && Nat.blt (2000 * s.pN P.EMT_MAXPWR c.1) ((s.em[c]).mean.foldl (· + ·) 0)

/-- SENSE_SAMPLE (R550, R412 to R414, R578). While PLL_SNS is unlocked a sample is neither lit nor dark, and the Anchor's
mean does not use it (18 Table 18-3). -/
def execSenseSample (c : ChanIx) (rawP rawW : BitVec 16) (drive : Aperture) (s : State) : Res :=
  let e := s.em[c]
  let moved := e.pdp.moved || e.pdw.moved
  let p := normalised rawP.toNat e.pdp.range
  let w := normalised rawW.toNat e.pdw.range
  let sns := s.locked pllSns
  let bound := (s.boundHead c).isSome
  let lit := sns && bound && s.permitted c && isLit drive moved
  let dark := sns && bound && isDark drive
  let entry := if e.pdp.moved then max p e.pdp.last else p
  let s := s.modEm c (fun e =>
    let e := { e with pdp := e.pdp.sample rawP.toNat, pdw := e.pdw.sample rawW.toNat }
    let e := if sns then { e with mean := (entry :: e.mean).take 2000 } else e
    e.addSample p w drive lit dark (s.gainNow c))
  if sns && s.overPower c then .next (s.latchAnchor (.power c)) else .next s

/-! ## Channel faults (R548, R559 to R568) -/

inductive ChanFault where
  | open_ (cause : Nat)
  | light
  | driver
  deriving DecidableEq, Repr

/-- Latch a channel fault (R566, Table 11-7): counter, log entry, event, blanking. DEDUCED: assumption 59. -/
def State.chanFault (s : State) (c : ChanIx) (f : ChanFault) (ratio : Nat) : State :=
  let head := match s.boundHead c with
    | some (h, _) => h.1
    | none => 0
  let (ev, code, cause) := match f with
    | .open_ k => (evEmitterOpen, 1, k)
    | .light => (evEmitterShort, 2, 1)
    | .driver => (evEmitterShort, 3, 2)
  let d := [byteOf c.1, byteOf head, byteOf cause, 0#8] ++ toBE 2 ratio ++ zeros 2
  let s := s.modEm c (fun e =>
    let e := { e with faults := inc 32 e.faults }
    match f with
    | .open_ _ => { e with openF := true }
    | .light => { e with shortF := true }
    | .driver => { e with shortF := true, driverF := true })
  ((s.settleFault c).log 0x22 code clsChannel c.1 d).raise ev d

/-- DRIVER_FAULT (R548): ECn_FLT has been at its fault level for 1 us. -/
def execDriverFault (c : ChanIx) (s : State) : Res :=
  if (s.boundHead c).isSome && s.pN P.EMT_FLT_MODE c.1 != 0 && !(s.em[c]).driverF then
    .next (s.chanFault c .driver 0)
  else .next s

/-- An accepted write of EMT_FLTCLR (R567). -/
def State.fltClear (s : State) (mask : Nat) : State :=
  ((allFin 48).foldl (fun s c =>
    if bit mask c.1 then s.modEm c (fun e => { e with
      openF := false, shortF := false, driverF := false, winQ := [], winE := 0, evaluated := false, shortRun := 0 })
    else s) s).settle

/-! ## Diagnosis (R557 to R565) -/

/-- The window position of a tick for a channel; 31 is the probe tick (R558). -/
def windowPos (n : Nat) (c : ChanIx) : Nat := (n + c.1) % 32

/-- ψ as a fraction. -/
structure Psi where
  num : Int
  den : Nat
  deriving DecidableEq, Repr

/-- U1.15, truncated and saturating. -/
def Psi.code (x : Psi) : Nat := if x.num ≤ 0 ∨ x.den = 0 then 0 else min 65535 (x.num.toNat * 32768 / x.den)

/-- Is ψ below a U0.16 fraction? -/
def Psi.below (x : Psi) (f : Nat) : Bool := decide (x.num * 65536 < f * x.den)

/-- PROBE (Table 11-6): the mean of the probe's lit samples above the dark mean, over the expected light. -/
def Emit.probePsi (e : Emit) (k : Cal) (code gain : Nat) : Psi :=
  let (nd, zp, _) := e.darkNow
  let nd := max nd 1
  -- (pp/pn - zp/nd) / (code/4095 * gain/2^16 * pnom*2^16/resp)
  ⟨((e.sums.pp : Int) * nd - (e.sums.pn : Int) * zp) * 4095 * k.resp, e.sums.pn * nd * code * gain * k.pnom⟩

/-- LIT: (P' / S_D) / Π. -/
def Emit.litPsi (e : Emit) (k : Cal) : Psi :=
  let (p, _, n) := e.primed
  ⟨p * 4095 * 65536 * k.resp, n * e.sums.sd * k.pnom⟩

/-- INTEGRAL: Q over the ticks of the window, with E in units of Π / (4095 * 2^16 * 20000). -/
def Emit.integralPsi (e : Emit) (k : Cal) : Psi :=
  let den := e.winQ.foldl (fun a (_, _, _, d) => a * d) 1
  let num := e.winQ.foldl (fun (a : Int) (q, n, z, d) => a + ((q : Int) * d - (n : Int) * z) * ((den / d : Nat) : Int)) 0
  ⟨num * k.resp * 4095 * 20000, den * e.winE * k.pnom⟩

/-- E ≥ EMT_DET_CNT: E = Π * winE / (4095 * 2^16 * 20000), Π = P_NOM * 2^16 / RESP. -/
def Emit.detCount (e : Emit) (k : Cal) (cnt : Nat) : Bool := decide (cnt * 4095 * 20000 * k.resp ≤ e.winE * k.pnom)

/-- Π is given: the channel is calibrated. DEDUCED: assumption 59. -/
def Cal.known (k : Cal) : Bool := k.resp != 0 && k.pnom != 0

/-- The probe's code (R562). -/
def State.probeCode (s : State) (c : ChanIx) : Nat := min (s.pN P.EMT_PROBE c.1) (s.pN P.EMT_MAXCODE c.1)

/-- Evaluate the tests of one channel as tick `m` closes; the edge is tick `m + 1` (R559 to R564). DEDUCED: assumption 59. -/
def State.diagnose (s : State) (c : ChanIx) (m : Nat) (b : Bank) : State :=
  let e := s.em[c]
  let k := calOf (bkT b P.COL_CAL c.1)
  if !(bindOf b c.1).isSome || !e.steady || !k.known then s
  else
    let lit := e.validSums (bkN b P.COL_MIN_SAMPLES c.1)
    let (nd, zp, _) := e.darkNow
    let e1 := if lit then e
      else { e with winQ := (e.sums.q, e.sums.n, zp, max nd 1) :: e.winQ, winE := e.winE + e.sums.e }
    let probed := windowPos m c == 31 && e.sums.probed && e.sums.pn != 0
    let test : Option (Nat × Psi) :=
      if probed then some (3, e1.probePsi k (s.probeCode c) (k.gain e.range))
      else if lit then some (1, e1.litPsi k)
      else if e1.detCount k (bkN b P.EMT_DET_CNT c.1) then some (2, e1.integralPsi k)
      else none
    let e2 := match test with
      | none => e1
      | some (meth, psi) =>
        let e := { e1 with evaluated := true, undetermined := false, windowOver := false, ratio := psi.code, method := meth, evalTick := m + 1 }
        if meth = 2 then { e with winQ := [], winE := 0 } else e
    -- SHORT: Z_P > SHORT_FRAC * Π in two consecutive ticks with 64 dark samples
    let e3 := if e.sums.nd < 64 then e2
      else if Nat.blt (bkN b P.EMT_SHORT_FRAC c.1 * k.pnom * e.sums.nd) (e.sums.zp * k.resp) then { e2 with shortRun := e2.shortRun + 1 }
      else { e2 with shortRun := 0 }
    let s := s.modEm c (fun _ => e3)
    let s := match test with
      | some (meth, psi) => if psi.below (bkN b P.EMT_OPEN_FRAC c.1) then s.chanFault c (.open_ meth) psi.code else s
      | none => s
    if 2 ≤ e3.shortRun ∧ e3.shortF = false then
      s.chanFault c .light (Psi.code ⟨(e.sums.zp : Int) * k.resp, e.sums.nd * k.pnom * 65536⟩)
    else s

/-- Close the window of a channel that ends with tick m (R558, R560, R563). -/
def State.closeWindow (s : State) (c : ChanIx) (m : Nat) : State :=
  if windowPos m c = 31 then
    s.modEm c (fun e => { e with windowOver := !e.evaluated && (s.boundHead c).isSome, evaluated := false, winQ := [], winE := 0 })
  else s

/-- DIAG_WINDOW_END (R563). -/
def execDiagWindowEnd (c : ChanIx) (s : State) : Res :=
  if (s.em[c]).windowOver then .next (s.modEm c (fun e => { e with windowOver := false, undetermined := true })) else .next s

/-- SIDE of a scan head's probe zone (10 Table 10-3). DEDUCED: assumption 58. -/
def State.probeSide (s : State) (h : HeadIx) : Nat := u8 (s.pT P.SCN_PROBE h.1) 0

/-- Schedule a probe at the edge that begins tick n (R561). -/
def State.scheduleProbe (s : State) (c : ChanIx) : State :=
  let e := s.em[c]
  let due := windowPos s.tick.count c == 31 && !e.evaluated && s.pN P.EMT_PROBE c.1 != 0 && e.steady &&
    (match s.boundHead c with
     | some (h, _) => s.isPlane h || (s.isScan h && s.probeSide h != 0)
     | none => false)
  s.modEm c (fun e => { e with probeDue := due })

/-- Close the sums of the tick that ended, under the configuration it ran with: estimates, then diagnosis (R414, R559). -/
def State.closeSums (s : State) (b : Bank) : State :=
  let m := s.tick.count - 1
  let lit := s.dev == .lit
  let s := (allFin 48).foldl (fun s c =>
    let k := calOf (bkT b P.COL_CAL c.1)
    match bindOf b c.1 with
    | some (_, role) =>
      if role ≤ 5 then
        s.modEm c (fun e => e.closeEst k (bkN b P.COL_MIN_SAMPLES c.1) (if k.tsense = 0xFF then none else s.tickTemp k.tsense) lit)
      else s
    | none => s.modEm c (fun e => { e with fresh := false, est := Est.reset })) s
  let s := (allFin 48).foldl (fun s c => (s.diagnose c m b).closeWindow c m) s
  (allFin 48).foldl (fun s c => s.modEm c (fun e => { e with
    dark := e.darkNow
    sums := TickSums.reset
    probeDue := false })) s

/-- Begin a tick for the channels: permitted so far, probes scheduled (R557, R561). -/
def State.openSums (s : State) : State :=
  (allFin 48).foldl (fun s c => (s.modEm c (fun e => { e with steady := s.permitted c })).scheduleProbe c) s

/-! ## Probes and range points -/

/-- A probe's pulse: 2 us from 0.5 us into the window of a DARK slot, or centred on a turning point (R562). -/
def State.emitProbe (s : State) (c : ChanIx) (base : Nat) (start : Int) : State :=
  let s := s.modEm c (fun e => { e with probes := inc 32 e.probes, probeDue := false, sums := { e.sums with probed := true } })
  s.pulse c base (s.probeCode c) start 80000 (s.gainNow c)

/-- First DARK slot, in schedule order, whose DUR is at least 1,600 (R562). -/
def probeSlot (slots : List Slot) : Option Nat := slots.findIdx? (fun x => x.dark && decide (1600 ≤ x.dur))

/-- PROBE_EMIT (R562): in the DARK slot of the first head frame of the probe tick, or at the turning point of SIDE.
DEDUCED: assumption 59. -/
def execProbeEmit (c : ChanIx) (s : State) : Res :=
  let e := s.em[c]
  match s.boundHead c with
  | none => .next s
  | some (h, _) =>
    if !e.probeDue || !e.steady || !s.permitted c || s.blankNow h then .next s
    else if s.isPlane h then
      let p := s.pln[h]
      if p.shown.first && p.slot.isSome && p.slot == probeSlot (slotsOf p.shown.sched) then
        .next (s.emitProbe c (1000 * p.shown.t0 + p.sigmaPs) (100 * tX s.par.active h.1 + 20000))
      else .next s
    else
      let x := s.scn[h]
      if x.turn = s.probeSide h ∧ x.turn ≠ 0 ∧ (s.head[h]).second = false then .next (s.emitProbe c (1000 * x.lineAt) (-40000)) else .next s

/-- The channel's use in the solve in use, or the one armed for the next frame. -/
def State.useOf (s : State) (h : HeadIx) (c : ChanIx) : Option ChanUse := ((s.col[h]).cur).bind (fun x => x.chan c.1)

/-- Take the ranges of a head's solve on ECn_RNG (R545), and TCH_RANGE for its TOUCH channel (14 R668). A channel with no
solve keeps its range. DESIGN CHOICE: assumption 60. -/
def State.setRanges (s : State) (h : HeadIx) (x : Option Solve) : State :=
  (boundTo s.par.active h.1).foldl (fun s c =>
    if bindOf s.par.active c.1 == some (h.1, roleTouch) then s.modEm c (fun e => { e with range := s.pN P.TCH_RANGE h.1 })
    else match x.bind (fun y => y.chan c.1) with
    | some u => s.modEm c (fun e => { e with range := u.range })
    | none => s) s

/-- RANGE_POINT (R545): on a plane head 2.5 us before Λ of the first head frame of a tick; on a scan head the tick edge. -/
def execRangePoint (h : HeadIx) (s : State) : Res :=
  if s.running h && ((s.isScan h) || (s.isPlane h && !(s.head[h]).second)) then .next (s.setRanges h (s.col[h]).cur) else .next s

/-! ## The interlock pins (R570 to R573) and scan motion (R579, R580) -/

/-- EMIT_EN_EDGE (R573). -/
def execEmitEnEdge (t : Nat) (pin : EnPin) (level : Bool) (s : State) : Res :=
  let s := s.atTime t
  let a := match pin with
    | .a => { s.anc with pinA := level }
    | .b => { s.anc with pinB := level }
  let differ := if a.pinA == a.pinB then none else some (a.differAt.getD s.now)
  .next ({ s with anc := { a with differAt := differ } }.settle)

/-- INTERLOCK_DROP (R570, R571; in HOLD with LIT at entry, 19 Table 19-3). -/
def execInterlockDrop (pin : EnPin) (s : State) : Res :=
  let low := match pin with
    | .a => !s.anc.pinA
    | .b => !s.anc.pinB
  if !low then .next s
  else match s.dev with
    | .lit => .next s.toArmed
    | .hold => if s.pwr.holdFrom = .lit then .next { s with pwr := { s.pwr with holdDrop := true } } else .next s
    | _ => .next s

/-- DISCREPANCY (R573): the pins have differed for more than 2 ms. -/
def execDiscrepancy (t : Nat) (s : State) : Res :=
  let s := s.atTime t
  match s.anc.differAt with
  | some a => if a + 2000000 < s.now ∧ s.dev ≠ .boot then .next (s.latchAnchor .discrepancy) else .next s
  | none => .next s

/-- SCAN_MOTION_INVALID (R579): only a running scan head is watched. -/
def execScanMotionInvalid (h : HeadIx) (s : State) : Res :=
  if s.isScan h && s.running h then .next ({ s with anc := { s.anc with motion := vset s.anc.motion h false } }.settle) else .next s

/-- SCAN_MOTION_VALID (R580). -/
def execScanMotionValid (h : HeadIx) (s : State) : Res :=
  if s.isScan h && s.running h then .next ({ s with anc := { s.anc with motion := vset s.anc.motion h true } }.settle) else .next s

end Sys2Proof.Machine
end

