-- ==== Sys2Proof/Machine/Island.lean ====
section
/-! DEFINITION. The Cairn island: weighing, seal and audit, the terminal, window buffers, the legal check and LEGAL_OK (15 R690
to R737). Weights are over 2^33 value units. -/

namespace Sys2Proof.Machine

def State.modIsl (s : State) (f : Isl → Isl) : State := { s with isl := f s.isl }

/-- One value unit. -/
def wOne : Int := 2 ^ 33

/-! ## Displayed values (R704) -/

/-- A weight rounded to the nearest multiple of e, halves away from zero, in value units. -/
def roundTo (g : Int) (e : Nat) : Int := divRoundI g (2 ^ 33 * e) * e

/-- G. -/
def Isl.gross (x : Isl) : Int := x.wf - x.zero
/-- The displayed gross value. -/
def Isl.shownGross (x : Isl) : Int := roundTo x.gross x.metro.e
/-- The displayed value: net in net mode. -/
def Isl.shownValue (x : Isl) : Int := if x.net then x.shownGross - x.tare else x.shownGross

/-- A weight against `n` intervals e. -/
def Isl.intervals (x : Isl) (n : Int) : Int := n * x.metro.e * wOne

def Isl.overR (x : Isl) : Bool := decide ((x.metro.max : Int) * wOne + x.intervals 9 < x.gross)
def Isl.under (x : Isl) : Bool := decide (x.gross < x.intervals (-20))
def Isl.bridgeFault (x : Isl) : Bool := (allFin 4).any (fun b => x.metro.mask.getLsbD b.1 && (x.bridges[b]).fault)

/-- The indication is valid (R706). -/
def Isl.valid (x : Isl) : Bool :=
  x.run == .run && !x.sealOpen && !x.bridgeFault && !x.overR && !x.under && x.zeroInit.isSome

/-! ## LEGAL_OK (R727, R730) -/

def Isl.anyMismatch (x : Isl) : Bool := x.heads.toList.any (fun h => h.composing && h.inMismatch)

/-- Some head is in mismatch, composing or not: the invalid form is rendered (R728). -/
def Isl.someMismatch (x : Isl) : Bool := x.heads.toList.any (·.inMismatch)

/-- The conditions of R727. -/
def Isl.legal (x : Isl) : Bool :=
  x.valid && !x.pllOut && x.heads.toList.any (·.composing) && !x.anyMismatch && x.heads.toList.all (fun h => !h.composing || h.shown)

/-- Why LEGAL_OK does not hold (Table 15-3): cause, head, expected and read CRC. DEDUCED: assumption 69. -/
def Isl.legalCause (x : Isl) : Nat × Nat × Nat × Nat :=
  if x.run ≠ .run then (3, 255, 0, 0)
  else if x.sealOpen then (4, 255, 0, 0)
  else if !x.valid then (2, 255, 0, 0)
  else if x.heads.toList.all (fun h => !h.composing) then (5, 255, 0, 0)
  else match (allFin 4).find? (fun h => (x.heads[h]).composing && ((x.heads[h]).inMismatch || !(x.heads[h]).shown)) with
    | some h => (1, h.1, (x.heads[h]).expect, (x.heads[h]).read)
    | none => (5, 255, 0, 0)

/-- Judge LEGAL_OK after a comparison or a state change; while the weight image is not rendered, no head shows it (R728). -/
def Isl.judge (x : Isl) : Isl :=
  let weight := x.valid && !x.someMismatch
  let x := if weight then x else { x with heads := x.heads.map (fun h => { h with shown := false }) }
  let ok := x.legal
  { x with legalOk := ok, cause := if x.legalOk && !ok && x.cause.isNone then some x.legalCause else x.cause }

/-- At an edge: EV_LEGAL_INVALID for a tick in which LEGAL_OK changed (R730). DEDUCED: assumption 69. -/
def State.legalEdge (s : State) : State :=
  let x := s.isl
  let s := s.modIsl (fun x => { x with legalEdge := x.legalOk, cause := none })
  let data (c : Nat × Nat × Nat × Nat) : Bytes := [byteOf c.1, byteOf c.2.1, 0#8, 0#8] ++ toBE 4 c.2.2.1 ++ toBE 4 c.2.2.2
  if x.legalOk = x.legalEdge ∧ x.cause.isNone then s
  else if x.legalOk then s.raise evLegalInvalid (data (0, 255, 0, 0))
  else s.raise evLegalInvalid (data (x.cause.getD x.legalCause))

/-- Run an island step on an AX device (R737), and judge; the island then has reported its state. DEDUCED: assumption 69. -/
def State.island (s : State) (f : Isl → Isl) : State :=
  if Config.variantNx then s else s.modIsl (fun x => { (f x).judge with reported := true })

/-! ## Start and stop (R690 to R696, R714) -/

/-- The highest written slot whose signature verifies. DESIGN CHOICE: assumption 10. -/
def Isl.bootSlot (x : Isl) : Option (Fin 4) :=
  ((allFin 4).reverse).find? (fun k => match x.slots.get k with
    | none => false
    | some z => Config.islandSignature z.image)

/-- What the island keeps while it is off: the seal store and the program store. -/
def Isl.poweredOff (x : Isl) : Isl :=
  { Isl.reset with slots := x.slots, audit := x.audit, metro := x.metro, geom := x.geom, sealOpen := x.sealOpen
                   reported := x.reported, legalOk := x.legalOk, legalEdge := x.legalEdge, cause := x.cause }

/-- ISLAND_START (R691, R696). DEDUCED: assumption 69. -/
def execIslandStart (s : State) : Res :=
  if s.isl.run ≠ .off then .next s
  else .next (s.island (fun x =>
    let x := x.poweredOff
    match x.bootSlot with
    | none => { x with run := .fault }
    | some k => { x with run := .run, slot := k.1, zero := x.metro.zCal * 131072 }))

/-- ISLAND_CRYSTAL_FAIL (R692). -/
def execIslandCrystalFail (s : State) : Res :=
  if s.isl.run ≠ .run then .next s else .next (s.island (fun x => { x with run := .fault }))

/-- An audit record (Table 15-2). DESIGN CHOICE: assumption 67. -/
def auditRecord (number kind : Nat) (body : Bytes) : Bytes :=
  let b := toLE 2 number ++ [byteOf kind, 0#8] ++ body
  b ++ [crc8 0x07#8 0#8 b, 0#8]

/-- ISLAND_POWER_LOSS (R714): a record whose write it interrupted reads INCOMPLETE and counts. -/
def execIslandPowerLoss (duringWrite : Bool) (s : State) : Res :=
  if s.isl.run = .off then .next s
  else .next (s.island (fun x =>
    let n := x.audit.length
    let cut := duringWrite && x.sealOpen && decide (n < 4096)
    { x.poweredOff with
      audit := if cut then x.audit ++ [auditRecord (n + 1) 5 (toLE 10 (Config.incompleteRecord (n + 1)).toNat)] else x.audit }))

/-! ## Weighing (R699 to R709) -/

/-- A code the converter saturates at. -/
def codeSaturated (c : Int) : Bool := decide (8388607 ≤ c) || decide (c ≤ -8388608)

/-- One bridge after a conversion (R702). DEDUCED: assumption 66. -/
def Bridge.step (b : Bridge) (code : Int) (lowSense : Bool) (rate : Nat) : Bridge :=
  let c := clampI (-8388608) 8388607 code
  if lowSense || codeSaturated c then
    { b with last := c, bad := min (b.bad + 1) 2, good := 0, fault := b.fault || decide (1 ≤ b.bad) }
  else
    let good := min (b.good + 1) rate
    { b with last := c, bad := 0, good := good, fault := b.fault && decide (good < rate) }

/-- The raw load, over 2^33 value units; under AC excitation pairs of conversions are combined (R700, R703). -/
def Isl.rawLoad (x : Isl) (codes : Vector Int 4) : Int :=
  (allFin 4).foldl (fun a b =>
    if x.metro.mask.getLsbD b.1 then
      let c := clampI (-8388608) 8388607 codes[b]
      let p := if x.metro.ac then (x.bridges[b]).last else c
      a + x.metro.k[b] * (c + p - 2 * x.metro.z[b])
    else a) 0

/-- Is the indication stable over the last second of G (R705)? DEDUCED: assumption 66. -/
def stableOver (rate e : Nat) (hist : List Int) : Bool :=
  let n : Int := hist.length
  let sum : Int := hist.foldl (· + ·) 0
  decide (rate ≤ hist.length) && hist.all (fun g => decide (2 * (n * g - sum) ≤ n * (e : Int) * wOne) && decide (2 * (sum - n * g) ≤ n * (e : Int) * wOne))

/-- Half-width of the initial zero range, and of the zero range (R707, R708): n per cent of Max. -/
def Isl.percent (x : Isl) (n : Int) : Int := n * x.metro.max * wOne / 100

def within (v c r : Int) : Bool := decide (v - c ≤ r) && decide (c - v ≤ r)

/-- Zero tracking of one conversion (R709). DEDUCED: assumption 66. -/
def Isl.track (x : Isl) : Isl :=
  match x.zeroInit with
  | none => x
  | some z0 =>
    let near := within x.shownGross 0 (4 * x.metro.e)
    if x.metro.zeroTrack && x.stable && near && !x.net then
      let lim := x.metro.e * wOne / (2 * x.metro.rate)
      let z := x.zero + clampI (-lim) lim x.gross
      { x with zero := clampI (z0 - x.percent 2) (z0 + x.percent 2) z }
    else x

/-- One conversion. DEDUCED: assumption 66. -/
def Isl.convert (x : Isl) (codes : Vector Int 4) (low : BitVec 4) : Isl :=
  let w := x.rawLoad codes
  let bridges := Vector.ofFn (fun b : Fin 4 =>
    if x.metro.mask.getLsbD b.1 then (x.bridges[b]).step codes[b] (low.getLsbD b.1) x.metro.rate else x.bridges[b])
  let raws := (w :: x.raws).take x.metro.avg
  let wf := raws.foldl (· + ·) (0 : Int) / ((max raws.length 1 : Nat) : Int)
  let hist := ((wf - x.zero) :: x.hist).take x.metro.rate
  let st := stableOver x.metro.rate x.metro.e hist
  let x := { x with bridges := bridges, raws := raws, wf := wf, hist := hist, stable := st }
  let cal := x.metro.zCal * 131072
  let x := if st && !x.zeroTried then
      if within wf cal (x.percent 10) then { x with zeroTried := true, zeroInit := some wf, zero := wf } else { x with zeroTried := true }
    else x
  x.track

/-! ## The terminal (R717, R718) -/

/-- A character. -/
def ch (c : Char) : Byte := byteOf c.toNat

/-- The decimal digits of a number, at least `n` of them. -/
def digits : Nat → Nat → Nat → Bytes
  | 0, _, _ => []
  | f + 1, n, v => if v = 0 ∧ n = 0 then [] else digits f (n - 1) (v / 10) ++ [byteOf (48 + v % 10)]

/-- A value with DEC decimal places. -/
def decimalText (v dec : Nat) : Bytes :=
  let d := digits 40 (dec + 1) v
  if dec = 0 then d else d.take (d.length - dec) ++ [ch '.'] ++ d.drop (d.length - dec)

/-- Right-aligned in n characters with leading spaces. -/
def padLeft (n : Nat) (b : Bytes) : Bytes := List.replicate (n - b.length) (ch ' ') ++ b

def hexDigit (v : Nat) : Byte := byteOf (if v < 10 then 48 + v else 55 + v)

def crlf : Bytes := [0x0D#8, 0x0A#8]

/-- The status field: seal open first, then overload and underload, then any other cause. PRESUMED: assumption 70. -/
def Isl.statusText (x : Isl) : Bytes :=
  if x.sealOpen then [ch 'S', ch 'O']
  else if x.overR then [ch 'O', ch 'L']
  else if x.under then [ch 'U', ch 'L']
  else if !x.valid then [ch 'I', ch 'V']
  else if x.stable then [ch 'S', ch 'T'] else [ch 'U', ch 'S']

/-- An indication record (R718). PRESUMED: assumption 70. -/
def Isl.record (x : Isl) : Bytes :=
  let v := x.shownValue
  let shown := x.valid
  let value := if shown then padLeft 8 (decimalText v.natAbs x.metro.dec.1) else List.replicate 8 (ch '-')
  let line := x.statusText ++ [ch ','] ++ (if x.net then [ch 'N', ch 'T'] else [ch 'G', ch 'S']) ++ [ch ','] ++
    [if v < 0 then ch '-' else ch '+'] ++ value ++ [ch ','] ++
    (if x.metro.unitTonne then [ch 't', ch ' '] else [ch 'k', ch 'g']) ++ [ch ',']
  let c := (crc8 0x07#8 0#8 line).toNat
  line ++ [hexDigit (c / 16), hexDigit (c % 16)] ++ crlf

/-- The answer to a command that R708 does not accept. -/
def nakLine : Bytes := [ch 'N', ch 'K'] ++ crlf

/-- Does the island serve its terminal? DEDUCED: assumption 65. -/
def State.islandServes (s : State) : Bool := !Config.variantNx && s.isl.run == .run

/-- How long ISL_DE is asserted for n characters of 10 bits, ns: from 1 bit time before them to 1 bit time after (R716). -/
def deTime (baud n : Nat) : Nat := (10 * n + 2) * 1000000000 / baud

/-- Send a line: after what is being sent, with ISL_DE asserted (R716). DESIGN CHOICE: assumption 104. -/
def State.sendLine (s : State) (text : Bytes) : State :=
  let start := max s.now s.isl.deUntil
  let stop := start + deTime s.isl.metro.baud text.length
  (s.modIsl (fun x => { x with deUntil := stop })).emit (.line text start stop)

/-- Does the island listen on ISL_RXD? It does not while it sends (R716). -/
def State.islandHears (s : State) : Bool := s.islandServes && Nat.ble s.isl.deUntil s.now

/-- Answer a terminal command: a record after it executed, or NK; ignored while a record is sent. -/
def State.terminal (s : State) (f : Isl → Option Isl) : State :=
  if s.islandHears = false then s
  else match f s.isl with
    | none => s.sendLine nakLine
    | some x => let s := s.island (fun _ => x)
                s.sendLine s.isl.record

/-- BRIDGE_CONVERSION (R699 to R707, R709); the record of every update where the sealed terminal output asks for it. -/
def execBridgeConversion (codes : Vector Int 4) (lowSense : BitVec 4) (s : State) : Res :=
  if s.islandServes = false ∨ s.isl.pllOut = true then .next s
  else
    let s := s.island (fun x => x.convert codes lowSense)
    .next (if s.isl.metro.everyUpdate then s.sendLine s.isl.record else s)

/-- TERMINAL_ZERO (R708). DEDUCED: assumption 66. -/
def execTerminalZero (s : State) : Res :=
  .next (s.terminal (fun x => match x.zeroInit with
    | none => none
    | some z0 => if x.stable && within x.wf z0 (x.percent 2) then some { x with zero := x.wf } else none))

/-- TERMINAL_TARE (R708). -/
def execTerminalTare (s : State) : Res :=
  .next (s.terminal (fun x =>
    if x.metro.tareSemi && x.stable && decide (0 < x.gross) && decide (x.gross ≤ (x.metro.max : Int) * wOne) then
      some { x with tare := x.shownGross, net := true } else none))

/-- TERMINAL_CLEAR_TARE (R708). -/
def execTerminalClearTare (s : State) : Res := .next (s.terminal (fun x => some { x with tare := 0, net := false }))

/-- TERMINAL_PRINT (R718). -/
def execTerminalPrint (s : State) : Res := .next (s.terminal some)

/-- TERMINAL_IDENTIFY (R698): the identification line shows for 5 s. -/
def execTerminalIdentify (s : State) : Res := .next (s.terminal (fun x => some { x with ident := some (s.now + 5000000000) }))

/-- IDENTIFY_TIMEOUT (R698): the 5 s are over; before that the line stays. -/
def execIdentifyTimeout (s : State) : Res :=
  match s.isl.ident with
  | some t => .next (if s.islandServes && Nat.ble t s.latest then s.island (fun x => { x with ident := none }) else s)
  | none => .next s

/-! ## Seal and audit (R710 to R715) -/

/-- SEAL_BREAK_CHANGE (R712). DEDUCED: assumption 65. -/
def execSealBreakChange (level : Bool) (s : State) : Res := .next (s.island (fun x => { x with sealOpen := level }))

/-- Weighing parameters in the ranges of Table 15-1. DESIGN CHOICE: assumption 67. -/
def metroOk (m : Metro) : Bool :=
  m.mask != 0 && decide (0 < m.e) && decide (100 * m.e ≤ m.max) && decide (m.max ≤ 100000 * m.e) && decide (m.e ≤ m.min) &&
    [10, 20, 40, 80].contains m.rate && decide (1 ≤ m.avg) && decide (m.avg ≤ 64) &&
    decide (9600 ≤ m.baud) && decide (m.baud ≤ 115200)

/-- A geometry of all heads (Table 15-4): the render size is shared. DESIGN CHOICE: assumption 67. -/
def geometryOk (g : Vector Window 4) : Bool :=
  g.toList.all (fun w => windowOk w && w.rw == (g[(0 : Fin 4)]).rw && w.rh == (g[(0 : Fin 4)]).rh)

/-- Kind and item of a change, its VALUE_CRC, and the island after it; none for a value out of range or a written slot. -/
def Isl.apply (x : Isl) (free : Nat) (c : SealChange) : Option (Nat × Nat × Nat × Isl) :=
  let crc := (Config.sealValueCrc free).toNat
  match c with
  | .calibration item m => if metroOk m then some (1, item.toNat, crc, { x with metro := m }) else none
  | .parameter item m => if metroOk m then some (2, item.toNat, crc, { x with metro := m }) else none
  | .geometry item w => if geometryOk w then some (3, item.toNat, crc, { x with geom := w }) else none
  | .imageSlot k v i =>
    if (x.slots.get k).isSome then none else some (4, k.1, crc32 i, { x with slots := vset x.slots k (some ⟨v, i⟩) })

/-- ISL_FW_VERSION: of the running image; 0 when none runs. -/
def Isl.fwVersion (x : Isl) : Nat :=
  if x.run = .off then 0 else match x.slots.get (Fin.ofNat 4 x.slot) with
    | none => 0
    | some z => z.version.toNat

/-- SEAL_CHANGE (R710, R713, R715): the record first, then the change. DEDUCED: assumption 65. DESIGN CHOICE: assumption
67. -/
def execSealChange (change : SealChange) (s : State) : Res :=
  if s.isl.run = .off ∨ s.isl.sealOpen = false ∨ 4096 ≤ s.isl.audit.length then .next s
  else match s.isl.apply s.free change with
    | none => .next s
    | some (kind, item, crc, x) =>
      let n := s.isl.audit.length + 1
      let r := auditRecord n kind (toLE 4 item ++ toLE 4 crc ++ toLE 2 s.isl.fwVersion)
      .next (s.draw.island (fun _ => { x with audit := x.audit ++ [r] }))

/-! ## The window (R719 to R725) -/

/-- ISLAND_BUFFER_POST (R719, R728): the posted image, of the shared render size. DESIGN CHOICE: assumption 68. -/
def execIslandBufferPost (image : Bytes) (s : State) : Res :=
  let g := s.isl.geom[(0 : Fin 4)]
  if s.islandServes && !s.isl.pllOut && image.length == 3 * g.rw * g.rh then
    .next (s.island (fun x => { x with posted := some ⟨image, g.rw, g.rh, x.valid && !x.someMismatch⟩, postedNow := true }))
  else .next s

/-- The latch of the island's state and buffer at an edge (R720, R724). -/
def State.latchWindow (s : State) : State :=
  let x := s.isl
  let live := x.run == .run && x.reported && x.postedNow
  { s with lw := { s.lw with latched := if live then x.posted else none } }

/-- Log once each window that its head's canvas does not contain (R723). -/
def State.logWindows (s : State) : State :=
  (allFin 4).foldl (fun s h =>
    let bad := s.windowBad h && s.pN P.HDT_TYPE h.1 != 0
    let s := if bad && !(s.lw.logged[h]) then s.log (0x10 + h.1) 1 clsHead h.1 [] else s
    { s with lw := { s.lw with logged := vset s.lw.logged h bad } }) s

/-- ISLAND_GEOMETRY_UPDATE (R721 to R723). -/
def execIslandGeometryUpdate (s : State) : Res :=
  if Config.variantNx || s.isl.run == .off then .next s
  else .next ({ (s.island id) with lw := { s.lw with win := s.isl.geom } }.logWindows)

/-- A head frame's readback goes to the island (R343, R725): the buffer latched for it, and its zoom. -/
def State.readback (s : State) (h : HeadIx) (composing : Bool) (crc : Nat) : State :=
  if Config.variantNx || s.isl.run != .run then s
  else
    let r : Readback := ⟨composing, crc, s.lw.latched, (s.lw.win[h]).zoom⟩
    s.modIsl (fun x => { x with heads := vmod x.heads h (fun y => { y with queue := y.queue ++ [r] }) })

/-- Judge one readback (R725, R726). DESIGN CHOICE: assumption 68. -/
def IslHead.compare (x : IslHead) (r : Readback) (rw rh : Nat) : IslHead :=
  if !r.composing then { x with composing := false, shown := false }
  else
    let e := expectedCrc r.buf rw rh r.zoom
    let x := { x with composing := true, expect := e, read := r.crc }
    if e = r.crc then
      let good := x.good + 1
      { x with bad := 0, good := min good 16, inMismatch := x.inMismatch && decide (good < 16)
               shown := x.shown || (match r.buf with
                 | none => false
                 | some b => b.weight) }
    else { x with bad := min (x.bad + 1) 2, good := 0, inMismatch := x.inMismatch || decide (1 ≤ x.bad), mismatches := inc 32 x.mismatches }

/-- LEGAL_READBACK (R725 to R727): the oldest readback of the head is compared. DESIGN CHOICE: assumption 68. -/
def execLegalReadback (h : HeadIx) (s : State) : Res :=
  if s.islandServes = false then .next s
  else match (s.isl.heads[h]).queue with
    | [] => .next s
    | r :: rest =>
      let g := s.isl.geom[h]
      .next (s.island (fun x => { x with heads := vmod x.heads h (fun y => { y.compare r g.rw g.rh with queue := rest }) }))

/-! ## What the device reads of the island (Tables 15-4, 15-5; R735 to R737) -/

/-- ISL_STATE. -/
def State.islState (s : State) : Nat :=
  if Config.variantNx then 0
  else if s.isl.reported = false then 1
  else match s.isl.run with
    | .off => 1
    | .run => if s.isl.sealOpen then 4 else 3
    | .fault => 5

/-- ISL_FW_CRC. -/
def Isl.fwCrc (x : Isl) : Nat :=
  if x.run = .off then 0 else match x.slots.get (Fin.ofNat 4 x.slot) with
    | none => 0
    | some z => crc32 z.image

/-- ISL_METRO. -/
def Isl.metroBytes (x : Isl) : Bytes :=
  let m := x.metro
  toLE 4 m.max ++ toLE 4 m.e ++ toLE 4 m.min ++ [byteOf (b2n m.unitTonne), byteOf m.dec.1, byteOf m.mask.toNat, 0#8]

/-- ISL_INDICATION. -/
def Isl.indicationBytes (x : Isl) : Bytes :=
  let zeroNear := within x.gross 0 (x.intervals 1 / 4)
  let f := b2n x.valid + 2 * b2n x.stable + 4 * b2n zeroNear + 8 * b2n x.net + 16 * b2n x.overR + 32 * b2n x.under +
    64 * b2n x.bridgeFault + 128 * b2n x.sealOpen
  [byteOf f] ++ zeros 3 ++ toSLE 4 x.shownGross ++ toSLE 4 (x.shownGross - x.tare) ++ toSLE 4 x.tare

/-- ISL_LEGAL. -/
def Isl.legalBits (x : Isl) : Nat :=
  b2n x.legalOk + (allFin 4).foldl (fun a h => a + 2 ^ (h.1 + 1) * b2n (x.heads[h]).inMismatch) 0

/-- ISL_BRIDGE. -/
def Isl.bridgeBits (x : Isl) (b : Fin 4) : Nat := b2n (x.metro.mask.getLsbD b.1) + 2 * b2n (x.bridges[b]).fault

/-- ISLAND_READ SUMMARY's values (R735); a reserved ITEM and a wrong length are refused (R736, 03 R961). -/
def islandReadSummary (s : State) (m : Msg) : Answer :=
  if m.body.length ≠ 4 then refuse s .errParam
  else if u8 m.body 0 ≠ 0 then refuse s .errRange
  else
    let nx := Config.variantNx
    let x := s.isl
    let v (b : Bytes) : Bytes := if nx then zeros b.length else b
    (s, .ok, [byteOf s.islState] ++ v (toBE 2 x.fwVersion) ++ v (toBE 4 x.fwCrc) ++ v [byteOf x.slot] ++
      v (toBE 2 x.audit.length) ++ v x.metroBytes ++ v x.indicationBytes)

/-- ISLAND_READ AUDIT (R735, R736). -/
def islandReadAudit (s : State) (m : Msg) : Answer :=
  let first := be16 m.body 2
  let recs := if Config.variantNx then [] else s.isl.audit
  if m.body.length ≠ 4 then refuse s .errParam
  else if recs.length ≤ first then refuse s .errRange
  else
    let r := (recs.drop first).take 32
    (s, .ok, toBE 2 r.length ++ r.flatten)

end Sys2Proof.Machine
end

