-- ==== Sys2Proof/Machine/Link.lean ====
section
/-! DEFINITION. The plane link: control blocks, lanes and their scramblers, beats (09 R487 to R493). -/

namespace Sys2Proof.Machine

/-- A control block payload with its CRC8 (R491, Table 9-5). -/
def controlBlock (v : Nat) : Nat := v + natBE [crc8 0x07#8 0#8 (toBE 7 (v / 256))]
def blockLoad (b q first count : Nat) : Nat :=
  controlBlock (0x1E * 2 ^ 56 + b * 2 ^ 51 + q * 2 ^ 43 + first * 2 ^ 31 + count * 2 ^ 19)
def phaseStrobe (b q : Nat) : Nat := controlBlock (0x2D * 2 ^ 56 + b * 2 ^ 51 + q * 2 ^ 43)
def arrayClear (q : Nat) : Nat := controlBlock (0x33 * 2 ^ 56 + q * 2 ^ 43)
def idleBlock : Nat := controlBlock 0

/-- Sync headers (R487). -/
def headerData : BitVec 2 := 0b01#2
def headerControl : BitVec 2 := 0b10#2

/-- A payload through a lane's scrambler x^58 + x^39 + 1, bit 0 first: each bit with the bits sent 39 and 58 before it (R488). The
first 39 bits take both from the history; the others from it and the first 39. -/
def scramble (history : BitVec 58) (payload : BitVec 64) : BitVec 64 :=
  let low : BitVec 39 := payload.extractLsb' 0 39 ^^^ history.extractLsb' 19 39 ^^^ history.extractLsb' 0 39
  let past : BitVec 97 := low ++ history
  let high : BitVec 25 := payload.extractLsb' 39 25 ^^^ past.extractLsb' 58 25 ^^^ past.extractLsb' 39 25
  high ++ low

/-- The history that a block leaves: its last 58 bits. -/
def historyAfter (sent : BitVec 64) : BitVec 58 := sent.extractLsb' 6 58

/-- Send one beat: a payload on each of the 32 lanes (R487 to R489). -/
def State.sendBeat (s : State) (h : HeadIx) (header : BitVec 2) (payload : Vector (BitVec 64) 32) : State :=
  let sent : Vector (BitVec 64) 32 := Vector.ofFn (fun i => scramble ((s.pln[h]).lanes[i]) payload[i])
  (s.modPln h (fun p => { p with lanes := sent.map historyAfter })).emit (.beat h header payload.toList sent.toList)

/-- A control beat: every lane carries the same block (R489). -/
def State.sendControl (s : State) (h : HeadIx) (block : Nat) : State :=
  s.sendBeat h headerControl (Vector.replicate 32 (BitVec.ofNat 64 block))

/-- Bytes as 64-bit words, the first byte in bits [63:56] (R490). -/
def wordsBE (b : Bytes) : List (BitVec 64) :=
  (chunks 8 (b.length / 8 + 1) b).map (fun c => BitVec.ofNat 64 (natBE c * 2 ^ (8 * (8 - c.length))))

/-- The data beats of a block: word w on lane w mod 32 of beat w / 32, the last beat filled with zero words (R490). -/
def State.sendData (s : State) (h : HeadIx) (b : Bytes) : State :=
  let words := wordsBE b
  (chunks 32 (words.length / 32 + 1) words).foldl (fun s beat =>
    s.sendBeat h headerData (Vector.ofFn (fun i => beat.getD i.1 0))) s

/-- The link sends IDLE until its next beat (R492): how many beats is not said, so what the scramblers hold after them is free.
DESIGN CHOICE: assumption 103. -/
def State.sendIdle (s : State) (h : HeadIx) : State :=
  (s.draw.modPln h (fun p => { p with lanes := Vector.ofFn (fun i => Config.laneState s.free i.1) })).emit
    (.idle h (BitVec.ofNat 64 idleBlock))

/-- A PHASE_STROBE, and the block whose strobe it announces (R492, R493). -/
def State.sendPhase (s : State) (h : HeadIx) (b q : Nat) : State :=
  (s.sendControl h (phaseStrobe b q)).modPln h (fun p => { p with strobes := p.strobes ++ [b] })

end Sys2Proof.Machine
end

