-- ==== Sys2Proof/Machine/Qdr.lean ====
section
/-! DEFINITION. The QDR regions of the heads: sizes, places, band rings (05 R274, R275, Table 5-4; 06 R345). -/

namespace Sys2Proof.Machine

/-- The head whose canvas a head shows, and the canvas size, under a bank (06 R368, 13 R639). -/
def bkCanvasHead (b : Bank) (h : Nat) : Nat := if bkN b P.CMP_CLONE h < 4 then bkN b P.CMP_CLONE h else h
def bkCanvasW (b : Bank) (h : Nat) : Nat := bkN b P.CMP_CANVAS_W (bkCanvasHead b h)
def bkCanvasH (b : Bank) (h : Nat) : Nat := bkN b P.CMP_CANVAS_H (bkCanvasHead b h)

/-- The regions of one head in the order of Table 5-4: band ring, mesh, uniformity map, touch background map; a region
the head does not have has size 0. -/
def qdrSizes (b : Bank) (h : Nat) : List Nat :=
  let ty := bkN b P.HDT_TYPE h
  if ty = typeNone then [0, 0, 0, 0]
  else
    let scan := ty == typeScan
    [if scan then bkCanvasW b h * bkN b P.SCN_BAND h * 8 else 0,
     meshNx b h * meshNy b h * 8,
     ceilDiv (gridW b h) 4 * ceilDiv (gridH b h) 4 * (groupsOf b h).length * 2,
     if scan && !(chansOf b h roleTouch).isEmpty then 40960 else 0]

def blocks4k (n : Nat) : Nat := ceilDiv n 4096 * 4096

/-- Every region of an interface, in head order: the device's choice of R274. DESIGN CHOICE: assumption 36. -/
def qdrRegions (b : Bank) (x : Nat) : List (Nat × Nat × Nat) :=
  (List.range 4).flatMap (fun h =>
    if bkN b P.MEM_QDR_SEL h = x then ((List.range 4).zip (qdrSizes b h)).map (fun (k, n) => (h, k, blocks4k n)) else [])

/-- Occupied bytes of an interface, and whether they fit (R275). -/
def qdrOccupied (b : Bank) (x : Nat) : Nat := (qdrRegions b x).foldl (fun a r => a + r.2.2) 0
def qdrFits (b : Bank) : Bool := (List.range 2).all (fun x => decide (qdrOccupied b x ≤ qdrBytes (bkN b P.MEM_QDR_SIZE x)))

/-- Where region k of head h starts, with its interface. DESIGN CHOICE: assumption 36. -/
def qdrPlace (b : Bank) (h k : Nat) : Fin 2 × Nat :=
  let x := bkN b P.MEM_QDR_SEL h
  (Fin.ofNat 2 x, ((qdrRegions b x).takeWhile (fun r => !(r.1 == h && r.2.1 == k))).foldl (fun a r => a + r.2.2) 0)

/-- The words that a byte range of an interface meets, and those of them that read as uncorrectable. -/
def wordsOf (a n : Nat) : List Nat := (List.range ((a + n + 7) / 8 - a / 8)).map (· + a / 8)
def State.qdrBad (s : State) (x : Fin 2) (a n : Nat) : List Nat := (wordsOf a n).filter (fun w => s.mem.qpoison[x].contains w)

/-- Read QDR data, words that are uncorrectable as zeros (R273); write it, which makes words written whole good. -/
def State.qdrLoad (s : State) (x : Fin 2) (a n : Nat) : Bytes :=
  if s.mem.qpoison[x].isEmpty then memRead s.mem.qdr[x] a n
  else slice ((wordsOf a n).flatMap (s.mem.qdrWord x)) (a % 8) n
def State.qdrStore (s : State) (x : Fin 2) (a : Nat) (d : Bytes) : State :=
  { s with mem := { s.mem with
      qdr := vmod s.mem.qdr x (fun l => memWrite l a d)
      qpoison := vmod s.mem.qpoison x (fun l => l.filter (fun w => decide (8 * w < a) || decide (a + d.length < 8 * w + 8))) } }

/-- The flagged words that an engine reads: each counts, is logged and raises the event (R273). -/
def State.qdrFlagged (s : State) (x : Fin 2) (words : List Nat) (who : Requester) : State :=
  words.foldl (fun s w => s.qdrRead x w 1 .none who) s

/-- The words of some byte ranges that read as uncorrectable, rising. -/
def State.flaggedIn (s : State) (x : Fin 2) (ranges : List (Nat × Nat)) : List Nat :=
  if s.mem.qpoison[x].isEmpty then []
  else (ranges.flatMap (fun (a, n) => s.qdrBad x a n)).foldl (fun l w => if l.contains w then l else insertNat w l) []

/-! ## The copies of meshes and uniformity maps (09 R459, R465; 10 R522, R526) -/

/-- Where a head's mesh and uniformity map stand, and their strides: nodes and cells of a row, groups of a cell. -/
structure Maps where
  x      : Fin 2
  mesh   : Nat
  unif   : Nat
  nx     : Nat
  mx     : Nat
  groups : Nat
  deriving DecidableEq, Repr

def mapsOf (b : Bank) (h : Nat) : Maps :=
  ⟨(qdrPlace b h 1).1, (qdrPlace b h 1).2, (qdrPlace b h 2).2, meshNx b h, ceilDiv (gridW b h) 4, (groupsOf b h).length⟩

/-- A coordinate of a mesh node, at byte 0 (U) or 4 (V) of its word, and a gain of a map's cell, as a reader takes them. -/
def State.meshNode (s : State) (m : Maps) (o i j : Nat) : Int := sle32 (s.qdrLoad m.x (m.mesh + 8 * (j * m.nx + i) + o) 4) 0
def State.cellGain (s : State) (m : Maps) (rank i j : Nat) : Nat :=
  le16 (s.qdrLoad m.x (m.unif + 2 * ((j * m.mx + i) * m.groups + rank)) 2) 0

/-- The bytes of some nodes, and of some cells. -/
def Maps.nodes (m : Maps) (first n : Nat) : Nat × Nat := (m.mesh + 8 * first, 8 * n)
def Maps.cells (m : Maps) (first n : Nat) : Nat × Nat := (m.unif + 2 * m.groups * first, 2 * m.groups * n)

/-- The table that fills region k of a head: the mesh (1) or the uniformity map (2). -/
def mapTable (b : Bank) (h k : Nat) : Nat :=
  match bkN b P.HDT_TYPE h == typePlane, k with
  | true, 1 => P.PLN_MESH
  | true, _ => P.PLN_UNIF
  | false, 1 => P.SCN_MESH
  | false, _ => P.SCN_UNIF

/-- Copy some pages of a head's mesh or map from what the block holds into the QDR region (R459); the bytes beyond the region
are not used. DESIGN CHOICE: assumption 37. -/
def State.copyPages (s : State) (h k : Nat) (pages : List Nat) : State :=
  let b := s.par.active
  let (x, a) := qdrPlace b h k
  let n := (qdrSizes b h).getD k 0
  pages.foldl (fun s p =>
    let d := (s.pT (mapTable b h k) (h * 16384 + p)).take (n - 4096 * p)
    { s with mem := { s.mem with
        qdr := vmod s.mem.qdr x (fun l => memFill l (a + 4096 * p) d)
        qpoison := vmod s.mem.qpoison x (fun l => l.filter (fun w => decide (8 * w < a + 4096 * p) ||
          decide (a + 4096 * p + d.length < 8 * w + 8))) } }) s

/-- Copy a head's mesh and map as a whole. -/
def State.copyMaps (s : State) (h : Nat) : State :=
  [1, 2].foldl (fun s k => s.copyPages h k (List.range (ceilDiv ((qdrSizes s.par.active h).getD k 0) 4096))) s

/-- Copy the maps of the heads whose maps a change of configuration places or shapes anew. -/
def State.copyChanged (s : State) (a b : Bank) : State :=
  (List.range 4).foldl (fun s h =>
    if bkN a P.HDT_TYPE h = bkN b P.HDT_TYPE h ∧ mapsOf a h = mapsOf b h ∧ qdrSizes a h = qdrSizes b h then s else s.copyMaps h) s

/-! ## Moving regions (R274) -/

/-- Where the regions that hold written data stand under two configurations: band rings and touch background maps. -/
def qdrMoves (a b : Bank) : List (Fin 2 × Nat × Nat × Fin 2 × Nat) :=
  (List.range 4).flatMap (fun h => [0, 3].filterMap (fun k =>
    let n := min ((qdrSizes a h).getD k 0) ((qdrSizes b h).getD k 0)
    let (x, o) := qdrPlace a h k
    let (y, p) := qdrPlace b h k
    if n = 0 ∨ (x = y ∧ o = p) then none else some (x, o, n, y, p)))

/-- A change of configuration moves the data of the regions it places elsewhere. DESIGN CHOICE: assumption 36. -/
def State.moveQdr (s : State) (a b : Bank) : State :=
  let l := qdrMoves a b
  if l.isEmpty then s
  else
    let inside (x : Fin 2) (at_ : Nat) (m : Fin 2 × Nat × Nat × Fin 2 × Nat) : Bool :=
      m.1 == x && decide (m.2.1 ≤ at_) && decide (at_ < m.2.1 + m.2.2.1)
    let target (x : Fin 2) (at_ : Nat) (m : Fin 2 × Nat × Nat × Fin 2 × Nat) : Bool :=
      m.2.2.2.1 == x && decide (m.2.2.2.2 ≤ at_) && decide (at_ < m.2.2.2.2 + m.2.2.1)
    let cells := l.flatMap (fun m => (s.mem.qdr[m.1].filter (fun c => inside m.1 c.1 m)).map
      (fun c => (m.2.2.2.1, c.1 - m.2.1 + m.2.2.2.2, c.2)))
    let bad := l.flatMap (fun m => (s.mem.qpoison[m.1].filter (fun w => inside m.1 (8 * w) m)).map
      (fun w => (m.2.2.2.1, w - m.2.1 / 8 + m.2.2.2.2 / 8)))
    let kept (x : Fin 2) (at_ : Nat) : Bool := !l.any (fun m => inside x at_ m || target x at_ m)
    { s with mem := { s.mem with
        qdr := Vector.ofFn (fun x => (cells.filter (fun c => c.1 == x)).foldl (fun q c => memSet q c.2.1 c.2.2)
          ((s.mem.qdr[x]).filter (fun c => kept x c.1)))
        qpoison := Vector.ofFn (fun x => (bad.filter (fun c => c.1 == x)).foldl (fun q c => insertNat c.2 q)
          ((s.mem.qpoison[x]).filter (fun w => kept x (8 * w)))) } }

/-- The band ring of a head. -/
def State.bandRing (s : State) (h : HeadIx) : Fin 2 × Nat := qdrPlace s.par.active h.1 0

/-- The bytes of ring line of a canvas row. -/
def State.bandAt (s : State) (h : HeadIx) (y : Nat) : Nat :=
  (s.bandRing h).2 + (y % bkN s.par.active P.SCN_BAND h.1) * bkCanvasW s.par.active h.1 * 8

/-- An uncorrectable error of an on-chip region is a fault with the block and code of Table 17-7 (R276); the table names none for
the stripe stores and the ingress buffer, whose errors write no entry. DESIGN CHOICE: assumption 106. -/
def State.chipError (s : State) : ChipRegion → State
  | .supervisor => s.log 0x01 2 clsInfo 0xFF []
  | .codec => s.log 0x14 1 clsInfo 0xFF []
  | .stripes => s
  | .ingress => s

/-- MEMORY_REQUEST (R239 to R254, R262, R265 to R268, R270, R271, R276): a request arrives, or the channel serves one. DESIGN
CHOICE: assumption 34. -/
def execMemoryRequest (step : MemStep) (s : State) : Res :=
  match step with
  | .chip r => .next (s.chipError r)
  | .lpddr n arrive serve =>
    let s := match arrive with
      | none => s
      | some r => s.reqArrive n r
    .next (match serve with
      | none => s
      | some pos => s.reqServe n pos)
  | .qdr x word write err =>
    if 8 * word + 8 ≤ qdrBytes (s.pN P.MEM_QDR_SIZE x.1) then
      match write with
      | some d => .next (s.qdrStore x (8 * word) (toLE 8 d.toNat))
      | none =>
        let t := s.qdrRead x word 1 err .pitch
        .next { t with mem := { t.mem with qresp := vset t.mem.qresp x (some (t.mem.qdrWord x word, t.mem.qpoison[x].contains word)) } }
    else .next s


end Sys2Proof.Machine
end

