-- ==== Sys2Proof/Machine/Ropes.lean ====
section
/-! DEFINITION. Ropes: the shares of the work plan, failure and sparing (17 R781 to R787; 01 R33 to R36). -/

namespace Sys2Proof.Machine

/-- A valid SYS_WORKPLAN entry (01 Table 1-7): task, head, ropes. -/
structure PlanEntry where
  task  : Nat
  head  : Nat
  ropes : Nat
  deriving DecidableEq, Repr

def planEntry (w : Nat) : Option PlanEntry := if bit w 31 then some ⟨bits w 30 28, bits w 27 26, bits w 21 16⟩ else none

/-- The valid entries of a configuration, in order. -/
def planOf (b : Bank) : List PlanEntry := (List.range 16).filterMap (fun i => planEntry (le32 (bkT b P.SYS_WORKPLAN) (4 * i)))

/-- Is a failure not yet handed over? -/
def Flt.pendingFail (x : Flt) (r : RopeIx) : Bool := x.waiting.any (fun f => f.rope == r)

/-- Does a rope count in SYS_ROPES_ACTIVE? A failed one counts until its share is handed over (R784, R785). DEDUCED:
assumption 54. -/
def Flt.active (x : Flt) (r : RopeIx) : Bool := !x.spare[r] && !x.removed[r] && (!x.failed[r] || x.pendingFail r)

/-- SYS_ROPES_ACTIVE and SYS_ROPES_SPARE. -/
def Flt.nActive (x : Flt) : Nat := ((allFin 34).filter x.active).length
def Flt.nSpare (x : Flt) : Nat := ((allFin 34).filter (fun r => x.spare[r])).length

/-- Give every entry of a plan its ropes: the lowest active ropes not yet used (01, The work plan). DESIGN CHOICE:
assumption 55. -/
def Flt.assign (x : Flt) (plan : List PlanEntry) : Flt :=
  let free := (allFin 34).filter (fun r => x.active r && !x.failed[r])
  let (shares, _) := plan.foldl (fun (acc : List (RopeIx × Nat × Nat) × List RopeIx) e =>
    (acc.1 ++ (acc.2.take e.ropes).map (fun r => (r, e.task, e.head)), acc.2.drop e.ropes)) ([], free)
  { x with
    share := Vector.ofFn (fun r => (shares.find? (fun q => q.1 == r)).map (fun q => q.2))
    bare := [] }

/-- Every spare is loaded with the kernel packs and constant tables of every task of the active plan (R782). -/
def Flt.loadSpares (x : Flt) (plan : List PlanEntry) : Flt :=
  { x with packs := Vector.ofFn (fun r => if x.spare[r] then plan.map (fun e => (e.task, e.head)) else []) }

/-- The engine memories lose what they hold at a WARM reset (05 Table 5-5). -/
def Flt.unload (x : Flt) : Flt := { x with packs := Flt.reset.packs }

/-- A rope has failed (R781); its share waits to be handed over. -/
def State.ropeFail (s : State) (r : RopeIx) (cause : RopeCause) : State :=
  if s.flt.failed[r] || s.flt.removed[r] then s
  else if s.flt.spare[r] then
    -- a spare carries no share: it goes out of service
    { s with flt := { s.flt with failed := vset s.flt.failed r true, spare := vset s.flt.spare r false } }.log 0x20 1 clsMasked r.1 []
  else { s with flt := { s.flt with failed := vset s.flt.failed r true, waiting := s.flt.waiting ++ [⟨r, cause⟩] } }

/-- A shadow comparison that blames a rope of a render task counts for the head (13 R663). -/
def State.shadowCount (s : State) (r : RopeIx) (cause : RopeCause) : State :=
  match cause, s.flt.share[r] with
  | .shadow, some (task, h) =>
    if task ≤ 1 ∧ s.flt.failed[r] = false then s.modHead (Fin.ofNat 4 h) (fun x => { x with shadowErr := inc 32 x.shadowErr }) else s
  | _, _ => s

/-- ROPE_FAILURE (R781). -/
def execRopeFailure (rope : RopeIx) (cause : RopeCause) (s : State) : Res :=
  if s.dev = .boot then .next s else .next ((s.shadowCount rope cause).ropeFail rope cause)

def ropeCauseCode : RopeCause → Nat
  | .shadow => 1
  | .memory => 2
  | .stall => 3

/-- EV_ROPE_SPARED and its entry (R784, Table 17-4). TASK and HEAD of a rope that no entry uses are free. DESIGN CHOICE:
assumption 55. -/
def State.sparedEvent (s : State) (f : RopeFail) (spare : Nat) (share : Option (Nat × Nat)) : State :=
  let free := Config.freeNat s.free
  let (s, task, head) := match share with
    | some (t, h) => (s, t, h)
    | none => (s.draw, free % 256, free / 256 % 256)
  let d := [byteOf f.rope.1, byteOf spare, byteOf (ropeCauseCode f.cause), byteOf task, byteOf head, byteOf s.flt.nSpare, 0#8, 0#8]
  (s.log 0x20 1 clsMasked f.rope.1 d).raise evRopeSpared d

/-- ROPE_SPARE_TAKEOVER (R783 to R785): the share of the oldest failure goes to a spare, or to an active rope no entry
uses, or to the other ropes of its entry; an entry left with none is bare. DESIGN CHOICE: assumption 55. -/
def execRopeSpareTakeover (s : State) : Res :=
  match s.flt.waiting with
  | [] => .next s
  | f :: rest =>
    let share := s.flt.share[f.rope]
    let x := { s.flt with waiting := rest, share := vset s.flt.share f.rope none }
    match (allFin 34).find? (fun r => x.spare[r]) with
    | some sp =>
      let x := { x with spare := vset x.spare sp false, share := vset x.share sp share, spared := inc 32 x.spared }
      .next ({ s with flt := x }.sparedEvent f sp.1 share)
    | none =>
      let idle := (allFin 34).find? (fun r => x.active r && x.share[r] == none)
      let x := match share, idle with
        | none, _ => x
        | some e, some r => { x with share := vset x.share r (some e) }
        | some e, none =>
          if (allFin 34).any (fun r => x.share[r] == some e) then x else { x with bare := e :: x.bare }
      .next ({ s with flt := x }.sparedEvent f 0xFF share)

/-- SPARE_SELF_TEST (R786). -/
def execSpareSelfTest (rope : RopeIx) (ok : Bool) (s : State) : Res :=
  if s.flt.spare[rope] && !ok then
    .next ({ s with flt := { s.flt with spare := vset s.flt.spare rope false, removed := vset s.flt.removed rope true } }.log
      0x20 2 clsInfo rope.1 [])
  else .next s

/-- Has an entry no rope left (R785)? -/
def State.entryBare (s : State) (task head : Nat) : Bool := s.flt.bare.contains (task, head)

/-- FLT_ROPE_FAILED. -/
def Flt.failedMask (x : Flt) : Nat := maskBelow 34 (fun i => x.failed[Fin.ofNat 34 i])

end Sys2Proof.Machine
end

