-- ==== Sys2Proof/Machine/Heads.lean ====
section
/-! DEFINITION. Head frames, timing events, underruns and the freeze detector (02 R61, R85 to R93; 13 R641 to R663; 06 R344,
R345, R365). -/

namespace Sys2Proof.Machine

/-! ## Timing events (R641 to R645) -/

/-- The 2.5 ns step of an instant in ps. -/
def stepOf (ps : Nat) : Nat := ps / 2500

/-- Put an output before those that are `later` than it; the newest output stands first. -/
def putBefore (o : Out) (later : Out → Bool) : List Out → List Out
  | [] => [o]
  | x :: r => if (x :: r).any later then x :: putBefore o later r else o :: x :: r

/-- Put an event into the record of a head frame: in ascending code order within a step (R642). -/
def putMark (m : Nat × Nat) : List (Nat × Nat) → List (Nat × Nat)
  | [] => [m]
  | x :: r => if (x :: r).any (fun y => Nat.blt m.2 y.2 && y.1 == m.1) then
      (if Nat.blt m.2 x.2 && x.1 == m.1 then m :: x :: r else x :: putMark m r) else (x :: r) ++ [m]

/-- Does an output signal an event of a head in the same step and with a higher code (R642)? -/
def signalsLater (h : HeadIx) (code step : Nat) : Out → Bool
  | .gpio _ _ h' code' step' _ => Nat.blt code code' && h' == h && step' == step
  | _ => false

/-- Record a timing event of a head at an absolute instant in ps, and signal it on the GPIOs that name it: a pulse of 1 us, or more of
one that has not ended 1 us before (R642 to R644). DESIGN CHOICE: assumption 48. -/
def State.headEvent (s : State) (h : HeadIx) (code ps : Nat) : State :=
  let step := stepOf ps
  let s := s.modHead h (fun x => { x with marks := putMark (step, code) x.marks })
  (allFin 16).foldl (fun s g =>
    let v := s.pN P.HDT_GPIO g.1
    if gpioEvent v = some (h.1, code) then
      let o : Out := .gpio g (bit v 6) h code step (Nat.blt ps (1000 * s.gpio[g]))
      { s with out := putBefore o (signalsLater h code step) s.out, gpio := vset s.gpio g (ps / 1000 + 1000) }
    else s) s

def evSob : Nat := 0
def evLineMatch : Nat := 1
def evFrameDone : Nat := 2
def evUnderrunCode : Nat := 3

/-- A free instant: an event whose instant no rule fixes (Table 13-4). DESIGN CHOICE: assumption 48. -/
def State.freeNs (s : State) : State × Nat := (s.draw, Config.freeNat s.free % 2 ^ 32)

/-- An absolute instant in ps, ns after the running head frame began. -/
def State.framePs (s : State) (h : HeadIx) (ns : Nat) : Nat := 1000 * ((s.head[h]).t0 + ns)

/-- An UNDERRUN of a head frame, signalled at an absolute instant in ps (R641). -/
def State.underrunEvent (s : State) (h : HeadIx) (ps : Nat) : State :=
  (s.modHead h (fun x => { x with under := x.under + 1 })).headEvent h evUnderrunCode ps

/-- An UNDERRUN of the running head frame: at most once per head frame (R641). -/
def State.underrun (s : State) (h : HeadIx) (ps : Nat) : State :=
  if (s.head[h]).underNow then s
  else (s.modHead h (fun x => { x with underNow := true })).underrunEvent h ps

/-- FRAME_DONE. DESIGN CHOICE: assumption 48. -/
def State.frameDone (s : State) (h : HeadIx) : State :=
  let (s, ns) := s.freeNs
  (s.modHead h (fun x => { x with doneNs := ns })).headEvent h evFrameDone (s.framePs h ns)

/-! ## Freeze detector (R655 to R661) -/

def modeLive : Nat := 1
def modeStatic : Nat := 2

def State.regionAt (s : State) (h : HeadIx) (k : Nat) : Region := regionOf (s.pT P.HDT_REGION (16 * h.1 + k))

def State.modSig (s : State) (h : HeadIx) (k : Fin 16) (f : Sig → Sig) : State :=
  s.modHead h (fun x => { x with regions := vmod x.regions k f })

/-- Restart a region (R661): alarm cleared without an event, count and learned reference cleared. DEDUCED: assumption 41. -/
def Sig.restart (x : Sig) : Sig := { x with prev := none, count := 0, alarm := false, diffs := 0, changed := false }

/-- Begin or end an alarm (R658). -/
def Sig.setAlarm (x : Sig) (on : Bool) : Sig :=
  if x.alarm == on then x
  else { x with alarm := on, changed := true, freezes := if on then inc 32 x.freezes else x.freezes }

/-- Judge a region at the completion of a head frame (R656, R657). A LIVE alarm begins with LIVE_ALARM; the count says it
is due. DEDUCED: assumption 51. -/
def Sig.judge (x : Sig) (r : Region) (sig : Nat) (firstOfTick : Bool) : Sig :=
  let x := { x with sig := sig }
  if r.mode = modeLive then
    if !firstOfTick then x
    else match x.prev with
      | none => { x with prev := some sig, count := 0 }
      | some p =>
        if p = sig then { x with count := x.count + 1, against := p }
        else ({ x with prev := some sig, against := p, count := 0 }).setAlarm false
  else if r.mode = modeStatic then
    match (if r.learn then x.prev else some r.ref) with
    | none => { x with prev := some sig }
    | some p =>
      let differs := sig != p
      ({ x with prev := some p, diffs := x.diffs + b2n differs }).setAlarm differs
  else x

/-- EV_FREEZE of a region whose alarm began or ended in the tick (R658, Table 13-6). DEDUCED: assumption 51. -/
def State.freezeEvent (s : State) (h : HeadIx) (k : Fin 16) : State :=
  let r := s.regionAt h k.1
  let x := (s.head[h]).regions[k]
  let kind := if x.alarm then r.mode else 0
  let live := r.mode == modeLive
  let ref := if live then x.against else if r.learn then x.prev.getD 0 else r.ref
  if x.changed then
    s.raise evFreeze ([byteOf h.1, byteOf k.1, byteOf kind, byteOf r.action] ++ toBE 4 x.sig ++ toBE 4 ref ++
      toBE 4 (if live then x.count else x.diffs))
  else s

/-- Does a region with ACTION BLANK stand in alarm (R660)? -/
def State.freezeBlank (s : State) (h : HeadIx) : Bool :=
  (allFin 16).any (fun k => ((s.head[h]).regions[k]).alarm && (s.regionAt h k.1).action == 1)

/-- LIVE_ALARM (R656): the count of a LIVE region has reached N. -/
def execLiveAlarm (r : RegionIx) (s : State) : Res :=
  let h : HeadIx := Fin.ofNat 4 (r.1 / 16)
  let k : Fin 16 := Fin.ofNat 16 (r.1 % 16)
  let reg := s.regionAt h k.1
  if s.running h && reg.mode == modeLive && Nat.ble reg.n ((s.head[h]).regions[k]).count then
    .next (s.modSig h k (fun x => x.setAlarm true))
  else .next s

/-- The freeze detector at a tick edge, for the tick that ends (R658). -/
def State.freezeEdge (s : State) : State :=
  (allFin 4).foldl (fun s h =>
    let s := (allFin 16).foldl (fun s k => s.freezeEvent h k) s
    s.modHead h (fun x => { x with regions := x.regions.map (fun g => { g with changed := false, diffs := 0 }) })) s

/-- EV_UNDERRUN of each head at a tick edge (R645, Table 13-6). -/
def State.underrunEdge (s : State) : State :=
  (allFin 4).foldl (fun s h =>
    let x := s.head[h]
    if x.under = 0 then s
    else
      let s := s.modHead h (fun x => { x with under := 0, underruns := inc 32 x.underruns })
      let plane := s.isPlane h
      s.raise evUnderrun ([byteOf h.1, byteOf (if plane then 1 else 2), byteOf x.under, 0#8] ++
        toBE 4 (if plane then (s.pln[h]).underruns else (s.scn[h]).underruns))) s

/-! ## Starting, stopping, retiming (R85 to R93; 09 R496, R498; 10 R511) -/

/-- ARRAY_CLEAR and a strobe of every block, before IDLE (09 R498). -/
def State.clearArray (s : State) (h : HeadIx) : State :=
  if s.isPlane h then
    let blocks := List.range (s.pN P.PLN_BLOCKS h.1)
    let s := (s.modPln h (fun p => { p with strobes := [] })).sendControl h (arrayClear 0)
    let s := blocks.foldl (fun s b => (s.sendControl h (phaseStrobe b 0)).emit (.strobe h b none)) s
    s.sendIdle h
  else s

/-- The first tick a head that starts or retimes at this edge presents (R89): n + 2 on a plane head, n + 4 on a scan
head. -/
def State.firstShown (s : State) (h : HeadIx) : Nat := s.tick.count + (if s.isScan h then 4 else 2)

/-- A retime of a running head at an edge (R88, R89). -/
def State.retime (s : State) (h : HeadIx) : State :=
  let s := s.clearArray h
  (s.modHead h (fun x => { x with wait := !s.locked (headPll h), showAt := s.firstShown h, late := false })).modPln h
    (fun p => { p with losing := false })

/-- What keeps a waiting head from its restart (09 R497, R500; 10 R511, R537; 18 R822). -/
def State.mayRestart (s : State) (h : HeadIx) : Bool :=
  s.locked (headPll h) && (!s.isPlane h || !(s.head[h]).rdyWait) && (!s.isScan h || (s.scn[h]).st == .locked)

/-- Start a head on leaving STANDBY (R93). DEDUCED: assumption 50. DEDUCED: assumption 59. -/
def State.startHead (s : State) (h : HeadIx) : State :=
  let p := s.pln[h]
  let ready := s.pN P.PLN_RDY_MODE h.1 == 0 && p.rdy
  let s := s.modHead h (fun x => { x with
    on := true, wait := !s.locked (headPll h), rdyWait := s.isPlane h && !ready, starting := s.isPlane h && !ready, late := false
    showAt := s.firstShown h, syncEdge := false, syncAt := false, syncRun := 0
    regions := x.regions.map Sig.restart })
  let s := s.modPln h (fun p => { p with
    losing := false, shown := PlaneFrame.none, loading := PlaneFrame.none, coming := PlaneFrame.none, waiting := false
    begun := false, loadSlot := none, slot := none, src := [], strobes := [] })
  -- IDLE from the start edge on (09 R496)
  let s := if s.isPlane h then s.sendIdle h else s
  let s := { s with anc := { s.anc with motion := vset s.anc.motion h false } }.touchRestart h
  let s := (boundTo s.par.active h.1).foldl (fun s c => s.modEm c (fun e => { e with fresh := false })) s
  s.modCol h (fun x => { x with cur := x.cal, produced := false, next := .none, blank := false })

/-- Stop a head at an edge. DEDUCED: assumption 50. -/
def State.stopHead (s : State) (h : HeadIx) : State :=
  let s := s.clearArray h
  let s := s.modHead h (fun x => { x with on := false, wait := false, rdyWait := false, starting := false, late := false, blank := false })
  let s := s.modPln h (fun p => { p with waiting := false, begun := false, loadSlot := none, slot := none, losing := false })
  let s := s.modScn h (fun x => { x with active := none })
  let s := s.modTouch h (fun t => { t with acc := none })
  let s := s.modComp h (fun c => { c with busy := false, images := none, canvas := [] })
  (s.modCol h (fun x => { x with cur := none, next := .none, blank := false })).readback h false 0

/-- A head's run at a tick edge: start, stop, restart (R93; 09 R497, R500; 10 R511). DEDUCED: assumption 50. -/
def State.headEdge (s : State) (h : HeadIx) : State :=
  let x := s.head[h]
  let want := s.headsRun && s.typeOf h != typeNone
  if want && !x.on then s.startHead h
  else if !want && x.on then s.stopHead h
  else if !x.on then s
  else if x.wait || (s.pln[h]).losing then
    if s.mayRestart h then s.retime h else s.modHead h (fun x => { x with wait := true })
  else if s.isScan h && x.showAt == s.tick.count + 1 && (s.scn[h]).st != .locked then s.modHead h (fun x => { x with wait := true })
  else s

/-! ## The head frame -/

/-- Head frame number N (09 R469). -/
def State.frameNumber (s : State) (h : HeadIx) (half : Bool) : Nat :=
  if multOf s.par.active h.1 = 2 then 2 * s.tick.count + b2n half else s.tick.count

/-- Does a QDR interface a head uses have an unlocked PLL (18 Table 18-3; 05 R274)? -/
def State.qdrBlank (s : State) (h : HeadIx) : Bool := !s.locked (if s.pN P.MEM_QDR_SEL h.1 = 0 then 8 else 9)

/-- Is a head frame that begins now presented blank (02 R64, R91; 13 R660; 15 R723; 16 R764; 17 R785; 18 Table 18-3; 19
R852)? DESIGN CHOICE: assumption 49. -/
def State.presentsBlank (s : State) (h : HeadIx) : Bool :=
  (s.col[h]).blank || s.freezeBlank h || s.windowBad h || s.qdrBlank h || s.armedBlank h || s.dev == .hold ||
    s.entryBare (if s.isPlane h then 0 else 1) h.1 || (s.cas.split != 0 && s.pN P.CAS_SPLIT_ACTION == 1)

/-- Touch at a head frame start (14 R683, R686): a head frame whose active lines did not end is handed over as it stands,
and a new one begins. -/
def State.touchBegin (s : State) (h : HeadIx) (half : Bool) : State :=
  let s := s.modTouch h (fun t => { t with
    acc := none, ready := t.ready ++ t.acc.toList.map (fun f => { f with ended := (s.head[h]).t0 }) })
  match s.touchChan h with
  | none => s
  | some _ =>
    let n (id : Nat) : Nat := s.pN id h.1
    let cfg : TouchCfg := ⟨n P.TCH_THRESH, n P.TCH_RATIO, n P.TCH_AREA_MIN, n P.TCH_AREA_MAX, n P.TCH_BG_SHIFT, n P.TCH_LEARN,
      n P.TCH_TRACK, n P.TCH_MOVE⟩
    let blank := (s.col[h]).blank || s.freezeBlank h || s.armedBlank h
    s.modTouch h (fun t => { t with acc := some ⟨s.tick.count, half, blank, false, cfg, 0, [], []⟩ })

/-- HEAD_FRAME_START (02 R61): at the tick edge, or T/2 after it at 2x. Composition of the head frame begins. DESIGN
CHOICE: assumption 49. DEDUCED: assumption 53. -/
def execHeadFrameStart (h : HeadIx) (half : Bool) (s : State) : Res :=
  let x := s.head[h]
  let t0 := s.tick.edgeAt + (if half then s.tick.period / 2 else 0)
  if !x.on || (half && multOf s.par.active h.1 != 2) || (x.frames != 0 && Nat.ble t0 x.t0) then .next s
  else
    let s := s.atTime t0
    let blank := s.presentsBlank h
    let frames := x.frames + 1
    let s := s.modHead h (fun x => { x with
      frames := inc 64 x.frames, t0 := t0, second := half, number := s.frameNumber h half, blank := blank
      lineNs := none, underNow := false, marks := [], syncEdge := false })
    let s := s.modComp h (fun c => { c with busy := true, images := none, canvas := [] })
    let s := s.modPln h (fun p => { p with
      bufs := vset p.bufs (Fin.ofNat 3 frames) ⟨frames, []⟩
      coming := ⟨s.pT P.PLN_SCHED h.1, (s.col[h]).cur, !half, blank, frames, t0⟩
      waiting := false, begun := false })
    let s := s.modScn h (fun y => { y with
      active := none, begun := 0, written := 0, released := 0, avail := 0, underrun := false, turn := 0 })
    let s := s.touchBegin h half
    let s := s.emit (.record h s.tick.count half blank)
    -- layers that have no source count the head frame (06 R363)
    let s := if s.canvasHead h = h then
        (allFin 16).foldl (fun s j =>
          let lay := layerOf (s.pT P.CMP_LAYER (16 * h.1 + j.1))
          if lay.enable && (s.comp[h]).latched[j] == 0 then
            s.modComp h (fun c => { c with noSrc := vmod c.noSrc j (inc 32) })
          else s) s
      else s
    .next s

/-- May the writeback target be written (17 R788)? DEDUCED: assumption 42. -/
def State.wbAllowed (s : State) (h : HeadIx) : Bool :=
  match s.surface (s.comp[h]).wbNow with
  | some (_, x) => !s.mcFailed || x.pool
  | none => false

/-- The band word of a pixel (06 Table 6-6): R, G, B fields of 21 bits and the LEGAL flag. -/
def bandWord (p : Px) (legal : Bool) : Nat :=
  let f (v : Nat) := min ((v + 1) / 2) 2097151
  f p.r + f p.g * 2 ^ 21 + f p.b * 2 ^ 42 + b2n legal * 2 ^ 63

/-- Write a row of the canvas into the band ring (06 R345; 10 R530). DESIGN CHOICE: assumption 52. -/
def State.bandRow (s : State) (h : HeadIx) (y : Nat) (row : List Px) : State :=
  let legal (k : Nat) : Bool := match s.windowOf h with
    | some w => inWindow w k y
    | none => false
  s.qdrStore (s.bandRing h).1 (s.bandAt h y) (((List.range row.length).zip row).flatMap (fun (k, p) => toLE 8 (bandWord p (legal k))))

/-- Send the rows of a head's seam strips (16 R775): one SEAM frame per row, converted as R365 gives. -/
def State.sendSeams (s : State) (h : HeadIx) (y0 : Nat) (rows : List (List Px)) : State :=
  (List.range 8).foldl (fun s k =>
    let x := seamTxOf (s.pT P.CAS_SEAM_TX k)
    if x.enable && x.head == h.1 then
      ((List.range rows.length).zip rows).foldl (fun s (i, row) =>
        let y := y0 + i
        if x.y ≤ y ∧ y < x.y + x.h then
          let body := [byteOf x.entry, 0#8] ++ toBE 2 (y - x.y) ++ toBE 2 x.w ++ toBE 2 x.h ++ wbRow ((row.drop x.x).take x.w)
          s.travTraffic (s.portTo x.dest) (s.travNew kindSeam x.dest body)
        else s) s
    else s) s

/-- COMPOSITOR_ROW_OUTPUT (06 R344, R345, R365; 13 LINE_MATCH; 16 R775): the next rows of a head frame. -/
def execCompositorRowOutput (h : HeadIx) (rows : Nat) (s : State) : Res :=
  if !s.running h || !(s.comp[h]).busy then .next s
  else
    let y0 := (s.comp[h]).canvas.length
    -- row y is written only after row y - B has been released (10 R530)
    let room := if s.isScan h then s.pN P.SCN_BAND h.1 + (s.scn[h]).released - y0 else rows
    let (s, out) := s.composeRows h (min rows room)
    let s := if !(s.head[h]).second && s.wbAllowed h then s.writeback h y0 out else s
    let s := if (s.head[h]).second then s else s.sendSeams h y0 out
    let s := if s.isScan h then
        let s := ((List.range out.length).zip out).foldl (fun s (k, row) => s.bandRow h (y0 + k) row) s
        s.modScn h (fun x => { x with written := y0 + out.length })
      else s
    let m := s.pN P.HDT_LINE_MATCH h.1
    if y0 ≤ m ∧ m < y0 + out.length then
      let (s, ns) := s.freeNs
      .next ((s.modHead h (fun x => { x with lineNs := some ns })).headEvent h evLineMatch (s.framePs h ns))
    else .next s

/-- HEAD_FRAME_COMPOSED (13 R655 to R657; 06 R343; 15): every row has been composed. -/
def execHeadFrameComposed (h : HeadIx) (s : State) : Res :=
  let c := s.comp[h]
  if !s.running h || !c.busy || c.canvas.length < s.canvasH h then .next s
  else
    let s := s.modComp h (fun c => { c with busy := false })
    let first := !(s.head[h]).second
    let s := (allFin 16).foldl (fun s k =>
      let r := s.regionAt h k.1
      if r.mode = 0 then s else s.modSig h k (fun x => x.judge r (rectCrc c.canvas r.x r.y r.w r.h) first)) s
    match s.windowOf h with
    | none => .next (s.readback h false 0)
    | some w =>
      let crc := rectCrc c.canvas w.x w.y (w.rw * w.zoom) (w.rh * w.zoom)
      .next ((s.modComp h (fun c => { c with legalCrc := crc })).readback h true crc)

/-! ## Status -/

/-- HDT_STATUS (Table 13-4). DESIGN CHOICE: assumption 49. -/
def State.hdtStatus (s : State) (h : HeadIx) : Bytes :=
  let x := s.head[h]
  let sync := s.isPlane h && s.pN P.PLN_RDY_MODE h.1 == 1
  [byteOf (s.typeOf h), byteOf (b2n x.on + 2 * b2n (x.on && s.armedBlank h) + 4 * b2n (s.freezeBlank h) + 8 * b2n x.syncAt +
      16 * b2n x.underNow + 32 * b2n x.late), 0#8, 0#8] ++
    toLE 4 x.sobNs ++ toLE 4 (x.lineNs.getD 0xFFFFFFFF) ++ toLE 4 x.doneNs ++ toLE 4 (if sync then x.syncDelta else 0) ++
    toLE 4 (if sync then syncSlackPs s.par.active h.1 / 1000 else 0) ++
    toLE 2 (maskBelow 16 (fun k => ((x.regions[Fin.ofNat 16 k])).alarm)) ++ zeros 6

end Sys2Proof.Machine
end

