-- ==== Sys2Proof/Machine/Clocks.lean ====
section
/-! DEFINITION. Clock generation: lock, loss of lock, failed PLLs, REFCLK_SYS; failed memory controllers (18 R808, R812, R816,
R822, R828 to R836; 17 R790, Table 17-3; 05 R261, R262). -/

namespace Sys2Proof.Machine

def State.modPll (s : State) (k : PllIx) (f : Pll → Pll) : State := { s with clk := { s.clk with pll := vmod s.clk.pll k f } }

/-! ## VCO frequencies (R812, R817 to R819, R825, R833) -/

/-- K of a head (R812): round(400 MHz / F_nom), half up. -/
def headK (b : Bank) (h : Nat) : Nat := divHalfUp (400000000 * frameNum b) (frameDen b h)

/-- PLL groups of Table 18-1. -/
def pllIsl : PllIx := 19
def pllHead (k : PllIx) : Option HeadIx := if 3 ≤ k.1 ∧ k.1 ≤ 6 then some (Fin.ofNat 4 (k.1 - 3)) else none
def pllMc (k : PllIx) : Option (Fin 4) := if 10 ≤ k.1 ∧ k.1 ≤ 13 then some (Fin.ofNat 4 (k.1 - 10)) else none
def pllEth (k : PllIx) : Option PortIx := if 14 ≤ k.1 ∧ k.1 ≤ 15 then some (Fin.ofNat 2 (k.1 - 14)) else none
def pllTrav (k : PllIx) : Option PortIx := if 16 ≤ k.1 ∧ k.1 ≤ 17 then some (Fin.ofNat 2 (k.1 - 16)) else none
/-- Is the reference REFCLK_SYS? -/
def pllOnSys (k : PllIx) : Bool := decide (k.1 ≤ 13) || k.1 == 18

/-- PLLs whose failure is of class DEVICE (17 Table 17-3). -/
def pllDevice (k : PllIx) : Bool := decide (k.1 ≤ 2) || k.1 == 7

/-- The mean of a spread VCO over its unspread frequency, as a fraction (R825). -/
def spreadMean (mode depth : Nat) : Nat × Nat :=
  match mode with
  | 1 => (20000 - depth, 20000)
  | 2 => (10000, 10000 + depth)
  | _ => (1, 1)

/-- The unspread VCO frequency of a PLL that serves no head, MHz, but for the SerDes (Table 18-1). -/
def vcoMhz (k : PllIx) : Nat :=
  match k.1 with
  | 1 => 5000
  | 2 => 3000
  | 7 => 3072
  | 8 | 9 => 4264
  | 10 | 11 | 12 | 13 => 6400
  | 19 => 2000
  | _ => 4000

/-- The VCO frequency that a PLL is to run at, mHz (R812, R825): 20 f_H of a head, with F of the tick's actual period; the mean of a
spread; else as Table 18-1 gives. DESIGN CHOICE: assumption 105. -/
def State.vcoWanted (s : State) (k : PllIx) : Nat :=
  let b := s.par.active
  match pllHead k with
  | some h => 20 * headK b h.1 * multOf b h.1 * 1000000000000 / s.tick.period
  | none =>
    if (pllEth k).isSome || (pllTrav k).isSome then 25781250000000
    else if k.1 = 1 ∨ k.1 = 2 then
      let (n, d) := spreadMean (s.pN P.CLK_SSC_MODE (k.1 - 1)) (s.pN P.CLK_SSC_DEPTH (k.1 - 1))
      1000000000 * vcoMhz k * n / d
    else 1000000000 * vcoMhz k

/-- The VCO frequency at an instant: a slew moves at 0.05 % per us (R817). -/
def Pll.freqAt (x : Pll) (t : Nat) : Nat :=
  let moved := x.vco * 5 * (t - x.slewAt) / 10000000
  if x.vco ≤ x.target then min x.target (x.vco + moved) else max x.target (x.vco - moved)

/-- Is a PLL in a slew? -/
def Pll.slewing (x : Pll) (t : Nat) : Bool := x.st == .locked && x.freqAt t != x.target

/-- A relock that the device makes itself (R819): the domains leave the PLL; a head of it waits for its restart. -/
def State.relock (s : State) (k : PllIx) : State :=
  let s := s.modPll k (fun x => { x with st := .acquiring, aligned := false, inRun := 0 })
  match pllHead k with
  | some h => (if s.running h then s.modHead h (fun x => { x with wait := true }) else s).settle
  | none => s

/-- A change of what a PLL is to run at (R817 to R819, R833): a slew from the frequency reached, a relock beyond 0.5 %; a PLL that is
not locked takes the target when it locks. A change of spread is a slew (R826). DESIGN CHOICE: assumption 105. -/
def State.retarget (s : State) (k : PllIx) (t : Nat) : State :=
  let x := s.clk.pll[k]
  let f := s.vcoWanted k
  if x.st ≠ .locked ∨ f = x.target then s
  else
    let cur := x.freqAt t
    let near : Bool := k.1 == 1 || k.1 == 2 || Nat.ble (200 * (max f cur - min f cur)) cur
    if near then s.modPll k (fun x => { x with vco := cur, target := f, slewAt := t }) else s.relock k

/-- The head clocks follow the actual period and K at a tick edge (R812, R814). -/
def State.headClocks (s : State) : State := (allFin 4).foldl (fun s h => s.retarget (headPll h) s.tick.edgeAt) s

/-- Does a dithered PLL have a fractional word that is not 0 (R806)? The references are 100 MHz, 156.25 MHz and 25 MHz. -/
def Pll.dithers (x : Pll) (k : PllIx) : Bool :=
  k.1 != 1 && k.1 != 2 &&
    x.target % (if (pllEth k).isSome || (pllTrav k).isSome then 156250000000 else if k = pllIsl then 25000000000 else 100000000000) != 0

/-- A PLL is realigned (R821, R824, R833): the modulator restarts from the seed, a held divider step is applied. PLL_ISL has no
seed parameter. -/
def State.realign (s : State) (k : PllIx) : State :=
  let seed := if k.1 = 1 ∨ k.1 = 2 ∨ k = pllIsl then none else some (s.pN P.CLK_SEED k.1)
  let s := s.modPll k (fun x => { x with aligned := true, seed := seed })
  if k.1 = 1 then { s with clk := { s.clk with level := s.clk.divHeld.getD s.clk.level, divHeld := none } } else s

/-- Is a PLL off, because its port, head or interface is not configured or is disabled (R837)? -/
def State.pllOff (s : State) (k : PllIx) : Bool :=
  match pllHead k, pllEth k, pllTrav k with
  | some h, _, _ => s.typeOf h == typeNone
  | _, some p, _ => s.pN P.ETH_MEDIA p.1 == mediaDisabled
  | _, _, some p => !bit (s.pN P.CAS_PORTS) p.1
  | _, _, _ => (k.1 == 8 && s.pN P.MEM_QDR_SIZE 0 == 0) || (k.1 == 9 && s.pN P.MEM_QDR_SIZE 1 == 0)

/-- Turn PLLs off and on with what they serve. -/
def State.pllRefresh (s : State) : State :=
  (allFin 20).foldl (fun s k =>
    if s.pllOff k then s.modPll k (fun x => { Pll.reset with st := .off, unlocks := x.unlocks })
    else if (s.clk.pll[k]).st = .off then s.modPll k (fun x => { Pll.reset with unlocks := x.unlocks })
    else s) s

/-! ## Failed memory controllers (05 R261, R262) -/

/-- The controllers of a mirror pair: MC0 with MC2, MC1 with MC3 (05 R264). -/
def pairFailed (f : Vector Bool 4) : Bool := (f[0] && f[2]) || (f[1] && f[3])

/-- A controller becomes FAILED (05 R261, R262; 17 Table 17-2). Which of the kinds of Table 5-3 its entry carries is not
stated: a free value. DESIGN CHOICE: assumption 35. DEDUCED: assumption 38. -/
def State.mcFail (s : State) (m : Fin 4) : State :=
  if s.mem.failed[m] then s
  else
    let e := s.errEntry 0 0 0 0 (1 + Config.freeNat s.free % 5) (2 * m.1) 8 0 0
    let s := { s.draw with mem := { s.mem with failed := vset s.mem.failed m true } }
    let s := (s.errLog e).log (8 + m.1) 3 (if pairFailed s.mem.failed then clsDevice else clsMasked) m.1 e
    let s := s.memEvent (Fin.ofNat 6 m.1) e
    if pairFailed s.mem.failed then s.enterSafe causeMemory else s

/-- MC_FAILED (05 R261): retraining failed, or more than 16 uncorrectable bursts within 1 ms. -/
def execMcFailed (t : Nat) (m : Fin 4) (retrain : Bool) (s : State) : Res :=
  let s := s.atTime t
  let bursts := ((s.mem.ueAt[m]).filter (fun q => Nat.blt s.now (q + 1000000))).length
  if retrain || Nat.blt 16 bursts then .next (s.mcFail m) else .next s

/-- MC_REQUEST_WAIT_EXPIRY (18 Table 18-3): a read that has waited 100 us for its controller's PLL is answered as
uncorrectable; one of the mirror pool is served from the mirror (05 R266). -/
def execMcRequestWaitExpiry (n : LpIx) (pos : Nat) (s : State) : Res :=
  match (s.mem.ch[n]).queue[pos]? with
  | none => .next s
  | some q =>
    let m : Fin 20 := Fin.ofNat 20 (10 + n.1 / 2)
    if s.locked m || !reqIsRead q.req then .next s
    else
      let s := s.modCh n (fun c => { c with queue := c.queue.eraseIdx pos })
      .next (s.serveRead n { q.req with err := .uncorrectable (Fin.ofNat 8 (q.req.addr / 8)) })

/-! ## Lock (R828 to R836) -/

/-- Largest phase error in the 1 ms before the last comparison, ps. -/
def Pll.peak (x : Pll) (now : Nat) : Nat :=
  ((x.peaks.filter (fun e => Nat.ble now (e.1 + 1000000))).map (·.2)).foldl max 0

/-- EV_PLL_UNLOCK and its entry: at most one per PLL per tick, none for PLL_ISL (R835, Table 18-4). DEDUCED: assumption 85. -/
def State.pllEvent (s : State) (k : PllIx) (kind cls : Nat) : State :=
  let x := s.clk.pll[k]
  if k = pllIsl ∨ x.raised = true then s
  else
    let us := if kind = 1 then 0 else (s.now - x.lostAt) / 1000
    let d := [byteOf k.1, byteOf kind, byteOf (min 255 x.losses), 0#8] ++ toBE 4 us ++ toBE 4 x.lostPeak
    let s := s.modPll k (fun x => { x with raised := true })
    (s.log 0x23 (if kind = 3 then 2 else 1) cls k.1 d).raise evPllUnlock d

/-- The class of a PLL's fault: of its loss of lock (Table 17-2), and of its failure (Table 17-3). -/
def lossClass (k : PllIx) : Nat := if (pllHead k).isSome then clsHead else clsMasked
def failClass (k : PllIx) : Nat :=
  if pllDevice k then clsDevice
  else if (pllHead k).isSome || k.1 == 8 || k.1 == 9 then clsHead
  else if (pllTrav k).isSome then clsInfo
  else clsMasked

/-- A PLL loses lock (R830, R834): its domains leave it; a head PLL blanks its head until the restart of R822. -/
def State.loseLock (s : State) (k : PllIx) : State :=
  let s := s.modPll k (fun x => { x with
    st := .unlocked, lostAt := s.now, unlocks := inc 32 x.unlocks, losses := x.losses + 1, aligned := false, inRun := 0, lostPeak := x.peak s.now })
  let s := match pllHead k with
    | some h => (if s.running h then s.modHead h (fun x => { x with wait := true }) else s).settle
    | none => s
  let s := if k = pllIsl then s.island (fun x => { x with pllOut := true }) else s
  s.pllEvent k 1 (lossClass k)

/-- PHASE_ERROR_COMPARISON (R828, R836, R837): |e| against CLK_LOCK_WIN, and a pulse of LOCK for a comparison out of window.
A PLL that is off makes none; one that the device is locking gives no pulse. PLL_ISL has no window parameter. DEDUCED:
assumption 85. -/
def execPhaseErrorComparison (k : PllIx) (e : Int) (s : State) : Res :=
  let x := s.clk.pll[k]
  if x.st = .off ∨ k = pllIsl then .next s
  else
    let a := e.natAbs
    let out := Nat.blt (s.pN P.CLK_LOCK_WIN k.1) a
    let s := s.modPll k (fun x => { x with
      inRun := if out then 0 else min 4096 (x.inRun + 1)
      outRun := if out then min 4096 (x.outRun + 1) else 0
      outNow := out
      peaks := (s.now, a) :: (x.peaks.filter (fun q => Nat.blt a q.2 && Nat.ble s.now (q.1 + 1000000))) })
    if out && bit (s.pN P.CLK_LOCK_MASK) k.1 && x.st != .acquiring then .next (s.emit .lock) else .next s

/-- PLL_LOSS_OF_LOCK (R828, R808): out of window in CLK_LOCK_M comparisons in a row, or its reference is missing. PLL_ISL is
judged by the island. DEDUCED: assumption 85. -/
def execPllLossOfLock (t : Nat) (k : PllIx) (s : State) : Res :=
  let s := s.atTime t
  let x := s.clk.pll[k]
  if k = pllIsl then (if s.isl.run = .off ∨ x.st = .unlocked ∨ x.st = .failed then .next s else .next (s.loseLock k))
  else if x.st = .locked ∧ (s.pN P.CLK_LOCK_M k.1 ≤ x.outRun ∨ (s.clk.refMissing = true ∧ pllOnSys k = true)) then .next (s.loseLock k)
  else .next s

/-- PLL_LOCK (R821, R822, R828): in window in CLK_LOCK_N comparisons in a row. A head PLL is realigned at the next tick
edge. DEDUCED: assumption 85. -/
def execPllLock (t : Nat) (k : PllIx) (s : State) : Res :=
  let s := s.atTime t
  let x := s.clk.pll[k]
  let inWindow := k = pllIsl ∨ (s.pN P.CLK_LOCK_N k.1 ≤ x.inRun ∧ ¬ (s.clk.refMissing = true ∧ pllOnSys k = true))
  if x.st = .off ∨ x.st = .locked ∨ ¬ inWindow then .next s
  else
    let again := x.st != .acquiring
    let f := s.vcoWanted k
    let s := s.modPll k (fun x => { x with
      st := .locked, lockTick := s.tick.count, outRun := 0, vco := f, target := f, slewAt := s.now })
    let s := match pllMc k with
      | some m => s.refreshMissed m
      | none => s
    -- a head PLL is realigned at the next tick edge (R822)
    let s := if (pllHead k).isNone then s.realign k else s
    let s := if k = pllIsl then s.island (fun x => { x with pllOut := false }) else s
    .next (if again then s.settle.pllEvent k 2 (lossClass k) else s.settle)

/-- PLL_FAILED (17 R790, Table 17-3): not relocked 10 ms after the loss. DEDUCED: assumption 85. -/
def execPllFailed (t : Nat) (k : PllIx) (s : State) : Res :=
  let s := s.atTime t
  let x := s.clk.pll[k]
  if x.st ≠ .unlocked ∨ s.now < x.lostAt + 10000000 then .next s
  else
    let s := (s.modPll k (fun x => { x with st := .failed })).pllEvent k 3 (failClass k)
    let s := match pllMc k, pllEth k, pllTrav k with
      | some m, _, _ => s.mcFail m
      | _, some p, _ => if s.linkUp p then (s.log (0x04 + p.1) 1 clsMasked p.1 []).linkRestart p else s
      | _, _, some p => s.travDown p
      | _, _, _ => s
    let s := if k = pllIsl ∧ s.isl.run = .run then s.island (fun x => { x with run := .fault }) else s
    .next (if pllDevice k then s.enterSafe causePll else s)

/-- REFCLK_MISSING (R808): the switch to IOSC; every locked PLL referenced to REFCLK_SYS loses lock. -/
def execRefclkMissing (t : Nat) (s : State) : Res :=
  let s := s.atTime t
  if s.clk.refMissing then .next s
  else
    let s := { s with clk := { s.clk with refMissing := true } }
    .next ((allFin 20).foldl (fun s k => if pllOnSys k && s.locked k then s.loseLock k else s) s)

/-- REFCLK_SYS_RESTORED (R808): the guard clocks return to REFCLK_SYS; the PLLs relock by themselves (R830). -/
def execRefclkSysRestored (t : Nat) (s : State) : Res :=
  .next { s.atTime t with clk := { s.clk with refMissing := false } }

/-- At a tick edge: head PLLs that have locked are realigned (R822); event bookkeeping of R835 starts again. -/
def State.pllEdge (s : State) : State :=
  let s := (allFin 4).foldl (fun s h =>
    let x := s.clk.pll[headPll h]
    if x.st == .locked && !x.aligned then s.realign (headPll h) else s) s
  { s with clk := { s.clk with pll := s.clk.pll.map (fun x => { x with losses := 0, raised := false }) } }

/-! ## Frequencies (R812, R816, R825, R827) -/

/-- CLK_ROPE_HZ (R827) as a fraction: the mean rope frequency at the current level. -/
def State.ropeHz (s : State) : Nat × Nat :=
  let (n, d) := spreadMean (s.pN P.CLK_SSC_MODE 0) (s.pN P.CLK_SSC_DEPTH 0)
  (5000000000 * n, d * (4 + s.clk.level))

/-- What divides PLL_ENG's VCO for the ropes: the level's divider (R816), 8 in HOLD (19 R848, R851). -/
def State.ropeDiv (s : State) : Nat := if s.dev = .hold then 8 else 4 + s.clk.level

/-- What divides the VCO to the first output of Table 18-1. -/
def State.firstDiv (s : State) (k : PllIx) : Nat :=
  if (pllHead k).isSome then 20
  else match k.1 with
    | 1 => s.ropeDiv
    | 2 | 10 | 11 | 12 | 13 => 2
    | 7 | 18 => 8
    | 14 | 15 | 16 | 17 => 64
    | 19 => 20
    | _ => 4

/-- The mean frequency of a PLL's first output, kHz (Table 18-6). -/
def State.pllKhz (s : State) (k : PllIx) : Nat :=
  let x := s.clk.pll[k]
  let f := if x.st = .locked then x.freqAt s.now else s.vcoWanted k
  f / (1000000 * s.firstDiv k)

/-! ## Clock domains (R809, R811, R819, R830; Table 18-2) -/

/-- The groups of domains. -/
inductive DomainGroup where
  | rope | emitterDac | senseConv | touchConv | laneGroup | headTiming | resampler | mirrorDrive | lpddr | qdrCapture
  | ethernet | traverse | classifier | compositor | island | test | supervisor | fabric | codec | belay | ptpTime
  | alwaysOn | lamp | anchor | cascadeTime | xspi | jtag | uart
  deriving DecidableEq, Repr

/-- The guard clock of a domain: from REFCLK_SYS or IOSC in its place, from REFCLK_ETH, from the crystal, kHz. -/
inductive Guard where
  | ref (khz : Nat)
  | eth
  | crystal (khz : Nat)
  | iosc
  | stopped
  | none
  deriving DecidableEq, Repr

/-- A row of Table 18-2: number of domains, nominal and maximum frequency in kHz (0: none given), guard clock. -/
structure DomainRow where
  count   : Nat
  nominal : Nat
  maximum : Nat
  guard   : Guard
  deriving DecidableEq, Repr

def domainRow : DomainGroup → DomainRow
  | .rope => ⟨34, 1250000, 1250000, .ref 100000⟩
  | .emitterDac => ⟨48, 400000, 404000, .stopped⟩
  | .senseConv => ⟨48, 192000, 194000, .ref 100000⟩
  | .touchConv => ⟨8, 250000, 252500, .stopped⟩
  | .laneGroup => ⟨16, 200000, 202000, .stopped⟩
  | .headTiming => ⟨4, 400000, 404000, .ref 100000⟩
  | .resampler => ⟨4, 400000, 404000, .ref 100000⟩
  | .mirrorDrive => ⟨8, 24000, 24200, .ref 20000⟩
  | .lpddr => ⟨8, 800000, 808000, .ref 100000⟩
  | .qdrCapture => ⟨4, 1066000, 1077000, .stopped⟩
  | .ethernet => ⟨4, 402830, 406900, .stopped⟩
  | .traverse => ⟨4, 402830, 406900, .stopped⟩
  | .classifier => ⟨2, 500000, 505000, .eth⟩
  | .compositor => ⟨4, 1000000, 1010000, .ref 100000⟩
  | .island => ⟨2, 100000, 101000, .crystal 25000⟩
  | .test => ⟨2, 100000, 105000, .iosc⟩
  | .supervisor => ⟨1, 1500000, 1500000, .ref 100000⟩
  | .fabric => ⟨1, 1000000, 1010000, .ref 100000⟩
  | .codec => ⟨1, 500000, 505000, .ref 100000⟩
  | .belay => ⟨1, 384000, 388000, .ref 100000⟩
  | .ptpTime => ⟨1, 500000, 505000, .ref 100000⟩
  | .alwaysOn => ⟨1, 100000, 105000, .iosc⟩
  | .lamp => ⟨1, 100000, 105000, .ref 100000⟩
  | .anchor => ⟨1, 100000, 105000, .iosc⟩
  | .cascadeTime => ⟨1, 500000, 505000, .ref 100000⟩
  | .xspi => ⟨1, 200000, 202000, .ref 100000⟩
  | .jtag => ⟨1, 0, 50000, .none⟩
  | .uart => ⟨1, 100000, 105000, .iosc⟩

/-- The PLL that feeds domain i of a group; none for REFCLK_SYS, TCK, and the DAC of an unbound channel (R811). -/
def State.domainPll (s : State) (g : DomainGroup) (i : Nat) : Option PllIx :=
  match g with
  | .rope => some 1
  | .emitterDac => (s.boundHead (Fin.ofNat 48 i)).map (fun (h, _) => headPll h)
  | .senseConv | .mirrorDrive | .belay => some pllSns
  | .touchConv => some (headPll (Fin.ofNat 4 (i / 2)))
  | .laneGroup => some (headPll (Fin.ofNat 4 (i / 4)))
  | .headTiming | .resampler => some (headPll (Fin.ofNat 4 i))
  | .lpddr => some (Fin.ofNat 20 (10 + i / 2))
  | .qdrCapture => some (Fin.ofNat 20 (8 + i / 2))
  | .ethernet => some (Fin.ofNat 20 (14 + i / 2))
  | .traverse => some (Fin.ofNat 20 (16 + i / 2))
  | .classifier | .compositor | .fabric | .codec | .lamp | .xspi => some 0
  | .island => some pllIsl
  | .supervisor => some 2
  | .ptpTime | .cascadeTime => some 18
  | .test | .alwaysOn | .anchor | .uart | .jtag => none

/-- What clocks a domain: a PLL, its guard clock (from REFCLK_SYS, or from IOSC), a reference, a pin, nothing. -/
inductive DomainClock where
  | pll (k : PllIx)
  | guard (khz : Nat) (iosc : Bool)
  | ref
  | iosc
  | pin
  | stopped
  deriving DecidableEq, Repr

/-- The clock of domain i of a group (R808, R811, R819, R830): its PLL while that is locked and aligned, else its guard clock. The
second domain of the island has an eighth of its first. -/
def State.domainClock (s : State) (g : DomainGroup) (i : Nat) : DomainClock :=
  let row := domainRow g
  match s.domainPll g i with
  | some k =>
    if !s.onGuard k then .pll k
    else match row.guard with
      | .ref f => .guard f s.clk.refMissing
      | .eth => .guard 156250 false
      | .crystal f => .guard (if i = 0 then f else f / 8) false
      | _ => .stopped
  | none =>
    if g = .jtag then .pin
    else if g = .emitterDac then .stopped
    else if s.clk.refMissing then .iosc else .ref

def PllState.code : PllState → Nat
  | .off => 0
  | .acquiring => 1
  | .locked => 2
  | .unlocked => 3
  | .failed => 4

/-- CLK_STATUS (Table 18-6). -/
def State.clkStatus (s : State) (k : PllIx) : Bytes :=
  let x := s.clk.pll[k]
  let guard := x.st != .off && s.onGuard k
  let spread := (k.1 == 1 && s.pN P.CLK_SSC_MODE 0 != 0) || (k.1 == 2 && s.pN P.CLK_SSC_MODE 1 != 0)
  [byteOf x.st.code, byteOf (b2n guard + 2 * b2n (x.slewing s.now) + 4 * b2n (spread && x.st == .locked) + 8 * b2n x.aligned +
      16 * b2n (k.1 == 1 && s.clk.divHeld.isSome)), 0#8, 0#8] ++
    toLE 4 (if x.st = .off then 0 else s.pllKhz k) ++ toLE 2 (min 65535 (x.peak s.now)) ++ zeros 2 ++ toLE 4 x.lockTick

/-- FLT_PLL_FAILED. -/
def State.pllFailedMask (s : State) : Nat := maskBelow 20 (fun k => (s.clk.pll[Fin.ofNat 20 k]).st == .failed)

/-- Is a PLL of class DEVICE failed (17 R794)? -/
def State.devicePllFailed (s : State) : Bool := (allFin 20).any (fun k => pllDevice k && (s.clk.pll[k]).st == .failed)

/-- A write of CLK_LOCK_WIN, CLK_LOCK_N or CLK_LOCK_M restarts both counts (R829). -/
def State.lockRestart (s : State) (k : PllIx) : State := s.modPll k (fun x => { x with inRun := 0, outRun := 0 })

end Sys2Proof.Machine
end

