-- ==== Sys2Proof/Machine/Checks.lean ====
section
/-! DEFINITION. The checks of a configuration: the admission test, and what STAGE_COMMIT refuses (01 R35 to R44; 02 R49, R966;
04 R973; 05 R275; 06 R342, R348, R349, R369; 08 R438; 09 R458 to R484; 10 R513 to R534; 11 R554; 12 R592, R596, R629; 13
R644, R654, R965; 14 R687; 16 R774). -/

namespace Sys2Proof.Machine

/-! ## The work plan and its cost (R34 to R44) -/

/-- A SYS_WORKPLAN write that R35 accepts. -/
def workplanOk (t : Bytes) : Bool :=
  (List.range 16).all (fun i =>
    let w := le32 t (4 * i)
    if bit w 31 then
      bits w 25 22 == 0 && bits w 15 0 == 0 && Nat.ble (bits w 30 28) 3 && Nat.ble 1 (bits w 21 16) && Nat.ble (bits w 21 16) 32 &&
        (bits w 30 28 != 3 || bits w 27 26 == 0)
    else w == 0)

/-- The configured heads (R965). -/
def configured (b : Bank) : List Nat := (List.range 4).filter (fun h => bkN b P.HDT_TYPE h != typeNone)

/-- What a complete plan holds (R36): task and head of each entry. -/
def planNeeds (b : Bank) : List (Nat × Nat) :=
  (configured b).flatMap (fun h =>
    if bkN b P.HDT_TYPE h = typePlane then [(0, h)]
    else (1, h) :: (if (chansOf b h roleTouch).isEmpty then [] else [(2, h)])) ++ [(3, 0)]

def planComplete (b : Bank) : Bool :=
  let have_ := (planOf b).map (fun e => (e.task, e.head))
  (planNeeds b).all (fun n => have_.count n == 1) && have_.length == (planNeeds b).length

/-- Table 1-8: the cost of an entry per tick, times TCK_RATE_NUM. -/
def entryCost (b : Bank) (e : PlanEntry) : Nat :=
  let h := e.head
  let g := (groupsOf b h).length
  let m := multOf b h
  let num := bkN b P.TCK_RATE_NUM
  match e.task with
  | 0 => num * (m * (bkN b P.PLN_COLS h * bkN b P.PLN_ROWS h) * (1536 + 384 * g + 768 * (fieldsOf b h).length))
  | 1 =>
    let per := if bkN b P.SCN_FILTER h = 1 then 384 else 192
    num * (m * (bkN b P.SCN_LINES_ACT h * bkN b P.SCN_SAMPLES h) * (1024 + per * g))
  | 2 => 6000000000 * bkN b P.TCK_RATE_DEN
  | _ =>
    let bound := ((allFin 48).filter (fun c =>
      match bindOf b c.1 with
      | some (_, r) => Nat.ble r 5
      | none => false)).length
    num * (24000000 * (configured b).length + 500000 * bound)

/-- SYS_BUDGET: lane operations per tick of a configuration (R37), rounded down. -/
def budgetOf (b : Bank) : Nat := ((planOf b).map (entryCost b)).foldl (· + ·) 0 / bkN b P.TCK_RATE_NUM

/-- Does a cost (times TCK_RATE_NUM) stay within 90 % of what some ropes supply per tick (R38, R39)? -/
def State.within90 (s : State) (b : Bank) (cost ropes : Nat) : Bool :=
  let (hz, d) := s.ropeHz
  decide (cost * d * 10 ≤ 9 * ropes * 512 * hz * bkN b P.TCK_RATE_DEN)

/-- SYS_CAPACITY (R38), rounded down. -/
def State.capacityPerTick (s : State) : Nat :=
  let (hz, d) := s.ropeHz
  let b := s.par.active
  s.flt.nActive * 512 * hz * bkN b P.TCK_RATE_DEN / (d * bkN b P.TCK_RATE_NUM)

/-- The admission test of R39. -/
def State.admits (s : State) (b : Bank) : Bool :=
  let plan := planOf b
  planComplete b && Nat.ble (plan.foldl (fun a e => a + e.ropes) 0) s.flt.nActive &&
    s.within90 b ((plan.map (entryCost b)).foldl (· + ·) 0) s.flt.nActive && plan.all (fun e => s.within90 b (entryCost b e) e.ropes)

/-! ## Compositor cost (06 R348, R349) -/

def State.composeCost (s : State) (b : Bank) (h : HeadIx) : Nat :=
  let cw := bkCanvasW b h.1
  let ch := bkCanvasH b h.1
  let w := s.lw.win[h]
  let window := if w.enable then w.rw * w.zoom * (w.rh * w.zoom) else 0
  let overR (off : Int) (len lim : Nat) : Nat := (min (off + len) (lim : Int) - max off 0).toNat
  let layers := if bkN b P.CMP_CLONE h.1 < 4 then 0
    else (List.range 16).foldl (fun a j =>
      let lay := layerOf (bkT b P.CMP_LAYER (16 * h.1 + j))
      let dst := overR lay.dx lay.dw cw * overR lay.dy lay.dh ch
      if lay.enable && dst != 0 then a + max dst (lay.sw * lay.sh) else a) 0
  cw * ch + layers + window

def State.composeFits (s : State) (b : Bank) : Bool :=
  (configured b).all (fun h =>
    decide (s.composeCost b (Fin.ofNat 4 h) * frameDen b h ≤ 3600000000 * frameNum b))

/-- The load of the Belay engine (12 R592). -/
def belayFits (b : Bank) : Bool := let (n, d) := blyLoad b; decide (n ≤ 1843 * d)

/-- A change that R39, R349 or R592 refuses. -/
def State.overBudget (s : State) (b : Bank) : Bool := !(s.admits b && s.composeFits b && belayFits b)

/-! ## Tick and sessions (02 R49; 04 R201, R973) -/

/-- Rates of R49. -/
def ratesOk (b : Bank) : Bool :=
  let n := bkN b P.TCK_RATE_NUM
  let d := bkN b P.TCK_RATE_DEN
  decide (24 * d ≤ n) && decide (n ≤ 240 * d) && (configured b).all (fun h => decide (multOf b h = 1) || decide (n * multOf b h ≤ 240 * d))

/-- The checks of R201 on a session's ring: stale first, then the layout. -/
def State.ringRefusal (s : State) (b : Bank) (v : Nat) : Option Status :=
  let hs := (ringOf b v).filter (fun x => x != 0)
  if hs.any (fun x => (s.surface x).isNone) then some .errStaleHandle
  else if hs.all (fun x => match s.surface x with
      | some (_, y) => y.kind == .planar && y.format == fmtPlanar (bkN b P.ETH_RX_FORMAT v) && y.width == bkN b P.ETH_RX_WIDTH v &&
          y.height == bkN b P.ETH_RX_HEIGHT v
      | none => false) then none
  else some .errRange

/-- R973 at a commit. -/
def State.sessionsRefusal (s : State) (b : Bank) : Option Status :=
  (List.range 8).findSome? (fun v =>
    if bkN b P.ETH_RX_ENABLE v = 0 then none
    else if ((ringOf b v).filter (fun x => x != 0)).length < 2 then some .errRange
    else s.ringRefusal b v)

/-! ## Canvas, clones, colour (06 R342, R369; 08 R438) -/

def State.windowsFit (s : State) (b : Bank) : Bool :=
  (configured b).all (fun h =>
    let w := s.lw.win[Fin.ofNat 4 h]
    !w.enable || windowFits w (bkCanvasW b h) (bkCanvasH b h))

def clonesOk (b : Bank) : Bool :=
  (configured b).all (fun h =>
    let c := bkN b P.CMP_CLONE h
    !Nat.blt c 4 || (c != h && !Nat.blt (bkN b P.CMP_CLONE c) 4 && bkN b P.HDT_TYPE c != typeNone &&
      bkN b P.TCK_HEAD_MULT c == bkN b P.TCK_HEAD_MULT h))

def State.colourOk (s : State) (b : Bank) : Bool :=
  (allFin 48).all (fun c =>
    let k := calOf (bkT b P.COL_CAL c.1)
    (match bindOf b c.1 with
     | some (_, r) => !Nat.ble r 5 || k.known
     | none => true) && !(k.wmode == 1 && k.tsense == 0xFF)) &&
  (configured b).all (fun h => (s.calSolve b h).isSome)

/-! ## Plane heads (09 R458, R463, R464, R478, R484) -/

def planeHeads (b : Bank) : List Nat := (List.range 4).filter (fun h => bkN b P.HDT_TYPE h == typePlane)
def scanHeads (b : Bank) : List Nat := (List.range 4).filter (fun h => bkN b P.HDT_TYPE h == typeScan)

/-- Does every node of a mesh lie within `rows` canvas rows of its nominal row, each offset of `offs` (in 2^-19 rows)
added (09 R463, 10 R529)? -/
def meshNear (b : Bank) (id h rows : Nat) (offs : List Int) : Bool :=
  let nx := meshNx b h
  let r := gridH b h
  let step := 2 ^ meshStep b h
  let hc := bkCanvasH b h
  (List.range (meshNy b h)).all (fun j => (List.range nx).all (fun i =>
    let v := sle32 (pagedBytes b id h (8 * (j * nx + i) + 4) 4) 0
    offs.all (fun o => decide (((v + o) * r - (j * step * hc * 524288 : Nat)).natAbs ≤ rows * 524288 * r))))

/-- Entries of PLN_FIELDS and PLN_SCHED with no reserved field or code (R478). -/
def scheduleForm (b : Bank) (h : Nat) : Bool :=
  let f := bkT b P.PLN_FIELDS h
  let t := bkT b P.PLN_SCHED h
  let n := le16 t 0
  (List.range 8).all (fun k => u8 f (4 * k) == 0xFF ||
    (Nat.ble (u8 f (4 * k)) 5 && Nat.ble 1 (u8 f (4 * k + 1)) && Nat.ble (u8 f (4 * k + 1)) 16 && le16 f (4 * k + 2) == 0)) &&
  Nat.ble 1 n && Nat.ble n 256 && le16 t 2 == 0 &&
  (List.range n).all (fun s =>
    let kind := u8 t (4 + 8 * s)
    Nat.ble kind 1 && u8 t (7 + 8 * s) == 0 && le32 t (8 + 8 * s) != 0 &&
      (if kind = 0 then Nat.ble (u8 t (5 + 8 * s)) 7 && Nat.ble (u8 t (6 + 8 * s)) 15
       else u8 t (5 + 8 * s) == 0 && u8 t (6 + 8 * s) == 0))

/-- Is the schedule of a used field binary (R470)? -/
def fieldBinary (slots : List Slot) (f n : Nat) : Bool :=
  let sum (i : Nat) : Nat := slots.foldl (fun a x => if !x.dark && x.field == f && x.bit == i then a + x.dur else a) 0
  (List.range n).all (fun i => sum i != 0 && sum i == 2 ^ i * sum 0)

/-- R478 for one plane head. -/
def scheduleOk (b : Bank) (h : Nat) : Bool :=
  let slots := slotsOf (bkT b P.PLN_SCHED h)
  let fields := fieldsOf b h
  scheduleForm b h &&
  slots.all (fun x => x.dark || fields.any (fun (f, _, n) => f == x.field && Nat.blt x.bit n)) &&
  fields.all (fun (f, _, n) => fieldBinary slots f n) &&
  (match slots.getLast? with
   | some x => x.dark
   | none => false) &&
  slots.any (fun x => x.dark && Nat.ble 1600 x.dur) &&
  slots.all (fun x => x.dark || Nat.ble (slotJ (tMin b h) x.dur) 15) &&
  decide (schedSum b h * 25 * frameDen b h * 1000 ≤ 998 * frameNum b * 10000000000) &&
  decide (fields.length * frameDen b h ≤ 1440 * frameNum b) &&
  decide (tCycle b h + tX b h ≤ 56000) &&
  fields.all (fun (_, g, _) => (groupsOf b h).contains g) &&
  fields.all (fun (f, _, _) => let (e, d) := dutyOf b h f; decide (96 * d ≤ 100 * e))

/-- Does the window of a head lie within its grid (R464, 10 R513)? -/
def State.windowInGrid (s : State) (b : Bank) (h : Nat) : Bool :=
  let w := s.lw.win[Fin.ofNat 4 h]
  !w.enable || windowFits w (gridW b h) (gridH b h)

def State.planesOk (s : State) (b : Bank) : Bool :=
  (planeHeads b).all (fun h =>
    (List.range (bkN b P.PLN_BLOCKS h)).all (fun k => decide (8 ≤ blockRow b h (k + 1) - blockRow b h k)) &&
    meshNear b P.PLN_MESH h 48 [0] && s.windowInGrid b h && scheduleOk b h)

/-- The new plane stores of a commit (R484): head, offset, length, with length 0 for a head that gives its store up; none
when the mirror pool cannot hold them. -/
def State.newStores (s : State) (b : Bank) : Option (List (Nat × (Nat × Nat))) :=
  ((List.range 4).foldl (fun (acc : Option State) h =>
    match acc with
    | none => none
    | some s =>
      let old := assocGet h s.surf.extra
      let need := if bkN b P.HDT_TYPE h = typePlane then storeBytes b h else 0
      if (old.map (·.2)).getD 0 = need then some s
      else if need = 0 then some { s with stores := s.stores ++ [(h, (0, 0))] }
      else match s.place true need with
        | some o => some { s with stores := s.stores ++ [(h, (o, need))] }
        | none => none) (some { s with stores := [] })).map (·.stores)

/-! ## Scan heads (10 R513, R525, R529, R533, R534) -/

/-- The raster fits the head frame. -/
def rasterFits (b : Bank) (h : Nat) : Bool :=
  let lo := 2 * fLo b h
  decide (((490000 + bkN b P.SCN_FLYBACK h) * lo + (bkN b P.SCN_LINES_ACT h + 1) * 10 ^ 18) * frameDen b h ≤
    1000000000 * frameNum b * lo)

/-- τ_ref at f_hi is 3.0 ns or more. -/
def samplesSpaced (b : Bank) (h : Nat) : Bool :=
  decide (((3 * 65536 * bkN b P.SCN_SAMPLES h * fHi b h : Nat) : Int) * fxPi ≤ ((bkN b P.SCN_ACTIVE h * 10 ^ 18 : Nat) : Int) * (fxOne : Nat))

/-- THRESH of SCN_PROBE: a + 0.02 to 0.99 (Table 10-3). -/
def threshOk (b : Bank) (h : Nat) (t : Bytes) : Bool :=
  decide (50 * bkN b P.SCN_ACTIVE h + 65536 ≤ 50 * le16 t 2) && decide (100 * le16 t 2 ≤ 99 * 65536)

/-- SCN_PROBE (Table 10-3): its fields, and the zone of R534. -/
def probeZoneOk (b : Bank) (h : Nat) : Bool :=
  let t := bkT b P.SCN_PROBE h
  let th := le16 t 2
  u8 t 0 == 0 ||
    (threshOk b h t &&
      decide (21 * (fHi b h : Int) * (fxOne : Nat) ≤ 2 * 10 ^ 16 * ((fxOne : Int) / 4 - fxArcsinTurns (fxRat th 65536))))

/-- The convergence offsets DY_g of SCN_CONV, in 2^-19 rows (R529). -/
def convRows (b : Bank) (h : Nat) : List Int := (List.range 6).map (fun g => sle16 (bkT b P.SCN_CONV h) (4 * g + 2) * 2048)

/-- The limit of R529, in rows; none when no node can meet it. -/
def scanMeshLimit (b : Bank) (h : Nat) : Option Nat :=
  let d := bkN b P.SCN_BAND h / 2 - 4
  let k := ceilDiv (bkCanvasH b h) (bkN b P.SCN_LINES_ACT h) + 1
  if k ≤ d then some (d - k) else none

def scanMeshOk (b : Bank) (h : Nat) : Bool :=
  match scanMeshLimit b h with
  | some n => meshNear b P.SCN_MESH h n (convRows b h)
  | none => false

/-- The QDR load of an interface (R533; 14 R688). -/
def qdrLoadOk (b : Bank) (x : Nat) : Bool :=
  let load := (scanHeads b).foldl (fun a h =>
    if bkN b P.MEM_QDR_SEL h = x then
      a + qdrLoadNum b h (bkCanvasW b h) (bkCanvasH b h) +
        (if (chansOf b h roleTouch).isEmpty then 0 else 2 * 40960 * bkN b P.TCK_RATE_NUM * multOf b h)
    else a) 0
  decide (load ≤ 14500000000 * bkN b P.TCK_RATE_DEN)

/-- The slots of a scan head. -/
def scanSlots (b : Bank) (h : Nat) : List Nat := [bkN b P.SCN_FAST_SLOT h, bkN b P.SCN_SLOW_SLOT h]

def noRepeats (l : List Nat) : Bool := l.all (fun x => l.count x == 1)

def State.scansOk (s : State) (b : Bank) : Bool :=
  (scanHeads b).all (fun h =>
    rasterFits b h && samplesSpaced b h && probeZoneOk b h && scanMeshOk b h && s.windowInGrid b h &&
      (!(s.lw.win[Fin.ofNat 4 h]).enable || (bkCanvasW b h == gridW b h && bkCanvasH b h == gridH b h))) &&
  noRepeats ((scanHeads b).flatMap (scanSlots b)) && qdrLoadOk b 0 && qdrLoadOk b 1

/-! ## Channels (11 R554) -/

def bindingsOk (b : Bank) : Bool :=
  (allFin 48).all (fun c =>
    match bindOf b c.1 with
    | some (h, r) => bkN b P.HDT_TYPE h != typeNone && !(r == roleTouch && bkN b P.HDT_TYPE h == typePlane)
    | none => true) &&
  (configured b).all (fun h => Nat.ble (chansOf b h roleTouch).length 1 && Nat.ble 3 (groupsOf b h).length)

/-! ## Belay (12 R596, R629) -/

def descAt (b : Bank) (k : Nat) : Desc := descOf (bkT b P.BLY_SLOT k)

/-- The sinks other than NONE that slots drive. -/
def sinksOf (b : Bank) : List Nat :=
  (List.range 128).filterMap (fun k => let d := descAt b k; if d.law = lawOff ∨ d.out = 0 then none else some (256 * d.out + d.outIdx))

def slotOff (b : Bank) (k : Nat) : Bool := (descAt b k).law == lawOff

def loopsOk (b : Bank) : Bool :=
  noRepeats (sinksOf b) &&
  (List.range 128).all (fun k =>
    let d := descAt b k
    d.law == lawOff ||
      ((d.inp != 6 || (d.inIdx != k && !slotOff b d.inIdx)) && (d.sp != 2 || (d.spIdx != k && !slotOff b d.spIdx)) &&
        (d.law != lawMirror || (scanHeads b).any (fun h => bkN b P.SCN_FAST_SLOT h == k)))) &&
  (List.range 48).all (fun c => bkN b P.EMT_BIAS_SRC c != 1 || !slotOff b (bkN b P.EMT_BIAS_SLOT c)) &&
  (scanHeads b).all (fun h =>
    let f := descAt b (bkN b P.SCN_FAST_SLOT h)
    let w := descAt b (bkN b P.SCN_SLOW_SLOT h)
    let p := profOf (bkT b P.BLY_PROFILE (bkN b P.SCN_SLOW_SLOT h))
    f.law == lawMirror && f.div == 1 && f.out == 1 && f.outIdx == h &&
      w.law != lawOff && w.sp == 1 && p.saw && p.head == h && w.out == 2 && w.outIdx == h)

/-- Square root at scale 2^160 for large arguments. -/
def fxRoot (x : Int) : Int := (isqrt 420 (x.toNat * fxOne) : Nat)

/-- T_L at scale 2^160, s (R627). -/
def leadFx (v a j : Int) : Int :=
  if fxMul a a ≤ fxMul v j then fxDiv v a + fxDiv a j else 2 * fxRoot (fxDiv v j)

/-- The minimum time of a rest-to-rest move of distance d under limits v, a, j, at scale 2^160, s. -/
def moveFx (d v a j : Int) : Int :=
  let quad := 4 * (fxPow (fxDiv d (2 * j)).toNat 1 3 : Nat)
  if fxMul a a ≤ fxMul v j then
    if fxMul v (fxDiv v a + fxDiv a j) ≤ d then fxDiv d v + fxDiv v a + fxDiv a j
    else if 2 * fxMul (fxMul a a) a ≤ fxMul d (fxMul j j) then
      fxDiv a j + fxRoot (fxMul (fxDiv a j) (fxDiv a j) + 4 * fxDiv d a)
    else quad
  else if fxMul v (2 * fxRoot (fxDiv v j)) ≤ d then fxDiv d v + 2 * fxRoot (fxDiv v j)
  else quad

/-- A SAWTOOTH profile's fields (Table 12-7). -/
def sawFieldsOk (t : Bytes) : Bool :=
  let p := profOf t
  let one := dOf 1
  Nat.ble p.head 3 && le16 t 2 == 0 && le32 t 28 == 0 && p.tgt.isFinite && flLe (flAbs p.tgt) one && p.step.isFinite &&
    flLt (dOf 0) (flAbs p.step) && [p.vmax, p.amax, p.jmax].all (fun v => v.isFinite && flLt (dOf 0) v) && p.park.isFinite

/-- R629 for one SAWTOOTH profile. -/
def sawOk (b : Bank) (t : Bytes) : Bool :=
  let p := profOf t
  let h := p.head
  sawFieldsOk t &&
    (let fx (v : Fl) : Int := flToInt v 160
     let step := fx p.step
     let vr : Int := 2 * step * (fHi b h : Int) / 1000000000
     let v : Int := vr.natAbs
     let tl := leadFx v (fx p.amax) (fx p.jmax)
     let la : Int := bkN b P.SCN_LINES_ACT h
     let dist : Int := la * (step.natAbs : Int) + fxMul v tl
     let time := 2 * tl + moveFx dist (fx p.vmax) (fx p.amax) (fx p.jmax)
     let half := fxMul vr tl / 2
     let inside (x : Int) : Bool := decide (-(fxOne : Int) ≤ x) && decide (x ≤ (fxOne : Int))
     decide (time * 1000000000 ≤ (bkN b P.SCN_FLYBACK h : Int) * (fxOne : Int)) && inside (fx p.tgt - half) &&
       inside (fx p.tgt + la * step + half))

/-- DEDUCED: assumption 62. -/
def profilesOk (b : Bank) : Bool :=
  (List.range 128).all (fun k =>
    let d := descAt b k
    let t := bkT b P.BLY_PROFILE k
    d.law == lawOff || d.sp != 1 || !(profOf t).saw ||
      (Nat.ble (profOf t).head 3 && bkN b P.HDT_TYPE (profOf t).head == typeNone) || sawOk b t)

/-! ## Timing events, regions, touch, seams (13 R644, R654; 14 R687; 16 R774) -/

def gpioOk (b : Bank) : Bool :=
  (List.range 16).all (fun g =>
    match gpioEvent (bkN b P.HDT_GPIO g) with
    | none => true
    | some (h, _) => bkN b P.HDT_TYPE h != typeNone && !(List.range 2).any (fun p => bkN b P.ETH_MODPRS p == g))

def regionsOk (b : Bank) : Bool :=
  (configured b).all (fun h => (List.range 16).all (fun k =>
    let r := regionOf (bkT b P.HDT_REGION (16 * h + k))
    r.mode == 0 || (Nat.ble (r.x + r.w) (bkCanvasW b h) && Nat.ble (r.y + r.h) (bkCanvasH b h))))

def touchOk (b : Bank) : Bool := (configured b).all (fun h => Nat.ble (bkN b P.TCH_AREA_MIN h) (bkN b P.TCH_AREA_MAX h))

def State.seamsOk (s : State) (b : Bank) : Bool :=
  (List.range 8).all (fun k =>
    let x := seamTxOf (bkT b P.CAS_SEAM_TX k)
    !x.enable || (Nat.ble (x.x + x.w) (bkCanvasW b x.head) && Nat.ble (x.y + x.h) (bkCanvasH b x.head))) &&
  (List.range 8).all (fun k =>
    let t := bkT b P.CAS_SEAM_RX k
    !seamOn t ||
      match s.surface (le32 t 4), s.surface (le32 t 8) with
      | some (_, x), some (_, y) =>
        x.kind == .packed && y.kind == .packed && x.format == 0x20 && y.format == 0x20 && x.width == y.width && x.height == y.height
      | _, _ => false)

/-! ## STAGE_COMMIT (R966) -/

/-- The checks of R966 from step 3 on, against the staged bank. -/
def State.commitRefusal (s : State) (b : Bank) : Option Status :=
  if !ratesOk b then some .errRange
  else match s.sessionsRefusal b with
    | some st => some st
    | none =>
      if !(qdrFits b && s.windowsFit b && clonesOk b && s.colourOk b && s.planesOk b && (s.newStores b).isSome && s.scansOk b &&
          bindingsOk b && loopsOk b && profilesOk b && gpioOk b && regionsOk b && touchOk b && s.seamsOk b) then some .errRange
      else if s.overBudget b then some .errBudget
      else none

end Sys2Proof.Machine
end

