-- ==== Sys2Proof/Machine/Flags.lean ====
section
/-! DEFINITION. Status words the device forms from its conditions: the standing faults and FAULT_N (17 R801, Table 17-8),
EMT_STATUS and ANC_STATUS (11 Tables 11-5, 11-11), the reference status (18 CLK_REF) and the rails (19 SYS_RAILS). -/

namespace Sys2Proof.Machine

/-- A value from bits, lowest first. -/
def bitList (l : List Bool) : Nat := l.foldr (fun b a => b2n b + 2 * a) 0

/-- FLT_STANDING (Table 17-8). DEDUCED: assumption 109. -/
def State.standing (s : State) : Nat :=
  bitList [
    s.dev == .safe,
    s.em.toList.any (fun e => e.openF || e.shortF || e.driverF),
    s.flt.failed.toList.any id && s.flt.nSpare == 0,
    s.mem.failed.toList.any id,
    s.pllFailedMask != 0,
    (allFin 2).any (fun p => s.pN P.ETH_MEDIA p.1 != mediaDisabled && !s.linkUp p),
    (allFin 2).any (fun p => bit (s.pN P.CAS_PORTS) p.1 && !s.travUp p),
    s.dev == .hold,
    s.cas.split != 0,
    s.throttling]

/-- FAULT_N is asserted (R801). -/
def State.faultN (s : State) : Bool := s.dev == .boot || (s.standing &&& s.pN P.FLT_PIN_MASK) != 0

/-- Channels that the Anchor holds blank. -/
def State.heldBlank (s : State) : Nat := maskBelow 48 (fun c => !s.permitted (Fin.ofNat 48 c))

/-- EMT_STATUS (Table 11-5). -/
def State.emtStatus (s : State) (c : ChanIx) : Bytes :=
  let e := s.em[c]
  let flags := bitList [(s.boundHead c).isSome, e.en.isSome, !s.permitted c, e.openF, e.shortF, e.driverF, e.probeDue, e.undetermined]
  [byteOf flags, byteOf (e.pdp.range + 4 * e.pdw.range + 16 * e.range)] ++ toLE 2 e.bias ++
    toLE 4 (e.mean.foldl (· + ·) 0 / 2000) ++ toLE 2 e.ratio ++ [byteOf e.method, 0#8] ++ toLE 4 e.evalTick

/-- ANC_STATUS (Table 11-11). -/
def State.ancStatus (s : State) : Bytes :=
  let a := s.anc
  [byteOf (bitList [s.pB P.ANC_SEAL, a.pinA, a.pinB, a.differAt.isSome, s.emissionOn, s.anchorFault]), byteOf a.fault,
    byteOf a.faultCh, byteOf (maskBelow 4 (fun h => s.motionOk (Fin.ofNat 4 h)))] ++ toLE 6 s.heldBlank ++ zeros 2 ++
    toLE 4 (if a.fault = 0 then 0 else a.faultTick)

/-- CLK_REF: REFCLK_ETH is taken as present. DESIGN CHOICE: assumption 32. -/
def State.clkRef (s : State) : Nat := bitList [!s.clk.refMissing, true, s.clk.refMissing]

/-- SYS_RAILS. -/
def State.rails (s : State) : Nat := bitList [s.pwr.coreLow, s.pwr.a18Low]

end Sys2Proof.Machine
end

