-- ==== Sys2Proof/Machine/Lamps.lean ====
section
/-! DEFINITION. The lamp matrix: scan frames, row periods, levels and lamp diagnosis (20 R901 to R915). -/

namespace Sys2Proof.Machine

def State.modLmp (s : State) (f : Lmp → Lmp) : State := { s with lmp := f s.lmp }

/-! ## Levels (R905, R906) -/

/-- An entry of the curve's table (R905). -/
def curveEntry (curve i : Nat) : Nat :=
  match curve with
  | 0 => min (64 * i) 65535
  | 1 => fxRound (65535 * fxPow (fxRat i 1024).toNat 11 5)
  | _ => if i = 0 then 0 else fxRound (65535 * fxPow (fxRat 10 1).toNat ((i : Int) - 1024) 256)

/-- L of an expanded code: the interpolation of R325. -/
def curveAt (curve e : Nat) : Nat :=
  let i := e / 64
  let a := curveEntry curve i
  let b := curveEntry curve (i + 1)
  a + ((b - a) * (e % 64) + 32) / 64

/-- The code of lamp n in use: bits above LMP_BITS are ignored. -/
def Lmp.code (x : Lmp) (n : Nat) : Nat := le16 x.front (2 * n) % 2 ^ x.cfg.bits

/-- L' of lamp n (R906). -/
def Lmp.drive (x : Lmp) (dim n : Nat) : Nat := (curveAt x.cfg.curve (replicate16 x.cfg.bits (x.code n)) * dim + 32768) / 65536

/-- Steps of a row period, of its blanking and of its window (R903). -/
def LampCfg.rowSteps (c : LampCfg) : Nat := divHalfUp 6250000 c.rate
def LampCfg.blankSteps (c : LampCfg) : Nat := if c.rowblank then c.blank / 10 else 50
def LampCfg.window (c : LampCfg) : Nat := c.rowSteps - c.blankSteps

/-! ## Scan frames (R904, R907, R909) -/

/-- The committed configuration. -/
def State.lampCfg (s : State) : LampCfg where
  enable := s.pB P.LMP_ENABLE
  rowblank := s.pB P.LMP_MODE
  rate := s.pN P.LMP_RATE
  blank := s.pN P.LMP_BLANK
  bits := s.pN P.LMP_BITS
  curve := s.pN P.LMP_CURVE
  icol := (List.range 16).map (fun k => s.pN P.LMP_ICOL k)
  probe := s.pB P.LMP_PROBE_EN
  shortV := s.pN P.LMP_SHORT_V

/-- The matrix starts: accumulators and the frame count are cleared (R906, R911). -/
def Lmp.start (x : Lmp) : Lmp := { x with run := true, frame := 0, lamps := x.lamps.map (fun l => { l with acc := 0, since := 0 }) }

/-- The buffers swap (R907). -/
def Lmp.swap (x : Lmp) : Lmp :=
  match x.back with
  | some b => if x.cfg.rowblank then x else { x with front := b, back := none, swaps := inc 32 x.swaps }
  | none => x

/-- LAMP_SCAN_FRAME (R903, R904, R907, R909): a scan frame begins where the last one has ended. -/
def execLampScanFrame (s : State) : Res :=
  let x := s.lmp
  if s.dev = .boot ∨ (x.run = true ∧ x.row < 16) then .next s
  else
    let cfg := s.lampCfg
    if !cfg.enable then .next (s.modLmp (fun x => { x with cfg := cfg, run := false, row := 16 }))
    else
      let x := if x.run then { x with frame := x.frame + 1 } else x.start
      .next (({ s with lmp := { x with cfg := cfg, row := 0 }.swap }).emit .lampSync)

/-! ## Row periods and diagnosis (R906, R908, R910 to R913) -/

/-- Does a lamp get a probe in the running scan frame (R911, R913)? -/
def Lmp.probes (x : Lmp) (n drive : Nat) (l : Lamp) : Bool :=
  x.cfg.probe && (x.frame + n) % 64 == 0 && l.fault != 2 && decide (10 * 65536 ≤ drive * x.cfg.window) &&
    decide (drive * x.cfg.window < 30 * 65536)

/-- A lamp's fault after an evaluation (R913): the finding, and whether it latches. DEDUCED: assumption 92. -/
def Lamp.evaluate (l : Lamp) (finding : Nat) : Lamp × Bool :=
  let latches := finding != 0 && l.last == finding && l.fault == 0
  ({ l with last := finding, since := 0, undet := false, fault := if latches then finding else l.fault }, latches)

/-- OPEN, SHORT or neither (R910): the column's level is compared with LMP_SHORT_V. DEDUCED: assumption 92. -/
def LampCfg.findingOf (c : LampCfg) (q : LampSense) : Nat :=
  if q.outOfCompliance then 1 else if Nat.blt c.shortV q.mV then 2 else 0

/-- LMP_ICOL of lamp n's column. -/
def LampCfg.current (c : LampCfg) (n : Nat) : Nat := c.icol.getD (n % 16) 0

/-- The gap between a lamp's pulse and its probe, in steps (R911). -/
def probeGap : Nat := 20

/-- One lamp in its row window. -/
def State.lampPulse (s : State) (n : Fin 256) (q : LampSense) : State :=
  let x := s.lmp
  let l := x.lamps[n]
  let drive := x.drive (s.pN P.LMP_DIM) n.1
  let a := l.acc + drive * x.cfg.window
  let on := if l.fault = 2 then 0 else a / 65536
  let probe := x.probes n.1 drive l
  let l := { l with acc := a % 65536 }
  let s := if on = 0 then s else s.emit (.lamp n (x.cfg.current n.1) on)
  let s := if probe then s.emit (.lampProbe n (x.cfg.current n.1) (on + probeGap)) else s
  if 30 ≤ on ∨ probe = true then
    let (l, latches) := l.evaluate (x.cfg.findingOf q)
    let s := s.modLmp (fun x => { x with
      lamps := vset x.lamps n l, faults := if latches then inc 32 x.faults else x.faults })
    if latches then s.log 0x25 (x.cfg.findingOf q) clsInfo n.1 [] else s
  else s.modLmp (fun x => { x with lamps := vset x.lamps n { l with since := l.since + 1 } })

/-- LAMP_ROW_PERIOD (R903, R906, R908, R910): the next row of the scan frame. DEDUCED: assumption 92. -/
def execLampRowPeriod (senses : Vector LampSense 16) (s : State) : Res :=
  let x := s.lmp
  if x.run = false ∨ 16 ≤ x.row then .next s
  else
    let s := match x.back with
      | some b => if x.cfg.rowblank then s.modLmp (fun x => { x with front := b, back := none }) else s
      | none => s
    let s := s.emit (.lampRow (Fin.ofNat 16 x.row) (!s.pB P.LMP_ROW_POL) x.cfg.blankSteps x.cfg.window)
    let s := (allFin 16).foldl (fun s k => s.lampPulse (Fin.ofNat 256 (16 * x.row + k.1)) senses[k]) s
    .next (s.modLmp (fun x => { x with row := x.row + 1 }))

/-- LAMP_UNDETERMINED (R912). -/
def execLampUndetermined (n : Fin 256) (s : State) : Res :=
  let l := s.lmp.lamps[n]
  if s.lmp.run = true ∧ s.lmp.code n.1 ≠ 0 ∧ 64 ≤ l.since then
    .next (s.modLmp (fun x => { x with lamps := vset x.lamps n { l with undet := true } }))
  else .next s

/-! ## Writes and reports -/

/-- An accepted write of LMP_LEVELS (R907, R908). DEDUCED: assumption 92. -/
def State.lampLevels (s : State) (v : Bytes) : State := s.modLmp (fun x => { x with back := some v })

/-- An accepted write of LMP_FLTCLR (R914). DEDUCED: assumption 92. -/
def State.lampClear (s : State) (mask : Bytes) : State :=
  s.modLmp (fun x => { x with lamps := Vector.ofFn (fun n =>
    let l := x.lamps[n]
    if bit (u8 mask (n.1 / 8)) (n.1 % 8) then { l with fault := 0, last := 0 } else l) })

/-- The matrix stops: a reset, or a block reset (R909; 17 R799). Latched faults survive (R914). -/
def Lmp.stop (x : Lmp) : Lmp := { x with run := false, row := 16, frame := 0, cfg := LampCfg.reset }

/-- LMP_FAULTS: a latched fault is shown before UNDETERMINED. -/
def Lmp.faultBytes (x : Lmp) : Bytes :=
  let code (n : Nat) : Nat :=
    let l := x.lamps[Fin.ofNat 256 n]
    if l.fault != 0 then l.fault else if l.undet then 3 else 0
  (List.range 64).map (fun k => byteOf (code (4 * k) + 4 * code (4 * k + 1) + 16 * code (4 * k + 2) + 64 * code (4 * k + 3)))

end Sys2Proof.Machine
end

