-- ==== Sys2Proof/Machine/Ptp.lean ====
section
/-! DEFINITION. The PTP ordinary clock: master selection, offset, path delay, lock, holdover (04 R216 to R225). -/

namespace Sys2Proof.Machine

/-- Message types of IEEE 1588. -/
def ptpTypeSync : Nat := 0
def ptpTypeFollowUp : Nat := 8
def ptpTypeDelayResp : Nat := 9
def ptpTypeAnnounce : Nat := 11

/-- A PTP message of one of some types, on its port (R216). -/
def isPtpOf (types : List Nat) : Payload → Bool
  | .ptp port ip d => types.contains (u8 d 0 % 16) && ptpServed (.ptp port ip d)
  | _ => false

/-- Source port identity, sequence and correction (ns) of a message. -/
def ptpSource (d : Bytes) : Nat := natBE (slice d 20 10)
def ptpSeq (d : Bytes) : Nat := be16 d 30
def ptpCorrection (d : Bytes) : Int := toSigned 64 (be64 d 8) / 65536
def ptpLogInt (d : Bytes) : Int := toSigned 8 (u8 d 33)
/-- The timestamp of a message's body, ns. -/
def ptpStamp (d : Bytes) : Int := natBE (slice d 34 6) * 1000000000 + be32 d 40

/-- An interval of 2^k s, ns. -/
def intervalNs (k : Int) : Nat := if k < 0 then 1000000000 / 2 ^ (-k).toNat else 1000000000 * 2 ^ (min k 30).toNat

/-- Is a message for this clock: an enabled port, and the domain (R217, R219)? -/
def State.ptpAccepts (s : State) (p : PortIx) (d : Bytes) : Bool :=
  bit (s.pN P.ETH_PTP_PORTS) p.1 && u8 d 4 == s.pN P.ETH_PTP_DOMAIN && u8 d 1 % 16 == 2

/-- PTP time at an instant of the device's clock. -/
def Ptp.time (x : Ptp) (t : Nat) : Int :=
  (t : Int) + x.ahead + (if x.state = .holdover then x.freq * ((t - x.holdAt : Nat) : Int) / 1000000000 else 0)

/-- Bring the drift of a holdover into the offset. -/
def Ptp.settle (x : Ptp) (t : Nat) : Ptp := { x with ahead := x.time t - t, holdAt := t }

/-- The announce receipt timeout, in announce intervals. -/
def announceTimeout : Nat := 3
/-- The foreign master window, in announce intervals. -/
def foreignWindow : Nat := 4

/-- Is a master qualified: heard twice in the window, and not timed out? PRESUMED: assumption 28. -/
def Master.qualified (m : Master) (t : Nat) : Bool :=
  let i := intervalNs m.logInt
  decide (2 ≤ (m.heard.filter (fun h => decide (t ≤ h + foreignWindow * i))).length) && decide (m.steps < 255) &&
    (m.heard.any (fun h => decide (t < h + announceTimeout * i)))

/-- The order of the best master clock algorithm: dataset, grandmaster, steps, sender, port. PRESUMED: assumption 28. -/
def Master.key (m : Master) : Nat :=
  ((m.rank * 2 ^ 64 + m.gm) * 2 ^ 16 + m.steps) * 2 ^ 81 + m.source * 2 + m.p.1

/-- The best qualified master. PRESUMED: assumption 28. -/
def bestMaster (l : List Master) (t : Nat) : Option Master :=
  (l.filter (·.qualified t)).foldl (fun b m => match b with
    | none => some m
    | some n => if m.key < n.key then some m else some n) none

/-- Follow a master from an instant on (R219): another port of the same grandmaster keeps the servo's state. PRESUMED:
assumption 28. -/
def Ptp.follow (x : Ptp) (m : Master) (now : Nat) : Ptp :=
  if x.sel = some (m.p, m.source) then { x with gm := m.gm }
  else
    let same := x.sel.isSome && x.gm == m.gm
    { x with sel := some (m.p, m.source), gm := m.gm, waiting := none, syncAt := now, measAt := none
             state := if same then x.state else .uncalibrated
             good := if same then x.good else 0
             bad := if same then x.bad else 0 }

/-- PTP_ANNOUNCE (R219). -/
def execPtpAnnounce (t : Nat) (p : PortIx) (s : State) : Res :=
  let s := s.atTime t
  match s.takeFrame p (isPtpOf [ptpTypeAnnounce]) with
  | some (.ptp _ ip d, s) =>
    if s.ptpAccepts p d = false ∨ d.length < 64 then .next s
    else
      let src := ptpSource d
      let rank := natBE (slice d 47 6)
      let old := s.ptp.masters.find? (fun m => m.p == p && m.source == src)
      let heard := s.now :: ((old.map (·.heard)).getD []).take 3
      let m : Master := ⟨p, src, ip, natBE (slice d 53 8), rank, be16 d 61, ptpLogInt d, heard⟩
      let ms := m :: s.ptp.masters.filter (fun n => !(n.p == p && n.source == src))
      let x := { s.ptp with masters := ms }.settle s.now
      .next { s with ptp := match bestMaster ms s.now with
        | none => x
        | some b => x.follow b s.now }
  | _ => .next s

/-- A measured offset steers the clock (R220, R222). -/
def Ptp.servo (x : Ptp) (now : Nat) (offset lockNs stepNs : Int) : Ptp :=
  let mag := if offset < 0 then -offset else offset
  let good := if mag ≤ lockNs then x.good + 1 else 0
  let bad := if mag > 4 * lockNs then x.bad + 1 else 0
  let state := if 16 ≤ good then PtpState.slave else if 4 ≤ bad then .uncalibrated
    else if x.state = .slave then .slave else .uncalibrated
  let dt : Int := match x.measAt with
    | none => intervalNs x.syncLog
    | some a => (now - a : Nat)
  let limit := dt * 50 / 1000000
  let adj := if mag ≤ stepNs then clampI (-limit) limit (-offset) else -offset
  let freq := if dt = 0 ∨ mag > stepNs then x.freq else adj * 1000000000 / dt
  { x with
    offset := clampI (-2147483648) 2147483647 offset
    good := good
    bad := bad
    state := state
    ahead := x.ahead + adj
    freq := freq
    freqLog := if state = .slave then (now, freq) :: x.freqLog.filter (fun e => decide (now < e.1 + 64000000000)) else x.freqLog
    measAt := some now }

/-- A Sync and its Follow_Up are complete: offset, servo, and the Delay_Req that follows (R217, R218). -/
def State.ptpMeasure (s : State) (p : PortIx) (origin rx corr : Int) (logInt : Int) (ip : Nat) : State :=
  let x := { s.ptp with t1 := origin + corr, t2 := rx, syncLog := logInt, waiting := none, reqSeq := (s.ptp.reqSeq + 1) % 65536 }
  let offset := rx + x.ahead - (origin + corr) - x.meanDelay - s.pI P.ETH_PTP_ASYM p.1
  let x := x.servo s.now offset (s.pI P.ETH_PTP_LOCK_NS) (s.pI P.ETH_PTP_STEP_NS)
  let uni := s.pN P.ETH_PTP_DELAYMODE == 1
  -- a unicast Delay_Req to a master that no gateway reaches is dropped (R185)
  if uni && !s.reachable (.eth p) ip then { s with ptp := x }
  else { s with ptp := x }.emit (.delayReq p x.reqSeq (if uni then ip else 0))

/-- A timestamp of PLL_TIM: its resolution is 10 ns while PLL_TIM is unlocked (18 Table 18-3). -/
def State.stamp (s : State) (v : Int) : Int := if s.clockLost 18 then v / 10 * 10 else v

/-- PTP_SYNC: a Sync of the selected master, or the Follow_Up that completes it; `rx` is the Sync's receive time on the
device's clock. -/
def execPtpSync (t : Nat) (p : PortIx) (rx : Int) (s : State) : Res :=
  let s := s.atTime t
  let rx := s.stamp rx
  match s.takeFrame p (isPtpOf [ptpTypeSync, ptpTypeFollowUp]) with
  | some (.ptp _ ip d, s) =>
    if s.ptpAccepts p d = false ∨ d.length < 44 ∨ s.ptp.sel ≠ some (p, ptpSource d) then .next s
    else if u8 d 0 % 16 = ptpTypeSync then
      let s := { s with ptp := { s.ptp with syncAt := s.now } }
      if bit (u8 d 6) 1 then
        .next { s with ptp := { s.ptp with waiting := some (ptpSeq d, rx, ptpCorrection d), syncLog := ptpLogInt d } }
      else .next (s.ptpMeasure p (ptpStamp d) rx (ptpCorrection d) (ptpLogInt d) ip)
    else match s.ptp.waiting with
      | some (q, rx0, c0) =>
        if q = ptpSeq d then .next (s.ptpMeasure p (ptpStamp d) rx0 (c0 + ptpCorrection d) s.ptp.syncLog ip) else .next s
      | none => .next s
  | _ => .next s

/-- PTP_DELAY_RESP (R217): the mean path delay; `tx` is the Delay_Req's transmit time on the device's clock. -/
def execPtpDelayResp (t : Nat) (p : PortIx) (tx : Int) (s : State) : Res :=
  let s := s.atTime t
  match s.takeFrame p (isPtpOf [ptpTypeDelayResp]) with
  | some (.ptp _ _ d, s) =>
    if s.ptpAccepts p d = false ∨ d.length < 54 ∨ s.ptp.sel ≠ some (p, ptpSource d) ∨ ptpSeq d ≠ s.ptp.reqSeq ∨
        natBE (slice d 44 10) ≠ (Config.ptpIdentity p).toNat then .next s
    else
      let m := ((s.ptp.t2 - s.ptp.t1) + (ptpStamp d - s.stamp tx - ptpCorrection d)) / 2
      .next { s with ptp := { s.ptp with meanDelay := (clampI 0 4294967295 m).toNat } }
  | _ => .next s

/-- PTP_HOLDOVER (R219, R221): the selected master is lost; another qualified one is followed, or the clock holds. -/
def execPtpHoldover (t : Nat) (s : State) : Res :=
  let s := s.atTime t
  match s.ptp.sel with
  | none => .next s
  | some (p, src) =>
    let cur := s.ptp.masters.find? (fun m => m.p == p && m.source == src)
    let annLost : Bool := match cur with
      | none => true
      | some m => m.heard.all (fun h => decide (h + announceTimeout * intervalNs m.logInt ≤ s.now))
    let syncLost := decide (s.ptp.syncAt + 8 * intervalNs s.ptp.syncLog ≤ s.now)
    if (annLost || syncLost) = true then
      let rest := s.ptp.masters.filter (fun m => !(m.p == p && m.source == src))
      match bestMaster rest s.now with
      | some m => .next { s with ptp := { s.ptp with masters := rest }.follow m s.now }
      | none =>
        let log := s.ptp.freqLog
        let avg := if log.isEmpty then s.ptp.freq else truncDiv (log.foldl (fun a e => a + e.2) 0) log.length
        .next { s with ptp := { s.ptp with masters := rest, sel := none, state := .holdover, holdAt := s.now, holdSince := s.now,
                                           freq := avg, good := 0, bad := 0, waiting := none, measAt := none } }
    else .next s

/-- ETH_PTP_STATE codes. -/
def ptpStateCode : PtpState → Nat
  | .listening => 0
  | .uncalibrated => 1
  | .slave => 2
  | .holdover => 3
  | .faulty => 4

end Sys2Proof.Machine
end

