-- ==== Sys2Proof/Machine/Plane.lean ====
section
/-! DEFINITION. Plane heads: field codes, slices, the plane timeline and the plane link (09 R458 to R503; 11 R542; 13 R646 to
R650, R663). -/

namespace Sys2Proof.Machine

/-! ## Field codes (R459 to R469; 08 R446) -/

/-- The canvas of a head as composed so far, with rows outside [lo, hi) reading 0 (R462, R463). -/
structure Band where
  canvas : Array (Array Px)
  lo : Int
  hi : Int

def Px.black : Px := ⟨0, 0, 0⟩

/-- A canvas pixel, whatever the band holds (R464). -/
def Band.pixel (c : Band) (x y : Nat) : Px := (c.canvas.getD y #[]).getD x Px.black

def Band.px (c : Band) (x y : Int) : Px :=
  if x < 0 ∨ y < 0 ∨ y < c.lo ∨ c.hi ≤ y then Px.black else ((c.canvas.getD y.toNat #[]).getD x.toNat Px.black)

/-- The bilinear sample at (U, V) in S12.19 (R462). -/
def Band.sample (c : Band) (u v : Int) : Px :=
  let cx := u / 2 ^ 19
  let cy := v / 2 ^ 19
  let fu := ((u / 2 ^ 11) % 256).toNat
  let fv := ((v / 2 ^ 11) % 256).toNat
  let a := c.px cx cy
  let b := c.px (cx + 1) cy
  let d := c.px cx (cy + 1)
  let e := c.px (cx + 1) (cy + 1)
  let mix (f : Px → Nat) : Nat :=
    ((256 - fu) * (256 - fv) * f a + fu * (256 - fv) * f b + (256 - fu) * fv * f d + fu * fv * f e + 32768) / 65536
  ⟨mix (·.r), mix (·.g), mix (·.b)⟩

/-- The drive of group g at a working-space value (08 R446). -/
def Solve.drive (x : Solve) (g : Nat) (p : Px) : Nat :=
  min ((x.m.getD (3 * g) 0 * p.r + x.m.getD (3 * g + 1) 0 * p.g + x.m.getD (3 * g + 2) 0 * p.b + 2 ^ 18) / 2 ^ 19) 65535

/-- Field value and field code (R467, R468). -/
def fieldValue (drive gain : Nat) : Nat := min ((drive * gain + 1024) / 2048) 1048575
def fieldCode (v d n : Nat) : Nat := min ((v + d) / 2 ^ (20 - n)) (2 ^ n - 1)

/-- The dither of a field at a pixel (R468, R469). -/
def ditherAt (en : Bool) (mask : Nat → Bytes) (number h f n x y : Nat) : Nat :=
  let q := 20 - n
  if en then
    let m := u8 (mask ((number + 5 * h + 3 * f) % 16)) (64 * (y % 64) + (x + 17 * h) % 64)
    (2 * m + 1) * 2 ^ q / 512
  else 2 ^ (q - 1)

/-- The field codes of the pixels of one array row: for each used field its codes from column 0 on. -/
def State.rowCodes (s : State) (h : HeadIx) (c : Band) (solve : Solve) (y : Nat) : List (List Nat) :=
  let b := s.par.active
  let k := s.pN P.PLN_MESH_STEP h.1
  let cols := s.pN P.PLN_COLS h.1
  let en := s.pB P.PLN_DITHER_EN h.1
  let number := (s.head[h]).number
  let mask (p : Nat) : Bytes := s.pT P.PLN_DITHER p
  let my := ceilDiv (s.pN P.PLN_ROWS h.1) 4
  let win := s.windowOf h
  let m := mapsOf b h.1
  let warped (x : Nat) : Px := c.sample (meshAt (s.meshNode m 0) k x y) (meshAt (s.meshNode m 4) k x y)
  let px := (List.range cols).map (fun x =>
    match win with
    | some w => if inWindow w x y then c.pixel x y else warped x
    | none => warped x)
  (fieldsOf b h.1).map (fun (f, g, n) =>
    let rank := ((groupsOf b h.1).findIdx? (· == g)).getD 0
    (px.zip (List.range cols)).map (fun (p, x) =>
      let v := fieldValue (solve.drive g p) (gainAt (s.cellGain m rank) m.mx my x y)
      fieldCode v (ditherAt en mask number h.1 f n x y) n))

/-- Eight columns of a plane: column 8m + t in bit 7 - t (R483). -/
def packPlane (codes : List Nat) (i : Nat) : Byte :=
  byteOf ((List.range 8).foldl (fun a t => a + (if bit (codes.getD t 0) i then 2 ^ (7 - t) else 0)) 0)

/-- One row of a plane. -/
def planeRow (codes : List Nat) (i : Nat) : Bytes := (chunks 8 codes.length codes).map (fun c => packPlane c i)

/-- The canvas rows a stripe's band holds (R463): up to 48 rows and an interpolated one beyond its span. DESIGN CHOICE:
assumption 52. -/
def State.stripeSpan (s : State) (h : HeadIx) (stripe : Nat) : Int × Nat :=
  let r := s.pN P.PLN_ROWS h.1
  let ch := s.canvasH h
  ((16 * stripe * ch / r : Nat) - 49, min ch (ceilDiv (16 * (stripe + 1) * ch) r + 50))

/-- The canvas rows that are composed before a stripe is rendered: its band, and its own rows of the legal window (R464). -/
def State.stripeNeeds (s : State) (h : HeadIx) (stripe : Nat) : Nat :=
  let hi := (s.stripeSpan h stripe).2
  match s.windowOf h with
  | some w => if w.y < 16 * (stripe + 1) ∧ 16 * stripe < w.y + w.rh * w.zoom then
      max hi (min (s.canvasH h) (min (16 * (stripe + 1)) (w.y + w.rh * w.zoom))) else hi
  | none => hi

/-- The flagged words that rendering the rows y to y + n - 1 reads from the mesh and the map (05 R273). DESIGN CHOICE:
assumption 37. -/
def State.stripeFlags (s : State) (h : HeadIx) (y n : Nat) : Fin 2 × List Nat :=
  let b := s.par.active
  let m := mapsOf b h.1
  let size := 2 ^ bkN b P.PLN_MESH_STEP h.1
  let j0 := y / size
  let j1 := (y + n - 1) / size + 1
  let my := ceilDiv (bkN b P.PLN_ROWS h.1) 4
  let cell (v : Nat) : Nat := (clampI 0 ((my : Int) - 2) ((2 * (v : Int) - 3) / 8)).toNat
  let c0 := cell y
  let c1 := cell (y + n - 1) + 1
  (m.x, s.flaggedIn m.x [m.nodes (j0 * m.nx) ((j1 + 1 - j0) * m.nx), m.cells (c0 * m.mx) ((c1 + 1 - c0) * m.mx)])

/-! ## The plane store (R482 to R484) -/

/-- Where a slice stands: buffer, stripe, plane; the order of slices in the store is the device's own. DESIGN CHOICE:
assumption 52. -/
def State.sliceAt (s : State) (h : HeadIx) (frame stripe plane : Nat) : Nat :=
  let b := s.par.active
  let base := match assocGet h.1 s.surf.extra with
    | some (o, _) => o
    | none => 0
  base + (((frame % 3) * stripesOf b h.1 + stripe) * headPlanes b h.1 + plane) * sliceBytes b h.1

/-- The number of the plane of field f, bit i, among the head's planes. -/
def planeNo (b : Bank) (h f i : Nat) : Nat :=
  (fieldsOf b h).foldl (fun a (g, _, n) => if g < f then a + n else a) 0 + i

/-- Write the slices of a stripe (R483): 16 rows, those beyond the array 0, and the CRC-32 over the rows within it. -/
def State.writeStripe (s : State) (h : HeadIx) (stripe : Nat) (rows : List (List (List Nat))) : State :=
  let b := s.par.active
  let frame := (s.head[h]).frames
  let rowLen := s.pN P.PLN_COLS h.1 / 8
  let fields := fieldsOf b h.1
  ((List.range fields.length).zip fields).foldl (fun s (fi, f, _, n) =>
    (List.range n).foldl (fun s i =>
      let data := rows.flatMap (fun r => planeRow (r.getD fi []) i)
      let body := data ++ zeros ((16 - rows.length) * rowLen) ++ toLE 4 (crc32 data)
      s.writeMem true (s.sliceAt h frame stripe (planeNo b h.1 f i)) body .pitch) s) s

/-- The field codes of a stripe go into the buffer of the stripe store that is not being corner-turned (R482). -/
def Pln.store (p : Pln) (x : StripeBuf) : Pln :=
  { p with stripes := vset p.stripes (if p.second then 1 else 0) (some x), second := !p.second }

/-- STRIPE_RENDERED (R482, R483; 13 R662, R663). DEDUCED: assumption 54. -/
def execStripeRendered (h : HeadIx) (stripe : Nat) (rope : RopeIx) (shadowOk : Bool) (s : State) : Res :=
  let b := s.par.active
  let frames := (s.head[h]).frames
  let ix : Fin 3 := Fin.ofNat 3 frames
  let buf := (s.pln[h]).bufs[ix]
  let (lo, hi) := s.stripeSpan h stripe
  let canvas := (s.comp[h]).canvas
  if !s.running h || !s.isPlane h || !Nat.blt stripe (stripesOf b h.1) || buf.done.contains stripe || buf.frame != frames ||
      Nat.blt canvas.length (s.stripeNeeds h stripe) || s.entryBare 0 h.1 || s.flt.failed[rope] then .next s
  else if !shadowOk then
    .next ((s.modHead h (fun x => { x with shadowErr := inc 32 x.shadowErr })).ropeFail rope .shadow)
  else
    let band : Band := ⟨(canvas.map List.toArray).toArray, lo, hi⟩
    let n := min 16 (s.pN P.PLN_ROWS h.1 - 16 * stripe)
    let rows := match (s.col[h]).cur with
      | some x => (List.range n).map (fun k => s.rowCodes h band x (16 * stripe + k))
      | none => (List.range n).map (fun _ => (fieldsOf b h.1).map (fun _ => List.replicate (s.pN P.PLN_COLS h.1) 0))
    let (x, flagged) := s.stripeFlags h (16 * stripe) n
    let s := (s.qdrFlagged x flagged .pitch).modPln h (fun p => p.store ⟨frames, stripe, rows⟩)
    let s := s.writeStripe h stripe rows
    let s := s.modPln h (fun p => { p with bufs := vmod p.bufs ix (fun x => { x with done := stripe :: x.done }) })
    if buf.done.length + 1 = stripesOf b h.1 then .next (s.frameDone h) else .next s

/-! ## The timeline (R472 to R481, R485, R486; 13 R647 to R650) -/

/-- Is a stripe of a head frame complete in the plane store? -/
def Pln.complete (p : Pln) (frame stripe : Nat) : Bool :=
  let x := p.bufs[Fin.ofNat 3 frame]
  x.frame == frame && x.done.contains stripe

/-- The source of each stripe for a field of the head frame that loads (R485). -/
def Pln.choose (p : Pln) (stripes : Nat) : List (Option Nat) :=
  (List.range stripes).map (fun j =>
    if p.complete p.loading.frame j then some p.loading.frame
    else if 0 < p.loading.frame && p.complete (p.loading.frame - 1) j then some (p.loading.frame - 1)
    else none)

/-- The fields of a schedule in the order of their first slots. -/
def fieldOrder (slots : List Slot) : List Nat :=
  slots.foldl (fun acc x => if x.dark || acc.contains x.field then acc else acc ++ [x.field]) []

/-- The instant of the boundary of the slot shown, ps; before one, when the head frame that loads began. -/
def Pln.boundaryPs (p : Pln) : Nat := if p.slot.isSome then 1000 * p.shown.t0 + p.sigmaPs else 1000 * p.loading.t0

/-- Begin the loads of a slot of the head frame that loads (R481, R485, R486): at the first slot of a field the frame source is
chosen; at the last field an underrun of that head frame shows. DEDUCED: assumption 53. -/
def State.beginLoads (s : State) (h : HeadIx) (q : Nat) : State :=
  let p := s.pln[h]
  let slots := slotsOf p.loading.sched
  let x := slots.getD q ⟨true, 0, 0, 0⟩
  let s := s.modPln h (fun p => { p with loadSlot := some q, loadBlk := 0, darkNext := false, crc := 0xFFFFFFFF#32, strobes := [] })
  if x.dark || p.src.any (fun e => e.1 == x.field) then s
  else
    let src := p.choose (stripesOf s.par.active h.1)
    let s := s.modPln h (fun p => { p with src := (x.field, src) :: p.src })
    if (fieldOrder slots).getLast? == some x.field && src.any (fun e => e != some p.loading.frame) then
      let s := s.modPln h (fun p => { p with underruns := inc 32 p.underruns })
      (s.modHead h (fun y => { y with underNow := y.underNow || y.frames == p.loading.frame })).underrunEvent h p.boundaryPs
    else s

/-- Begin the loads of slot 0 of the running head frame, Δ after L0 (R471, R480, R648). -/
def State.beginFrame (s : State) (h : HeadIx) (deltaPs : Nat) : State :=
  let b := s.par.active
  let s := s.modPln h (fun p => { p with
    loading := p.coming, waiting := false, begun := true, src := [], logged := false
    lambdaPs := 420000000 + 2500 * tCycle b h.1 + deltaPs })
  s.beginLoads h 0

def State.syncMode (s : State) (h : HeadIx) : Bool := s.pN P.PLN_RDY_MODE h.1 == 1

/-- The loads of a head frame begin at a SYNC_IN edge (R648, R650). -/
def State.syncLoad (s : State) (h : HeadIx) (deltaPs : Nat) : State :=
  (s.modHead h (fun x => { x with syncDelta := deltaPs / 1000, syncAt := true, syncRun := 0 })).beginFrame h deltaPs

/-- PLANE_LOAD_START (R481, R496; 13 R648): at L0. -/
def execPlaneLoadStart (h : HeadIx) (s : State) : Res :=
  let x := s.head[h]
  let p := s.pln[h]
  if !x.on || !s.isPlane h || p.begun || p.waiting || x.rdyWait || x.frames = 0 then .next s
  else if s.syncMode h then
    if x.syncEdge then .next (s.syncLoad h 0) else .next (s.modPln h (fun p => { p with waiting := true }))
  else .next (s.beginFrame h 0)

/-- SYNC_IN_EDGE (13 R646, R648; 09 R497, R499), `dt` ns after the head frame began. -/
def execSyncInEdge (h : HeadIx) (dt : Nat) (s : State) : Res :=
  let x := s.head[h]
  if !s.isPlane h || !s.syncMode h then .next s
  else
    let s := s.modHead h (fun x => { x with rdyWait := false, starting := false })
    if !x.on then .next s
    else if dt ≤ 420000 then .next (s.modHead h (fun x => { x with syncEdge := true }))
    else if (s.pln[h]).waiting && Nat.ble (1000 * (dt - 420000)) (syncSlackPs s.par.active h.1) then
      .next (s.syncLoad h (1000 * (dt - 420000)))
    else .next s

/-- SYNC_MISS (13 R648, R650): one entry after 16 in a row, and none until a head frame has again been loaded at an edge.
DEDUCED: assumption 53. -/
def execSyncMiss (h : HeadIx) (s : State) : Res :=
  if !(s.pln[h]).waiting then .next s
  else
    let s := s.modHead h (fun x => { x with
      syncMiss := inc 32 x.syncMiss, syncRun := x.syncRun + 1, syncAt := false, syncDelta := 0xFFFFFFFF })
    let s := if (s.head[h]).syncRun = 16 then s.log (0x18 + h.1) 3 clsInfo h.1 [] else s
    .next (s.beginFrame h (syncSlackPs s.par.active h.1))

/-- PLh_STB rises for each block that a PHASE_STROBE has named, b * PLN_TPHASE after the slot boundary (R474, R493). DEDUCED:
assumption 53. -/
def State.strobeSlot (s : State) (h : HeadIx) : State :=
  let p := s.pln[h]
  let phase := s.pN P.PLN_TPHASE h.1
  let s := p.strobes.foldl (fun s b => s.emit (.strobe h b (some (p.sigmaPs / 2500 + b * phase)))) s
  s.modPln h (fun p => { p with strobes := [] })

/-- PLANE_SLOT_BOUNDARY (R474, R481, R493; 13 SOB): the loaded slot is strobed and shown, and the loads of the next one
begin. -/
def execPlaneSlotBoundary (h : HeadIx) (s : State) : Res :=
  let b := s.par.active
  let p := s.pln[h]
  match p.loadSlot with
  | none => .next s
  | some q =>
    if !s.running h || Nat.blt p.loadBlk (s.pN P.PLN_BLOCKS h.1) then .next s
    else
      let prev := (usesOf b h.1 p.shown.sched (2 ^ 31)).getD (p.slot.getD 0) ⟨⟨true, 0, 0, 0⟩, 0, 0, 0, 0⟩
      let s := s.modPln h (fun p =>
        let p := if q = 0 then { p with shown := p.loading, sigmaPs := p.lambdaPs }
          else { p with sigmaPs := p.sigmaPs + 2500 * prev.d }
        { p with slot := some q, emitted := false, dark := p.darkNext, loadSlot := none })
      let s := s.strobeSlot h
      -- a loss of PLh_RDY blanks the head from here (R500)
      let s := if (s.pln[h]).losing then
          ((s.modHead h (fun x => { x with wait := true })).modPln h (fun p => { p with losing := false })).settle
        else s
      if q + 1 = (slotsOf p.loading.sched).length then
        .next ((s.modHead h (fun x => { x with sobNs := (s.pln[h]).sigmaPs / 1000 })).headEvent h evSob (s.pln[h]).boundaryPs)
      else .next (s.beginLoads h (q + 1))

/-! ## Loads (R490 to R492, R501, R502) -/

/-- A slice failed its check (R502). -/
def State.sliceFails (s : State) (h : HeadIx) : State :=
  let first := !(s.pln[h]).logged
  let s := s.modPln h (fun p => { p with checkErr := inc 32 p.checkErr, darkNext := true, logged := true })
  if first then s.log (0x18 + h.1) 2 clsInfo h.1 [] else s

/-- Send one row of a plane: its bytes, with the running CRC of its slice; at the last row of the slice the check
(R501). -/
def State.sendRow (s : State) (h : HeadIx) (x : Slot) (y : Nat) : State × Bytes :=
  let b := s.par.active
  let rowLen := s.pN P.PLN_COLS h.1 / 8
  let stripe := y / 16
  let src := ((((s.pln[h]).src.find? (fun e => e.1 == x.field)).map (·.2)).getD []).getD stripe none
  match src with
  | none => (s, zeros rowLen)
  | some frame =>
    let at_ := s.sliceAt h frame stripe (planeNo b h.1 x.field x.bit)
    let (s, d, _) := s.readMem true (at_ + (y % 16) * rowLen) rowLen .pitch
    let reg := crc32Run (if y % 16 = 0 then 0xFFFFFFFF#32 else (s.pln[h]).crc) d
    let s := s.modPln h (fun p => { p with crc := reg })
    if y % 16 = 15 ∨ y + 1 = s.pN P.PLN_ROWS h.1 then
      let (s, c, _) := s.readMem true (at_ + 16 * rowLen) 4 .pitch
      (if natLE c = (~~~ reg).toNat then s else s.sliceFails h, d)
    else (s, d)

/-- The rows of a block as the link sends them, with the check of its slices. -/
def State.sendRows (s : State) (h : HeadIx) (x : Slot) (r0 n : Nat) : State × Bytes :=
  let (s, data) := (List.range n).foldl (fun (acc : State × List Bytes) k =>
    let (s, d) := acc.1.sendRow h x (r0 + k)
    (s, d :: acc.2)) (s, [])
  (s, data.reverse.flatten)

/-- PLANE_BLOCK_LOAD (R492): the next block of the slot being loaded; after the last one the link sends IDLE. DEDUCED:
assumption 53. -/
def execPlaneBlockLoad (h : HeadIx) (block : Nat) (s : State) : Res :=
  let b := s.par.active
  let p := s.pln[h]
  match p.loadSlot with
  | none => .next s
  | some q =>
    if block ≠ p.loadBlk ∨ s.pN P.PLN_BLOCKS h.1 ≤ block then .next s
    else
      let x := (slotsOf p.loading.sched).getD q ⟨true, 0, 0, 0⟩
      let s := if x.dark then (if block = 0 then s.sendControl h (arrayClear q) else s)
        else
          let r0 := blockRow b h.1 block
          let n := blockRow b h.1 (block + 1) - r0
          let (s, bytes) := (s.sendControl h (blockLoad block q r0 n)).sendRows h x r0 n
          s.sendData h (bytes ++ zeros (256 * blockBeats b h.1 block - bytes.length))
      let s := (s.sendPhase h block q).modPln h (fun p => { p with loadBlk := block + 1 })
      .next (if block + 1 = s.pN P.PLN_BLOCKS h.1 then s.sendIdle h else s)

/-! ## Emission (11 R542) -/

/-- The code of a channel in a slot (R542). -/
def slotCode (peak amp : Nat) : Nat := (peak * amp * 4095 + 2 ^ 29) / 2 ^ 30

/-- PLANE_SLOT_EMISSION (R475, R476; 11 R542): one pulse on each channel of the slot's group. -/
def execPlaneSlotEmission (h : HeadIx) (s : State) : Res :=
  let b := s.par.active
  let p := s.pln[h]
  match p.slot, p.shown.use with
  | some q, some use =>
    if p.emitted || !s.running h then .next s
    else
      let s := s.modPln h (fun p => { p with emitted := true })
      match (usesOf b h.1 p.shown.sched use.dt)[q]?, fieldOf b h.1 ((slotsOf p.shown.sched).getD q ⟨true, 0, 0, 0⟩).field with
      | some u, some (g, _) =>
        if u.slot.dark || p.dark || p.shown.blank then .next s
        else .next ((chansOf b h.1 g).foldl (fun s c =>
          match use.chan c.1 with
          | some cu => s.pulse c p.boundaryPs (slotCode cu.peak u.amp) (100 * tX b h.1) (100 * u.emit) ((calOf (bkT b P.COL_CAL c.1)).gain cu.range)
          | none => s) s)
      | _, _ => .next s
  | _, _ => .next s

/-! ## PLh_RDY (R496 to R500) -/

/-- PLH_RDY_ASSERT (R496, R497, R500): asserted for 1 us. A waiting head restarts at the next tick edge. -/
def execPlhRdyAssert (h : HeadIx) (s : State) : Res :=
  let s := s.modPln h (fun p => { p with rdy := true })
  if s.syncMode h then .next s else .next (s.modHead h (fun x => { x with rdyWait := false, starting := false }))

/-- PLH_RDY_START_TIMEOUT (R497): not asserted 4 ms after the first IDLE beat of a start; the link goes on with IDLE. -/
def execPlhRdyStartTimeout (h : HeadIx) (s : State) : Res :=
  let x := s.head[h]
  if x.on && s.isPlane h && x.starting && !x.late then
    let s := s.modHead h (fun x => { x with late := true, wait := true })
    .next ((s.modPln h (fun p => { p with rdyLoss := inc 32 p.rdyLoss })).settle.log (0x18 + h.1) 5 clsHead h.1 [])
  else .next s

/-- PLH_RDY_LOSS (R500): deasserted for more than 1 us while the head runs, in READY mode. -/
def execPlhRdyLoss (h : HeadIx) (s : State) : Res :=
  let s := s.modPln h (fun p => { p with rdy := false })
  if (s.head[h]).on && s.isPlane h && !s.syncMode h && !(s.head[h]).rdyWait then
    let s := s.modPln h (fun p => { p with losing := true, rdyLoss := inc 32 p.rdyLoss })
    .next ((s.modHead h (fun x => { x with rdyWait := true })).log (0x18 + h.1) 1 clsHead h.1 [])
  else .next s

/-! ## Reports -/

/-- PLN_TIMING (Table 9-6). -/
def planeTiming (b : Bank) (h : Nat) : Bytes :=
  if bkN b P.HDT_TYPE h ≠ typePlane then zeros 64
  else
    let duty (f : Nat) : Byte := match fieldOf b h f with
      | none => 0#8
      | some _ =>
        let (e, d) := dutyOf b h f
        byteOf (if d = 0 then 0 else min 255 (e * 256 / d))
    toLE 4 (tCycle b h) ++ toLE 4 (tX b h) ++ toLE 4 (tMin b h) ++ toLE 4 (168000 + tCycle b h) ++ toLE 4 (schedSum b h) ++
      (List.range 8).flatMap (fun f => toLE 4 (if (fieldOf b h f).isSome then unitOf b h f else 0)) ++ zeros 4 ++
      (List.range 8).map duty

/-- PLN_EFFECTIVE (Table 9-7): the effective schedule of the current head frame. -/
def State.planeEffective (s : State) (h : HeadIx) : Bytes :=
  let p := s.pln[h]
  match p.coming.use with
  | none => zeros 2052
  | some use =>
    let us := usesOf s.par.active h.1 p.coming.sched use.dt
    let body := us.flatMap (fun u => toLE 4 u.emit ++ toLE 2 u.amp ++ [byteOf u.j, byteOf (b2n u.slot.dark)])
    (toLE 2 us.length ++ zeros 2 ++ body ++ zeros 2048).take 2052

end Sys2Proof.Machine
end

