-- ==== Sys2Proof/Machine/Scan.lean ====
section
/-! DEFINITION. Scan heads: lines, samples, the probe turning points, failure, and the chips of touch (10 R509 to R537; 14
R668 to R671). -/

namespace Sys2Proof.Machine

/-! ## Lines (R508, R512, R515, R530) -/

/-- Rows that a completed active line j releases: those y with y + 2 below j * H_c / L_a - D_B (R530). -/
def rowsReleased (hc la band j : Nat) : Nat := ceilDiv (j * hc) la - (band / 2 - 4) - 2

/-- The running active line ends: rows are released; the last one ends the raster (R512, R530; 13 SOB). DEDUCED:
assumption 58. -/
def State.lineEnds (s : State) (h : HeadIx) (dt : Nat) : State :=
  let s := s.judgeSlow h
  let x := s.scn[h]
  match x.active with
  | none => s
  | some j =>
    let la := s.pN P.SCN_LINES_ACT h.1
    let hc := s.canvasH h
    if j + 1 = la then
      let s := s.modScn h (fun x => { x with active := none, released := hc, endAt := (s.head[h]).t0 + dt })
      let s := s.modTouch h (fun t => { t with
        acc := none, ready := t.ready ++ t.acc.toList.map (fun f => { f with ended := (s.head[h]).t0 + dt }) })
      (s.modHead h (fun y => { y with sobNs := dt })).headEvent h evSob (s.framePs h dt)
    else s.modScn h (fun x => { x with active := none, released := max x.released (rowsReleased hc la (s.pN P.SCN_BAND h.1) j) })

/-- Is the line that begins withheld because the rope that rendered it failed its shadow check (13 R663)? Which lines of
several ropes it rendered is free. DESIGN CHOICE: assumption 55. -/
def State.lineDark (s : State) (h : HeadIx) : State × Bool :=
  let mine := (allFin 34).filter (fun r => s.flt.share[r] == some (1, h.1))
  let bad := mine.filter (fun r => s.flt.waiting.any (fun f => f.rope == r))
  if bad.isEmpty then (s, false)
  else if bad.length = mine.length then (s, true)
  else (s.draw, Config.freeNat s.free % 2 == 1)

/-- SCAN_LINE_START (R508, R512, R515, R530, R531), `dt` ns after the head frame began. DEDUCED: assumption 58. -/
def execScanLineStart (h : HeadIx) (dt : Nat) (forward : Bool) (s : State) : Res :=
  if !s.isScan h then .next s
  else
    let t0 := (s.head[h]).t0
    let s := (s.atTime (t0 + dt)).lineEnds h dt
    let x := s.scn[h]
    let (s, dark) := s.lineDark h
    let drawn := s.running h && x.st == .locked && (s.head[h]).frames != 0 && Nat.blt x.begun (s.pN P.SCN_LINES_ACT h.1)
    let first := x.begun = 0
    let active := if drawn && (!first || Nat.ble 490000 dt) then some x.begun else none
    let s := s.modScn h (fun x => { x with
      amp := x.ampNow
      freq := x.freqNow
      phase := x.phaseNow
      watch := { x.watch with judged := false }
      bidir := s.pI P.SCN_BIDIR h.1
      emitted := 0
      chips := 0
      forward := forward
      lineAt := t0 + dt
      active := active
      begun := if active.isSome then x.begun + 1 else x.begun
      avail := x.written
      unreached := false
      dark := dark
      turn := if active.isNone && !first then (if forward then 1 else 2) else 0
      leadNs := if active == some 0 then dt else x.leadNs
      flyNs := if active == some 0 && x.endAt != 0 then t0 + dt - x.endAt else x.flyNs })
    let s := (boundTo s.par.active h.1).foldl (fun s c => s.modEm c (fun e => { e with pulseAt := none })) s
    .next (s.touchLit h)

/-! ## Instants and widths (R514 to R520) -/

/-- A over A_set, and f over f_set, at scale 2^160. -/
def State.ampRatio (s : State) (h : HeadIx) : Int := fxRat (s.scn[h]).amp (16384 * s.pN P.SCN_AMP_SET h.1)
def State.freqRatio (s : State) (h : HeadIx) : Int := fxRat (s.scn[h]).freq (1073741824 * s.pN P.SCN_FREQ h.1)

/-- u_i at scale 2^160 (R514). -/
def targetOf10 (b : Bank) (h i : Nat) : Int :=
  fxRat ((bkN b P.SCN_ACTIVE h : Int) * (2 * (i : Int) + 1 - bkN b P.SCN_SAMPLES h)) (65536 * bkN b P.SCN_SAMPLES h)

/-- r_i; none when it cannot be formed or |r_i| exceeds 0.98 (R515, R516). -/
def State.reach (s : State) (h : HeadIx) (i : Nat) : Option Int :=
  let a := s.ampRatio h
  let u := targetOf10 s.par.active h.1 i
  if a ≤ 0 ∨ 98 * a < 100 * (u.natAbs : Int) then none else some (fxDiv u a)

/-- The fast axis turns 25 ps steps into turns: steps per turn at the latched frequency, times 2^160. -/
def State.stepsPerTurn (s : State) (h : HeadIx) : Int :=
  fxRat (40000000000000 * 1073741824) (s.scn[h]).freq

/-- The error of the computed instant, below 2 ps, in 25 ps steps at scale 2^160: a free value (R515). DESIGN CHOICE:
assumption 56. -/
def instantError (free : Nat) : Int := fxRat ((free % 3999 : Nat) - (1999 : Int)) 25000

/-- t_i in 25 ps steps after the turning point, at scale 2^160, with its error. DESIGN CHOICE: assumption 56. -/
def State.instant (s : State) (h : HeadIx) (r : Int) (free : Nat) : Int :=
  let q := fxArcsinTurns r
  let turns := if (s.scn[h]).forward then fxOne / 4 + q else fxOne / 4 - q
  fxMul turns (s.stepsPerTurn h) + instantError free

/-- κ_i, U1.15 (R518). -/
def State.dwell (s : State) (h : HeadIx) (r : Int) : Nat :=
  let k := fxMul (fxMul (s.freqRatio h) (s.ampRatio h)) (fxSqrt (fxOne - fxMul r r))
  (fxRoundI (32768 * min k fxOne)).toNat

/-- W_i (R519): D_t in U1.31. DESIGN CHOICE: assumption 57. -/
def widthCode (tau dt kappa : Nat) : Nat :=
  let den := max 1 kappa * 2 ^ 31 * 25 * fxOne
  (2 * dt * tau * 32768 * 8 + den) / (2 * den)

/-- δ and n_i (R519). -/
def dwellSteps (w number i j : Nat) : Nat := (w + 5 * (number + i + 3 * j) % 8) / 8

/-- L (R520): the instant, BIDIR and DELAY in 25 ps steps. -/
def startStep (t : Int) (forward : Bool) (bidir delay : Int) (n : Nat) : Int :=
  fxRoundI t + (if forward then bidir / 2 else -(bidir / 2)) + delay - ((n / 2 : Nat) : Int)

/-! ## Source position (R521 to R525) -/

/-- ρ(t) (R505, 12 R628) for a line j, at scale 2^160: the ramp, and the last tracking error of the slow slot. -/
def State.slowPos (s : State) (h : HeadIx) (j : Nat) (t : Int) (free : Nat) : Int :=
  let x := s.bly.slot[Fin.ofNat 128 (s.pN P.SCN_SLOW_SLOT h.1)]
  let f := profOf x.cfg.prof
  let err := (x.y : Int) * (2 ^ 130 : Nat) - flToInt (flOfBits binary64 x.pp) 160
  let step := flToInt f.step 160
  let drift := if step = 0 then toSigned 32 free * (2 ^ 160 : Nat) else fxDiv err step
  (j : Int) * fxOne + 2 * fxDiv t (s.stepsPerTurn h) - fxOne / 2 + drift

/-- Y (R521). -/
def gridRow (rho : Int) (j : Nat) : Int := clampI (256 * (j : Int) - 256) (256 * (j : Int) + 256) (fxRoundI (256 * rho))

/-- R461 with a grid row that may lie above row 0: the nodes above the mesh have no value in the spec. DESIGN CHOICE:
assumption 57. -/
def meshAtRow (node : Nat → Nat → Int) (above : Nat → Int) (k x : Nat) (y : Int) : Int :=
  if 0 ≤ y then meshAt node k x y.toNat
  else meshAt (fun i j => if j = 0 then above i else node i (j - 1)) k x (y + (2 ^ k : Nat)).toNat

/-- A band word: R, G and B fields, and LEGAL. -/
structure BandPx where
  px    : Px
  legal : Bool
  deriving DecidableEq, Repr

def bandPx (w : Nat) : BandPx := ⟨⟨w % 2 ^ 21, w / 2 ^ 21 % 2 ^ 21, w / 2 ^ 42 % 2 ^ 21⟩, bit w 63⟩

/-- The band ring's word for a canvas position; 0 outside the canvas. -/
def State.bandRead (s : State) (h : HeadIx) (x y : Int) : BandPx :=
  if x < 0 ∨ y < 0 ∨ (s.canvasW h : Int) ≤ x ∨ (s.canvasH h : Int) ≤ y then ⟨Px.black, false⟩
  else bandPx (natLE (s.qdrLoad (s.bandRing h).1 (s.bandAt h y.toNat + 8 * x.toNat) 8))

/-- The word of the band ring's interface that holds a canvas position, for those within the canvas. -/
def State.bandWord (s : State) (h : HeadIx) (x y : Int) : List Nat :=
  if x < 0 ∨ y < 0 ∨ (s.canvasW h : Int) ≤ x ∨ (s.canvasH h : Int) ≤ y then []
  else [s.bandAt h y.toNat / 8 + x.toNat]

/-- BICUBIC taps for a fraction of 256 (R524): c(-1), c0, c1, c2. -/
def cubicTaps (f : Nat) : List Int :=
  let t : Int := f
  let q (n : Int) : Int := divHalfUpI (4096 * n) 33554432
  let m := q (-(t * t * t) + 512 * t * t - 65536 * t)
  let p := q (-3 * t * t * t + 1024 * t * t + 65536 * t)
  let e := q (t * t * t - 256 * t * t)
  [m, 4096 - m - p - e, p, e]

def cubicPass (taps : List Int) (v : List Nat) : Nat :=
  (clampI 0 2097151 (((taps.zip v).foldl (fun a (c, x) => a + c * (x : Int)) 0 + 2048) / 4096)).toNat

def cubicPx (taps : List Int) (v : List Px) : Px :=
  ⟨cubicPass taps (v.map (·.r)), cubicPass taps (v.map (·.g)), cubicPass taps (v.map (·.b))⟩

/-- The band ring at (U, V) in S12.19: fields (R462, R524). -/
def State.bandSample (s : State) (h : HeadIx) (cubic : Bool) (u v : Int) : Px :=
  let cx := u / 2 ^ 19
  let cy := v / 2 ^ 19
  let fu := ((u / 2 ^ 11) % 256).toNat
  let fv := ((v / 2 ^ 11) % 256).toNat
  let at_ (i j : Int) : Px := (s.bandRead h (cx + i) (cy + j)).px
  if cubic then
    let row (j : Int) : Px := cubicPx (cubicTaps fu) [at_ (-1) j, at_ 0 j, at_ 1 j, at_ 2 j]
    cubicPx (cubicTaps fv) [row (-1), row 0, row 1, row 2]
  else
    let a := at_ 0 0
    let b := at_ 1 0
    let d := at_ 0 1
    let e := at_ 1 1
    let mix (f : Px → Nat) : Nat :=
      ((256 - fu) * (256 - fv) * f a + fu * (256 - fv) * f b + (256 - fu) * fv * f d + fu * fv * f e + 32768) / 65536
    ⟨mix (·.r), mix (·.g), mix (·.b)⟩

/-- The last canvas row that a sample at V needs. -/
def lastRow (cubic : Bool) (v : Int) (hc : Nat) : Int := min (v / 2 ^ 19 + (if cubic then 2 else 1)) ((hc : Int) - 1)

/-- Where a sample of the head takes its value from: the position of the mesh, or the window's pixel. -/
inductive Source where
  | window
  | at_ (u v : Int)
  deriving DecidableEq, Repr

/-- The source of sample i of line j at grid row Y, before the convergence offset. -/
def State.sourceOf (s : State) (h : HeadIx) (i j : Nat) (y : Int) (free : Nat) : Source :=
  let inWin := match s.windowOf h with
    | some w => inWindow w i j
    | none => false
  if inWin then .window
  else
    let k := s.pN P.SCN_MESH_STEP h.1 + 8
    let digit (n : Nat) : Int := toSigned 32 (free / 2 ^ (32 * n))
    let m := mapsOf s.par.active h.1
    .at_ (meshAtRow (s.meshNode m 0) (fun c => digit (c % 2)) k (256 * i) y)
      (meshAtRow (s.meshNode m 4) (fun c => digit (2 + c % 2)) k (256 * i) y)

/-- Convergence offset of a group (R523). -/
def State.convOf (s : State) (h : HeadIx) (g : Nat) : Int × Int :=
  let t := s.pT P.SCN_CONV h.1
  (sle16 t (4 * g) * 2048, sle16 t (4 * g + 2) * 2048)

/-- Are the source rows of a sample in the ring when its line begins (R531)? -/
def State.rowsReady (s : State) (h : HeadIx) (j : Nat) (src : Source) (groups : List Nat) : Bool :=
  let n : Int := (s.scn[h]).avail
  match src with
  | .window => decide ((j : Int) < n)
  | .at_ _ v => groups.all (fun g => decide (lastRow (s.pN P.SCN_FILTER h.1 == 1) (v + (s.convOf h g).2) (s.canvasH h) < n))

/-- Working-space value of a source for a group (R523 to R525). -/
def State.sourcePx (s : State) (h : HeadIx) (i j g : Nat) (src : Source) : Px :=
  let p := match src with
    | .window => (s.bandRead h i j).px
    | .at_ u v => s.bandSample h (s.pN P.SCN_FILTER h.1 == 1) (u + (s.convOf h g).1) (v + (s.convOf h g).2)
  ⟨2 * p.r, 2 * p.g, 2 * p.b⟩

/-! ## Flagged reads (R532) -/

/-- The band words that a sample reads. -/
def State.bandWords (s : State) (h : HeadIx) (i j : Nat) (src : Source) : List Nat :=
  match src with
  | .window => s.bandWord h i j
  | .at_ u v =>
    let cubic := s.pN P.SCN_FILTER h.1 == 1
    let taps : List Int := if cubic then [-1, 0, 1, 2] else [0, 1]
    (groupsOf s.par.active h.1).flatMap (fun g =>
      let cx := (u + (s.convOf h g).1) / 2 ^ 19
      let cy := (v + (s.convOf h g).2) / 2 ^ 19
      taps.flatMap (fun dy => taps.flatMap (fun dx => s.bandWord h (cx + dx) (cy + dy))))

/-- The words of the mesh that a sample at grid row Y reads. -/
def State.meshRead (s : State) (h : HeadIx) (i : Nat) (y : Int) (src : Source) : List (Nat × Nat) :=
  match src with
  | .window => []
  | .at_ _ _ =>
    let m := mapsOf s.par.active h.1
    let size := 2 ^ (s.pN P.SCN_MESH_STEP h.1 + 8)
    let row (r : Nat) : Nat × Nat := m.nodes (r * m.nx + 256 * i / size) 2
    if y < 0 then [row 0] else [row (y.toNat / size), row (y.toNat / size + 1)]

/-- The cells of the uniformity map that a group's gain is read from. -/
def State.unifRead (s : State) (h : HeadIx) (rank i j : Nat) : List (Nat × Nat) :=
  let b := s.par.active
  let m := mapsOf b h.1
  let cell (v n : Nat) : Nat := (clampI 0 ((n : Int) - 2) ((2 * (v : Int) - 3) / 8)).toNat
  let c := cell i m.mx
  let r := cell j (ceilDiv (gridH b h.1) 4)
  [(r, c), (r, c + 1), (r + 1, c), (r + 1, c + 1)].map (fun (r, c) => (m.unif + 2 * ((r * m.mx + c) * m.groups + rank), 2))

/-- The flagged words of a sample: band words as read, words of the mesh, and words of the map for each group by rank. -/
structure Flagged where
  band : List Nat
  mesh : List Nat
  unif : List (List Nat)
  deriving DecidableEq, Repr

def Flagged.none : Flagged := ⟨[], [], []⟩

/-- The flagged words that the sample at column i of line j reads (R532; 05 R273). DESIGN CHOICE: assumption 37. -/
def State.flaggedOf (s : State) (h : HeadIx) (i j : Nat) (y : Int) (src : Source) : Flagged :=
  let x := (s.bandRing h).1
  if s.mem.qpoison[x].isEmpty then Flagged.none
  else ⟨(s.bandWords h i j src).filter (fun w => s.mem.qpoison[x].contains w), s.flaggedIn x (s.meshRead h i y src),
    (List.range (groupsOf s.par.active h.1).length).map (fun rank => s.flaggedIn x (s.unifRead h rank i j))⟩

/-- Flagged reads count for the interface (05 R273), those of the band also for the head (R532). -/
def State.countFlagged (s : State) (h : HeadIx) (f : Flagged) : State :=
  let s := s.qdrFlagged (s.bandRing h).1 (f.band ++ f.mesh ++ f.unif.flatten) .pitch
  s.modScn h (fun x => { x with uncorr := inc 32 x.uncorr f.band.length })

/-! ## Emission (R516, R525 to R531, R537; 11 R541, R543) -/

/-- The code of R527. -/
def sampleCode (drive gain kappa peak : Nat) : Nat :=
  let q := min ((drive * gain + 2 ^ 14) / 2 ^ 15) 65535
  let q2 := (q * kappa + 2 ^ 14) / 2 ^ 15
  (q2 * peak * 4095 + 2 ^ 30) / 2 ^ 31

/-- A pulse of a scan head's channel (11 R541): a pulse that would start before the previous one of its channel ends
starts at that end, and starts lie at least 2.5 ns apart. -/
def State.scanPulse (s : State) (h : HeadIx) (c : ChanIx) (code : Nat) (start : Int) (len gain : Nat) : State :=
  if len = 0 then s
  else
    let end_ := start + (len : Int)
    let begin_ := match (s.em[c]).pulseAt with
      | some (a, b) => max start (max b (a + 100))
      | none => start
    if end_ ≤ begin_ then s
    else (s.modEm c (fun e => { e with pulseAt := some (begin_, end_) })).pulse c (1000 * (s.scn[h]).lineAt) code begin_ (end_ - begin_).toNat gain

/-- Is the line, or the head frame, emitted with code 0 throughout? -/
def State.lineBlank (s : State) (h : HeadIx) : Bool := (s.scn[h]).dark || (s.head[h]).blank || (s.scn[h]).st == .failed

/-- A sample with a source: its pulses (R517 to R527). DESIGN CHOICE: assumption 57. -/
def State.emitSample (s : State) (h : HeadIx) (i j : Nat) (r : Int) (t : Int) (src : Source) (bad : Flagged) : State :=
  match (s.col[h]).cur with
  | none => s
  | some use =>
    let b := s.par.active
    let kappa := s.dwell h r
    let n := dwellSteps (widthCode (tauS b h.1) use.dt kappa) (s.head[h]).number i j
    let groups := groupsOf b h.1
    let m := mapsOf b h.1
    let my := ceilDiv (gridH b h.1) 4
    ((List.range groups.length).zip groups).foldl (fun s (rank, g) =>
      let p := s.sourcePx h i j g src
      let gain := gainAt (s.cellGain m rank) m.mx my i j
      let zero := !bad.mesh.isEmpty || !(bad.unif.getD rank []).isEmpty
      (chansOf b h.1 g).foldl (fun s c =>
        match use.chan c.1 with
        | some cu =>
          let x := s.scn[h]
          s.scanPulse h c (if zero then 0 else sampleCode (use.drive g p) gain kappa cu.peak) (startStep t x.forward x.bidir (s.pI P.SCN_DELAY c.1) n) n
            ((calOf (bkT b P.COL_CAL c.1)).gain cu.range)
        | none => s) s) s

/-- A band underrun of the head frame (R531; 13 R641). DESIGN CHOICE: assumption 57. -/
def State.bandUnderrun (s : State) (h : HeadIx) : State :=
  let s := if (s.scn[h]).underrun then s
    else s.modScn h (fun x => { x with underrun := true, underruns := inc 32 x.underruns })
  s.underrun h (1000 * (s.scn[h]).lineAt)

/-- What a sample of a line is emitted as. -/
inductive SampleUse where
  | notReached
  | underrun
  | illegal (bad : Flagged)
  | lit (r t : Int) (src : Source) (bad : Flagged)
  deriving DecidableEq, Repr

/-- How sample i of active line j is emitted (R516, R525, R531). -/
def State.sampleUse (s : State) (h : HeadIx) (i j : Nat) (free : Nat) : SampleUse :=
  match s.reach h i with
  | none => .notReached
  | some r =>
    let t := s.instant h r free
    let y := gridRow (s.slowPos h j t (free / 4000 / 2 ^ 128)) j
    let src := s.sourceOf h i j y (free / 4000)
    if !s.rowsReady h j src (groupsOf s.par.active h.1) then .underrun
    else
      let bad := s.flaggedOf h i j y src
      if src == .window && !(s.bandRead h i j).legal then .illegal bad else .lit r t src bad

/-- One emission sample of active line j. -/
def State.scanSample (s : State) (h : HeadIx) (i j : Nat) : State :=
  let use := s.sampleUse h i j (Config.freeNat s.free)
  let s := s.draw
  let s := match use with
    | .notReached =>
      if (s.scn[h]).unreached then s
      else s.modScn h (fun x => { x with unreached := true, notReached := inc 32 x.notReached })
    | .underrun => s.bandUnderrun h
    | .illegal bad => (s.countFlagged h bad).modScn h (fun x => { x with legalErr := inc 32 x.legalErr })
    | .lit r t src bad =>
      let s := s.countFlagged h bad
      if s.lineBlank h then s else s.emitSample h i j r t src bad
  let s := s.modScn h (fun x => { x with emitted := x.emitted + 1 })
  let last : Bool := j + 1 == s.pN P.SCN_LINES_ACT h.1 && (s.scn[h]).emitted == s.pN P.SCN_SAMPLES h.1
  if last then s.frameDone h else s

/-! ## Chips of touch (14 R668 to R672) -/

/-- The spot position at receiver sample m of the line, at scale 2^160, in units of SCN_AMP_SET (14 R671). -/
def State.spotAt (s : State) (h : HeadIx) (m : Nat) : Int :=
  let turns := fxDiv (fxRat (160 * m) 1) (s.stepsPerTurn h)
  let u := fxMul (s.ampRatio h) (fxCos2Pi turns)
  if (s.scn[h]).forward then -u else u

/-- The active angle a at scale 2^160. -/
def activeAngle (b : Bank) (h : Nat) : Int := fxRat (bkN b P.SCN_ACTIVE h) 65536

/-- Does the spot lie within the active angle at receiver sample m? -/
def State.inAngle (s : State) (h : HeadIx) (m : Nat) : Bool := decide ((s.spotAt h m).natAbs ≤ (activeAngle s.par.active h.1).natAbs)

/-- The index of [-a, a] cut into n parts that holds the spot at sample m. -/
def State.partAt (s : State) (h : HeadIx) (n m : Nat) : Nat :=
  let a := activeAngle s.par.active h.1
  (clampI 0 ((n : Int) - 1) ((n : Int) * (s.spotAt h m + a) / (2 * a))).toNat

/-- Add a chip to a cell (R672). -/
def TouchFrame.addChip (f : TouchFrame) (cell : Nat) (a b : Int) : TouchFrame :=
  let x := (assocGet cell f.sums).getD ⟨0, 0, 0⟩
  { f with sums := assocSet cell ⟨x.n + 1, x.a + a, x.b + b⟩ f.sums }

/-- Chip value (R669): four on samples, then four off samples. DEDUCED: assumption 63. -/
def chipValue (v : List Nat) : Int := ((v.take 4).foldl (· + ·) 0 : Nat) - (((v.drop 4).take 4).foldl (· + ·) 0 : Nat)

/-- Does a chip's pulse of the channel with this code carry code 0 (14 R670)? -/
def State.chipSilent (s : State) (h : HeadIx) (c : ChanIx) (code : Nat) (start : Int) : Bool :=
  match (s.em[c]).en with
  | none => true
  | some t => tooEarly t (1000 * (s.scn[h]).lineAt) start || min code (s.pN P.EMT_MAXCODE c.1) == 0

/-- Chip k of active line j with its receiver readings (R668 to R672). DEDUCED: assumption 63. -/
def State.touchChip (s : State) (h : HeadIx) (j k : Nat) (ta tb : List Nat) : State :=
  match s.touchChan h with
  | none => s
  | some c =>
    if !(s.inAngle h (8 * k) && s.inAngle h (8 * k + 4)) then s
    else
      let code := s.pN P.TCH_CODE h.1
      -- the emission sample at the chip's middle may carry code 0 for every channel (R525, R531, R516)
      let i := s.partAt h (s.pN P.SCN_SAMPLES h.1) (8 * k + 2)
      let free := Config.freeNat s.free
      let s := s.draw
      let sampleDark := match s.sampleUse h i j free with
        | .lit _ _ _ bad => !bad.mesh.isEmpty
        | _ => true
      let code := if sampleDark || s.lineBlank h then 0 else code
      let start := 1280 * (k : Int) + s.pI P.SCN_DELAY c.1
      let silent := s.chipSilent h c code start
      let s := s.scanPulse h c code start 640 (s.gainNow c)
      let clipped : Bool := (ta.take 8 ++ tb.take 8).any (fun v => v == 0 || Nat.ble 4095 v)
      let cell := 128 * (80 * j / s.pN P.SCN_LINES_ACT h.1) + s.partAt h 128 (8 * k + 2)
      s.modTouch h (fun t => { t with acc := t.acc.map (fun (f : TouchFrame) =>
        if clipped then { f with blind := insertNat cell f.blind }
        else if silent then f
        else f.addChip cell (chipValue ta) (chipValue tb)) })

/-- SCAN_SAMPLE (R514 to R537; 14 R668 to R671): the next emission sample of the active line in its order, or a chip. -/
def execScanSample (h : HeadIx) (step : ScanStep) (s : State) : Res :=
  let x := s.scn[h]
  let n := s.pN P.SCN_SAMPLES h.1
  match x.active, step with
  | some j, .emit i =>
    if x.emitted < n ∧ i = (if x.forward then x.emitted else n - 1 - x.emitted) then .next (s.scanSample h i j) else .next s
  | some j, .chip k ta tb =>
    if x.chips ≤ k then .next ((s.modScn h (fun x => { x with chips := k + 1 })).touchChip h j k ta tb) else .next s
  | none, _ => .next s

/-! ## Fast-axis states (R509, R536, R537) -/

/-- A condition has held for n consecutive periods of the fast axis. -/
def lasted (held : Option Nat) (n : Nat) : Bool := match held with
  | some p => Nat.ble (n * turnUnits) p
  | none => false

/-- FAST_AXIS_LOCKED (Table 10-5): the windows of LOCKING have held for 256 periods; at no other time has it an effect. -/
def execFastAxisLocked (h : HeadIx) (s : State) : Res :=
  let x := s.scn[h]
  if x.st = .locking ∧ lasted x.watch.window 256 = true then .next (s.modScn h (fun x => { x with st := .locked, reached := true }))
  else .next s

def fastCode : FastState → Nat
  | .stopped => 0
  | .sweep => 1
  | .locking => 2
  | .locked => 3
  | .failed => 4

def reasonCode : ScanReason → Nat
  | .sense => 1
  | .lock => 2
  | .amplitude => 3
  | .frequency => 4
  | .slow => 5
  | .timeout => 6

/-- Does a condition of Table 10-6 hold? TIMEOUT counts from the start of the sweep until the axis is first LOCKED. DEDUCED:
assumption 58. -/
def State.failHolds (s : State) (h : HeadIx) (r : ScanReason) : Bool :=
  let x := s.scn[h]
  let w := x.watch
  match r with
  | .sense => (x.st == .locking || x.st == .locked) && lasted w.sense 2
  | .lock => x.st == .locked && lasted w.lock 16
  | .amplitude => x.st == .locked && lasted w.amplitude 64
  | .frequency => x.st == .locked && w.frequency
  | .slow => x.st == .locked && x.active.isSome && Nat.ble 8 w.slow
  | .timeout => (x.st == .sweep || x.st == .locking) && !x.reached &&
      Nat.ble (x.since + 1000000 * s.pN P.SCN_LOCK_MS h.1) s.latest

/-- VALUE of EV_SCAN_FAIL (Table 10-7), truncated. DESIGN CHOICE: assumption 57. -/
def State.failValue (s : State) (h : HeadIx) (r : ScanReason) : Bytes :=
  let x := s.scn[h]
  match r with
  | .sense | .amplitude => toBE 4 (4 * x.ampNow / (s.pN P.SCN_AMP_SET h.1 : Int)).toNat
  | .lock => toSBE 4 (truncDiv (18000 * x.errNow) 1073741824)
  | .frequency => toBE 4 (x.freqNow / 1073741824)
  | .slow => toSBE 4 x.watch.offset
  | .timeout => toBE 4 ((s.latest - x.since) / 1000000)

/-- SCAN_FAIL (R536, R537, Table 10-7): a condition of Table 10-6 holds; where it does not, nothing happens. -/
def execScanFail (h : HeadIx) (reason : ScanReason) (t : Nat) (s : State) : Res :=
  let s := s.atTime t
  let x := s.scn[h]
  if !s.isScan h || !s.failHolds h reason then .next s
  else
    let line := match x.active with
      | some j => j
      | none => 0xFFFFFFFF
    let d := [byteOf h.1, byteOf (reasonCode reason), byteOf (fastCode x.st), 0#8] ++ s.failValue h reason ++ toBE 4 line
    let s := s.modScn h (fun x => { x with st := .failed, since := s.latest, fails := inc 32 x.fails, active := none })
    let s := if s.running h then s.modHead h (fun y => { y with wait := true }) else s
    .next (((s.settle.log (0x18 + h.1) 4 clsHead h.1 d).raise evScanFail d).traceEvent 1)

/-- FAST_AXIS_STOP (Table 10-5): 10 ms after FAILED, and not before; the sweep begins again at the next base period. -/
def execFastAxisStop (h : HeadIx) (s : State) : Res :=
  let x := s.scn[h]
  if x.st = .failed ∧ x.since + 10000000 ≤ s.latest then .next (s.modScn h (fun x => { x with st := .stopped, sweepDue := s.isScan h }))
  else .next s

/-! ## Reports -/

/-- Bytes per second of a head's QDR load, numerator over TCK_RATE_DEN, in MB/s (Table 10-4). -/
def qdrLoadMB (b : Bank) (h : Nat) : Nat :=
  qdrLoadNum b h (bkCanvasW b h) (bkCanvasH b h) / (bkN b P.TCK_RATE_DEN * 1000000)

/-- SCN_TIMING (Table 10-4). DESIGN CHOICE: assumption 57. -/
def State.scanTiming (s : State) (h : HeadIx) : Bytes :=
  if !s.isScan h then zeros 32
  else
    let b := s.par.active
    let x := s.scn[h]
    let lines := 512 * x.freq * frameNum b / (1073741824 * 1000 * frameDen b h.1)
    toLE 4 (x.freq / 1073741824) ++ toLE 4 lines ++ toLE 4 x.leadNs ++ toLE 4 x.flyNs ++ toLE 4 (tauS b h.1 / fxOne) ++
      toLE 4 (qdrLoadMB b h.1) ++ toLE 4 (4 * x.amp / (bkN b P.SCN_AMP_SET h.1 : Int)).toNat ++ zeros 4

end Sys2Proof.Machine
end

