-- ==== Sys2Proof/Machine/Touch.lean ====
section
/-! DEFINITION. Backscatter touch: the reflectance map, the background, contacts and their reports (14 R672 to R687). -/

namespace Sys2Proof.Machine

/-! ## Cells (R672 to R675) -/

/-- A cell's map values; the sums hold at least one chip. -/
structure CellMap where
  cell : Nat
  a    : Nat
  b    : Nat
  deriving DecidableEq, Repr

def meanOf (sum : Int) (n : Nat) : Nat := (clampI 0 16380 ((2 * sum + n) / ((2 * n : Nat) : Int))).toNat

/-- The reflectance map of a head frame: its non-empty cells. -/
def TouchFrame.cells (f : TouchFrame) : List CellMap := f.sums.map (fun (c, x) => ⟨c, meanOf x.a x.n, meanOf x.b x.n⟩)

/-- Cells neither empty nor blind. -/
def TouchFrame.good (f : TouchFrame) : List CellMap := f.cells.filter (fun c => !f.blind.contains c.cell)

/-- The background of a cell (R673). -/
def State.bgPlace (s : State) (h : HeadIx) (cell : Nat) : Fin 2 × Nat :=
  let (x, a) := qdrPlace s.par.active h.1 3
  (x, a + 4 * cell)

def State.bgOf (s : State) (h : HeadIx) (cell : Nat) : Nat × Nat :=
  let (x, a) := s.bgPlace h cell
  let d := s.qdrLoad x a 4
  (le16 d 0, le16 d 2)

def State.setBg (s : State) (h : HeadIx) (cell : Nat) (v : Nat × Nat) : State :=
  let (x, a) := s.bgPlace h cell
  s.qdrStore x a (toLE 2 v.1 ++ toLE 2 v.2)

/-- The flagged words among the background of some cells that are evaluated: each counts (05 R273). -/
def State.bgFlagged (s : State) (h : HeadIx) (cells : List CellMap) : State :=
  let (x, a) := s.bgPlace h 0
  s.qdrFlagged x (s.flaggedIn x (cells.map (fun c => (a + 4 * c.cell, 4)))) .pitch

/-- BG + ((4 m - BG) >> shift) (R675). -/
def bgStep (shift bg m : Nat) : Nat := ((bg : Int) + (4 * (m : Int) - bg) / ((2 ^ shift : Nat) : Int)).toNat

/-- Update the background of some cells. -/
def State.bgUpdate (s : State) (h : HeadIx) (shift : Nat) (cells : List CellMap) : State :=
  cells.foldl (fun s c =>
    let (a, b) := s.bgOf h c.cell
    s.setBg h c.cell (bgStep shift a c.a, bgStep shift b c.b)) s

/-- An evaluated cell with its excesses (R674). -/
structure Excess where
  cell : Nat
  d    : Int
  db   : Int
  deriving DecidableEq, Repr

def State.excess (s : State) (h : HeadIx) (c : CellMap) : Excess :=
  let (ba, bb) := s.bgOf h c.cell
  let da := (c.a : Int) - ((ba + 2) / 4 : Nat)
  let db := (c.b : Int) - ((bb + 2) / 4 : Nat)
  ⟨c.cell, da + db, db⟩

/-! ## Components and contacts (R676 to R678) -/

/-- 8-adjacent, or the same. -/
def near (c e : Nat) : Bool :=
  let dx := (c % 128 : Int) - (e % 128 : Nat)
  let dy := (c / 128 : Int) - (e / 128 : Nat)
  decide (dx.natAbs ≤ 1) && decide (dy.natAbs ≤ 1)

/-- Grow a component from a frontier. -/
def growComponent : Nat → List Excess → List Excess → List Excess → List Excess × List Excess
  | 0, comp, front, rest => (comp ++ front, rest)
  | n + 1, comp, front, rest =>
    if front.isEmpty then (comp, rest)
    else
      let (close, far) := rest.partition (fun c => front.any (fun e => near c.cell e.cell))
      growComponent n (comp ++ front) close far

/-- The 8-connected components of a list of cells. -/
def components : Nat → List Excess → List (List Excess)
  | 0, _ => []
  | _ + 1, [] => []
  | n + 1, c :: rest =>
    let (comp, rest) := growComponent (rest.length + 1) [] [c] rest
    comp :: components n rest

/-- A component with its sums, its position and strength (R676, R677). -/
structure Blob where
  cells    : List Nat
  sum      : Int
  sumB     : Int
  x        : Nat
  y        : Nat
  strength : Nat
  deriving DecidableEq, Repr

def blobOf (l : List Excess) : Blob :=
  let sum : Int := l.foldl (fun (a : Int) e => a + e.d) 0
  let pos (f : Nat → Nat) : Nat := ((l.foldl (fun (a : Int) e => a + e.d * ((4 * f e.cell + 2 : Nat) : Int)) 0 + sum / 2) / sum).toNat
  ⟨l.map (·.cell), sum, l.foldl (fun (a : Int) e => a + e.db) 0, pos (fun c => c % 128), pos (fun c => c / 128), (min (sum / 16) 255).toNat⟩

def Blob.areaOk (x : Blob) (c : TouchCfg) : Bool := decide (c.areaMin ≤ x.cells.length) && decide (x.cells.length ≤ c.areaMax)
def Blob.ratioOk (x : Blob) (c : TouchCfg) : Bool := decide (0 < x.sum) && decide ((c.ratio : Int) * x.sum ≤ x.sumB * 65536)

/-- Descending sum; lower Y, then lower X on a tie (R678). -/
def Blob.before (a b : Blob) : Bool :=
  decide (b.sum < a.sum) || (a.sum == b.sum && (decide (a.y < b.y) || (a.y == b.y && decide (a.x ≤ b.x))))

def insertBlob (x : Blob) : List Blob → List Blob
  | [] => [x]
  | y :: r => if x.before y then x :: y :: r else y :: insertBlob x r

def sortBlobs (l : List Blob) : List Blob := l.foldr insertBlob []

/-! ## Tracking (R679, R680) -/

/-- Squared distance in quarter cells. -/
def sqDist (c : Contact) (b : Blob) : Nat :=
  let dx := ((c.x : Int) - b.x).natAbs
  let dy := ((c.y : Int) - b.y).natAbs
  dx * dx + dy * dy

/-- The nearest unmatched contact within reach; the lower ID on a tie. DEDUCED: assumption 63. -/
def nearest (prev : List Contact) (track : Nat) (b : Blob) : Option Contact :=
  prev.foldl (fun best c =>
    if track * track < sqDist c b then best
    else match best with
      | none => some c
      | some d => if sqDist c b < sqDist d b then some c else best) none

/-- Match the contacts of a head frame in their order: matched and new ones with the blob each came from, and the
previous ones left over. An ID for a new contact where all that R679 names are taken is a free choice. DEDUCED:
assumption 63. -/
def track (cfg : TouchCfg) (tick free : Nat) (used : List Nat) :
    List Blob → List Contact → List (Contact × Blob) → List (Contact × Blob) × List Contact
  | [], prev, done => (done.reverse, prev)
  | b :: rest, prev, done =>
    match nearest prev cfg.track b with
    | some c =>
      let n := { c with x := b.x, y := b.y, strength := b.strength, isNew := false, hidden := c.hidden || c.stuck }
      track cfg tick free used rest (prev.filter (fun p => p.id != c.id)) ((n, b) :: done)
    | none =>
      let taken := done.map (·.1.id)
      let spare := (List.range 16).filter (fun i => !taken.contains i)
      let id := match spare.find? (fun i => !used.contains i) with
        | some i => i
        | none => spare.getD (free % max 1 spare.length) 0
      track cfg tick free used rest prev ((⟨id, b.x, b.y, b.strength, tick, true, b.x, b.y, false, false⟩, b) :: done)

/-! ## The report (R681, Table 14-3) -/

def flagOverflow : Nat := 1
def flagBlind : Nat := 2
def flagStuck : Nat := 4
def flagUnlit : Nat := 8
def flagRestart : Nat := 16

/-- The entry of a contact. -/
def contactWord (c : Contact) : Nat := c.x * 2 ^ 22 + c.y * 2 ^ 13 + c.id * 2 ^ 9 + b2n c.isNew * 2 ^ 8 + c.strength

def insertContact (x : Contact) : List Contact → List Contact
  | [] => [x]
  | y :: r => if x.id < y.id then x :: y :: r else y :: insertContact x r
def sortContacts (l : List Contact) : List Contact := l.foldr insertContact []

/-- EV_TOUCH of the head as it stands, for a head frame; the reported positions become the last reported ones. DEDUCED:
assumption 63. -/
def State.touchReport (s : State) (h : HeadIx) (f : TouchFrame) (flags : Nat) : State :=
  let t := s.tch[h]
  let shown := sortContacts t.shown
  let fl := flags + (if t.announce then flagRestart else 0)
  let d := [byteOf h.1, byteOf shown.length, byteOf fl, 0#8] ++ toBE 2 t.lifted ++ [byteOf (b2n f.half), byteOf (s.tick.count - f.tick)] ++
    shown.flatMap (fun c => toBE 4 (contactWord c))
  (s.raise evTouch d).modTouch h (fun t => { t with
    lifted := 0, repFlags := flags, announce := false, contacts := t.contacts.map (fun c => { c with rx := c.x, ry := c.y }) })

/-- Has a contact moved since it was last reported? -/
def Contact.moved (c : Contact) (move : Nat) : Bool :=
  decide (move ≤ ((c.x : Int) - c.rx).natAbs) || decide (move ≤ ((c.y : Int) - c.ry).natAbs)

/-! ## Evaluating a head frame (R675 to R685) -/

/-- An unlit head frame (R683). -/
def State.touchUnlit (s : State) (h : HeadIx) (f : TouchFrame) : State :=
  let present := !(s.tch[h]).shown.isEmpty
  let s := s.modTouch h (fun t => { t.liftAll with
    unlit := true, flags := flagUnlit + (if t.announce then flagRestart else 0), count := 0, blindCells := 0, filmCells := 0
    tick := f.tick })
  if present then s.touchReport h f flagUnlit else s

/-- The contacts found: contact blobs in order, films. -/
def State.findBlobs (s : State) (h : HeadIx) (f : TouchFrame) : List Blob × List Blob :=
  let act := (f.good.map (s.excess h)).filter (fun e => decide ((f.cfg.thresh : Int) ≤ e.d))
  let blobs := ((components (act.length + 1) act).map blobOf).filter (fun b => b.areaOk f.cfg)
  (sortBlobs (blobs.filter (fun b => b.ratioOk f.cfg)), blobs.filter (fun b => !b.ratioOk f.cfg))

/-- A head frame in RUN. -/
def State.touchRun (s : State) (h : HeadIx) (f : TouchFrame) : State :=
  let t := s.tch[h]
  let (found, films) := s.findBlobs h f
  let free := Config.freeNat s.free
  let s := s.draw
  let (now_, gone) := track f.cfg f.tick free (t.contacts.map (·.id)) (found.take 10) t.contacts []
  let contacts := now_.map (·.1)
  -- lifted: IDs not matched, and IDs that become suppressed
  let hides := (contacts.filter (fun c => c.hidden && c.stuck)).map (fun c => { c with stuck := false })
  let lifted := (gone.filter (fun c => !c.hidden)).map (·.id) ++ hides.map (·.id)
  let stuck := !hides.isEmpty || gone.any (fun c => c.stuck && !c.hidden)
  let blocked := (now_.filter (fun c => !c.1.hidden)).flatMap (fun c => c.2.cells) ++ (found.drop 10).flatMap (·.cells)
  let s := s.bgUpdate h f.cfg.shift (f.good.filter (fun c => !blocked.any (fun e => near c.cell e)))
  let flags := (if 10 < found.length then flagOverflow else 0) + (if f.blind.isEmpty then 0 else flagBlind) + (if stuck then flagStuck else 0)
  let s := s.modTouch h (fun t => { t with
    contacts := contacts.map (fun c => { c with stuck := c.stuck && !c.hidden })
    lifted := maskOf ((List.range 16).filter (bit t.lifted) ++ lifted)
    films := inc 32 t.films films.length
    filmCells := (films.map (fun b => b.cells.length)).foldl (· + ·) 0 })
  let t := s.tch[h]
  let s := s.modTouch h (fun t => { t with count := t.shown.length, flags := flags + (if t.announce then flagRestart else 0) })
  if t.shown.any (fun c => c.isNew || c.moved f.cfg.move) || !lifted.isEmpty || flags != t.repFlags then s.touchReport h f flags else s

/-- A head frame that only learns (R685): no cell is active. -/
def State.touchLearn (s : State) (h : HeadIx) (f : TouchFrame) (stage : TouchStage) : State :=
  let flags := if f.blind.isEmpty then 0 else flagBlind
  let s := s.modTouch h (fun t => { t with
    stage := stage, contacts := [], filmCells := 0, count := 0, flags := flags + (if t.announce then flagRestart else 0) })
  if flags = (s.tch[h]).repFlags then s else s.touchReport h f flags

/-- Evaluate a head frame. DEDUCED: assumption 64. -/
def State.touchEval (s : State) (h : HeadIx) (f : TouchFrame) : State :=
  if f.blank || !f.lit || s.entryBare 2 h.1 then s.touchUnlit h f
  else
    let s := s.modTouch h (fun t => { t with
      unlit := false, tick := f.tick, blindCells := f.blind.length, blinds := if f.blind.isEmpty then t.blinds else inc 32 t.blinds
      map := f.cells.map (fun c => (c.cell, (c.a, c.b))) })
    match (s.tch[h]).stage with
    | .restart => (f.good.foldl (fun s c => s.setBg h c.cell (4 * c.a, 4 * c.b)) s).touchLearn h f (.learn f.cfg.learn)
    | .learn n => ((s.bgFlagged h f.good).bgUpdate h f.cfg.shift f.good).touchLearn h f (if n ≤ 1 then .run else .learn (n - 1))
    | .run => (s.bgFlagged h f.good).touchRun h f

/-- Discard the oldest head frame that is not evaluated (R682). -/
def State.touchDiscard (s : State) (h : HeadIx) : State :=
  s.modTouch h (fun t => { t with ready := t.ready.tail, late := inc 32 t.late })

/-- TOUCH_FRAME_DONE (R672 to R685): the TOUCH task evaluates the oldest head frame whose active lines have ended; one that
comes later than T after that is discarded (R682). -/
def execTouchFrameDone (h : HeadIx) (s : State) : Res :=
  match (s.tch[h]).ready with
  | [] => .next s
  | f :: rest =>
    if f.ended + s.tick.period < s.now then .next (s.touchDiscard h)
    else .next ((s.modTouch h (fun t => { t with ready := rest })).touchEval h f)

/-- TOUCH_LATE (R682): the map is not complete T after the last active line, and is discarded; before that nothing is.
DEDUCED: assumption 63. -/
def execTouchLate (h : HeadIx) (s : State) : Res :=
  match (s.tch[h]).ready with
  | [] => .next s
  | f :: _ => if f.ended + s.tick.period ≤ s.latest then .next (s.touchDiscard h) else .next s

/-- TOUCH_STUCK (R680): an ID present for more than TCH_STUCK ticks; the next evaluated head frame reports it lifted.
DEDUCED: assumption 63. -/
def execTouchStuck (h : HeadIx) (id : Fin 16) (s : State) : Res :=
  let limit := s.pN P.TCH_STUCK h.1
  .next (s.modTouch h (fun t => { t with contacts := t.contacts.map (fun c =>
    if c.id = id.1 ∧ limit ≠ 0 ∧ limit < s.tick.count - c.since ∧ c.hidden = false then { c with stuck := true } else c) }))

/-- An accepted write of TCH_RELEARN (R684). -/
def State.touchRelearn (s : State) (mask : Nat) : State :=
  (allFin 4).foldl (fun s h => if bit mask h.1 then s.touchRestart h else s) s

/-- What a commit edge restarts (R684): the TOUCH binding, the parameters marked restart, the raster's parameters. -/
def touchRestarts (old new : Bank) (h : HeadIx) : Bool :=
  chansOf old h.1 roleTouch != chansOf new h.1 roleTouch ||
    [P.TCH_CODE, P.TCH_RANGE, P.TCH_RX_LAG, P.SCN_FREQ, P.SCN_AMP_SET, P.SCN_ACTIVE, P.SCN_LINES_ACT].any (fun id =>
      bkI old id h.1 != bkI new id h.1)

/-! ## Reports (Table 14-4, R689) -/

/-- TCH_STATUS. -/
def State.touchStatus (s : State) (h : HeadIx) : Bytes :=
  let t := s.tch[h]
  let st := if (s.touchChan h).isNone then 0 else if t.unlit then 3 else if t.stage == .run then 2 else 1
  [byteOf st, byteOf t.count, byteOf t.flags, 0#8] ++ toLE 2 t.blindCells ++ toLE 2 t.filmCells ++ toLE 8 t.tick

/-- TCH_MAP and TCH_BG, one page of 1,024 cells. -/
def State.touchMap (s : State) (h : HeadIx) (page : Nat) : Bytes :=
  (List.range 1024).flatMap (fun k =>
    let v := (assocGet (1024 * page + k) (s.tch[h]).map).getD (0, 0)
    toLE 2 v.1 ++ toLE 2 v.2)

def State.touchBg (s : State) (h : HeadIx) (page : Nat) : Bytes :=
  if (s.touchChan h).isNone then zeros 4096
  else
    let (x, a) := s.bgPlace h (1024 * page)
    s.qdrLoad x a 4096

end Sys2Proof.Machine
end

