-- ==== Sys2Proof/Machine/Video.lean ====
section
/-! DEFINITION. Video receiver sessions: RTP parse, the ST 2022-7 merge, ring entries, frames (04 R197 to R215). -/

namespace Sys2Proof.Machine

/-! ## Spans: rising disjoint half-open intervals -/

/-- Add a span to a rising list of disjoint spans, joining what it meets. -/
def addSpan (a b : Nat) : List (Nat × Nat) → List (Nat × Nat)
  | [] => [(a, b)]
  | (c, d) :: r =>
    if b < c then (a, b) :: (c, d) :: r
    else if d < a then (c, d) :: addSpan a b r
    else addSpan (min a c) (max b d) r

/-- How much of [a, b) the spans cover. -/
def spanCount (a b : Nat) (l : List (Nat × Nat)) : Nat :=
  l.foldl (fun n (c, d) => n + (min b d - max a c)) 0

/-- Is a number in a span? -/
def spanHas (n : Nat) (l : List (Nat × Nat)) : Bool := l.any (fun (c, d) => decide (c ≤ n) && decide (n < d))

/-! ## Pixel groups of ST 2110-20 -/

/-- A pixel group: bytes, pixels it spans along the row, lines, and for each sample its plane and place in the plane,
counted from the group's place. -/
structure PGroup where
  bytes   : Nat
  px      : Nat
  lines   : Nat
  samples : List (Nat × Nat × Nat)
  deriving DecidableEq, Repr

/-- The pixel group of a format (R199, R210). PRESUMED: assumption 29. -/
def pixelGroup (f : Nat) : PGroup :=
  let d := fmtDepth f
  match fmtSampling f with
  | 0 =>
    let four (k : Nat) : List (Nat × Nat × Nat) := [(0, 2 * k, 0), (0, 2 * k + 1, 0), (0, 2 * k, 1), (0, 2 * k + 1, 1), (1, k, 0), (2, k, 0)]
    if d = 10 then ⟨15, 4, 2, four 0 ++ four 1⟩ else ⟨6 * d / 8, 2, 2, four 0⟩
  | 1 => ⟨4 * d / 8, 2, 1, [(1, 0, 0), (0, 0, 0), (2, 0, 0), (0, 1, 0)]⟩
  | k =>
    let one (x : Nat) : List (Nat × Nat × Nat) := if k = 2 then [(1, x, 0), (0, x, 0), (2, x, 0)] else [(0, x, 0), (1, x, 0), (2, x, 0)]
    if d = 8 then ⟨3, 1, 1, one 0⟩
    else if d = 10 then ⟨15, 4, 1, one 0 ++ one 1 ++ one 2 ++ one 3⟩
    else ⟨9, 2, 1, one 0 ++ one 1⟩

/-- The samples of a pixel group, `d` bits each, most significant first. PRESUMED: assumption 29. -/
def groupSamples (d n : Nat) (b : Bytes) : List Nat :=
  let v := natBE b
  let total := 8 * b.length
  (List.range n).map (fun i => (v / 2 ^ (total - d * (i + 1))) % 2 ^ d)

/-! ## Packets -/

/-- One sample row data header. -/
structure Srd where
  len  : Nat
  row  : Nat
  off  : Nat
  data : Bytes
  deriving DecidableEq, Repr

/-- A parsed RTP packet. -/
structure VPacket where
  pt     : Nat
  marker : Bool
  ts     : Nat
  ssrc   : Nat
  /-- RTP sequence number below the extended sequence number (R211) -/
  num    : Nat
  srds   : List Srd
  /-- the field bit of a header is set: not progressive video -/
  field  : Bool
  deriving DecidableEq, Repr

/-- The sample row data headers from byte `o` on: (length, row with field bit, offset), and where the data begins.
PRESUMED: assumption 29. -/
def srdHeaders : Nat → Bytes → Nat → List (Nat × Nat × Nat) × Nat
  | 0, _, o => ([], o)
  | f + 1, b, o =>
    let h := (be16 b o, be16 b (o + 2), be16 b (o + 4))
    if be16 b (o + 4) / 32768 = 1 then
      let (r, e) := srdHeaders f b (o + 6)
      (h :: r, e)
    else ([h], o + 6)

/-- Parse an RTP packet; none unless it has version 2 and whole headers. -/
def parseRtp (b : Bytes) : Option VPacket :=
  let cc := u8 b 0 % 16
  let o := 12 + 4 * cc
  let o := if bit (u8 b 0) 4 then o + 4 + 4 * be16 b (o + 2) else o
  let pad := if bit (u8 b 0) 5 then u8 b (b.length - 1) else 0
  let b' := b.take (b.length - pad)
  let (hs, d) := srdHeaders 4 b' (o + 2)
  if b.length < 20 ∨ u8 b 0 / 64 ≠ 2 ∨ b'.length < d then none
  else
    let srds := (hs.foldl (fun (acc : List Srd × Nat) h =>
      (acc.1 ++ [⟨h.1, h.2.1 % 32768, h.2.2 % 32768, slice b' acc.2 h.1⟩], acc.2 + h.1)) ([], d)).1
    some ⟨u8 b 1 % 128, bit (u8 b 1) 7, be32 b 4, be32 b 8, be16 b' o * 65536 + be16 b 2, srds,
      hs.any (fun h => decide (32768 ≤ h.2.1))⟩

/-- Rows of pixel groups in a frame, and groups in a row. -/
def groupsPerRow (f w : Nat) : Nat := ceilDiv w (pixelGroup f).px
def groupRows (f h : Nat) : Nat := h / (pixelGroup f).lines

/-- Does a header lie within the picture and hold whole pixel groups (R200)? An offset inside a pixel group is that of the group.
PRESUMED: assumption 29. -/
def srdOk (f w h : Nat) (x : Srd) : Bool :=
  let g := pixelGroup f
  x.len % g.bytes == 0 && x.data.length == x.len && decide (x.row < h) && x.row % g.lines == 0 && decide (x.off < w) &&
    decide (x.off + x.len / g.bytes * g.px ≤ groupsPerRow f w * g.px)

/-! ## Sessions -/

def State.modRx (s : State) (v : RxIx) (f : Rx → Rx) : State := { s with rx := vmod s.rx v f }

/-- Discard an open frame: its surface is READY without valid content (05 Table 5-9) and it is counted (R205, R207). -/
def State.discardFrame (s : State) (v : RxIx) (o : OpenFrame) : State :=
  let s := match s.surface o.handle with
    | none => s
    | some (ix, _) => s.modSurf ix (fun x => { x with st := .ready, valid := false })
  s.modRx v (fun r => { r with
    frames := r.frames.filter (fun g => g.ts != o.ts)
    closed := (o.ts :: r.closed).take 16
    discards := inc 32 r.discards })

/-- The ring entry a new frame takes, with its surface's index (R203; 17 R788). -/
def State.takeEntry (s : State) (v : RxIx) : Option (Fin 4 × Nat × Nat) :=
  let r := s.rx[v]
  let start := match r.last with
    | none => 0
    | some k => k.1 + 1
  let ring := s.ring v.1
  (List.range 4).findSome? (fun i =>
    let k : Fin 4 := Fin.ofNat 4 (start + i)
    let h := ring.getD k.1 0
    match s.surface h with
    | none => none
    | some (ix, x) =>
      if x.st = .ready ∧ h ≠ r.current ∧ (s.mcFailed = false ∨ x.pool = true) then some (k, h, ix) else none)

/-- Is a 32-bit RTP timestamp later than another? -/
def tsLater (a b : Nat) : Bool := let d := (a + 4294967296 - b) % 4294967296
  d != 0 && decide (d < 2147483648)

/-- Write a packet's samples into the planes of its frame's surface (R210), and note the groups written. -/
def State.writeSrd (s : State) (f : Nat) (x : Surf) (d : Srd) : State :=
  let g := pixelGroup f
  let planes := x.planes
  (List.range (d.len / g.bytes)).foldl (fun s i =>
    let col := d.off / g.px + i
    let vals := groupSamples (fmtDepth f) g.samples.length (slice d.data (i * g.bytes) g.bytes)
    (g.samples.zip vals).foldl (fun s ((pl, dx, dy), val) =>
      match planes[pl]? with
      | none => s
      | some p =>
        let x0 := if pl = 0 ∨ 2 ≤ fmtSampling f then col * g.px + dx else col * g.px / 2 + dx
        let y0 := if pl = 0 ∨ fmtSampling f ≠ 0 then d.row + dy else d.row / 2 + dy
        if p.width ≤ x0 then s
        else s.writeMem x.pool (x.off + p.off + y0 * p.pitch + x0 * p.bytes)
          (if p.bytes = 1 then [byteOf val] else toLE 2 (val * 2 ^ (16 - fmtDepth f))) .ingress) s) s

/-- A frame is complete (R204), or stale (R206). -/
def State.finishFrame (s : State) (v : RxIx) (o : OpenFrame) : State :=
  let r := s.rx[v]
  if (match r.newest with
    | none => false
    | some n => tsLater n o.ts) = true then s.discardFrame v o
  else
    let s := match s.surface o.handle with
      | none => s
      | some (ix, _) => s.modSurf ix (fun x => { x with st := .ready, valid := true })
    s.modRx v (fun r => { r with
      frames := r.frames.filter (fun g => g.ts != o.ts)
      closed := (o.ts :: r.closed).take 16
      newest := some o.ts
      current := o.handle
      framesOk := inc 64 r.framesOk })

/-- Find the open frame of a timestamp, opening one for a new timestamp (R203, R205). -/
def State.frameFor (s : State) (v : RxIx) (ts : Nat) : State × Option OpenFrame :=
  let r := s.rx[v]
  match r.frames.find? (fun o => o.ts == ts) with
  | some o => (s, some o)
  | none =>
    if r.noSurf.contains ts ∨ r.closed.contains ts then (s, none)
    else
      -- the third timestamp makes the older open frame incomplete
      let s := match r.frames with
        | o :: _ :: _ => s.discardFrame v o
        | _ => s
      let s := s.modRx v (fun r => { r with frames := r.frames.map (fun o =>
        if o.laterAt.isNone then { o with laterAt := some s.now } else o) })
      match s.takeEntry v with
      | none => (s.modRx v (fun r => { r with noSurf := (ts :: r.noSurf).take 16, nosurfs := inc 32 r.nosurfs }), none)
      | some (k, h, ix) =>
        let o : OpenFrame := ⟨ts, k, h, s.now, none, none, []⟩
        ((s.modSurf ix (fun x => { x with st := .filling, valid := false })).modRx v (fun r => { r with
          frames := r.frames ++ [o], last := some k }), some o)

/-- Unwrap a 32-bit number against the highest received. -/
def unwrapNum (hi : Option Nat) (n : Nat) : Nat :=
  match hi with
  | none => 4294967296 + n
  | some h =>
    let d := (n + 4294967296 - h % 4294967296) % 4294967296
    if d < 2147483648 then h + d else h + d - 4294967296

/-- Move the window up to a new highest number; numbers that leave it unwritten are lost (R212, R215). -/
def Rx.advance (r : Rx) (n : Nat) : Rx :=
  match r.hi with
  | none => { r with hi := some n, lo := n }
  | some h =>
    if n ≤ h then r
    else
      let low := n - 32768
      if low ≤ r.lo then { r with hi := some n }
      else { r with hi := some n, lo := low, lost := inc 32 r.lost ((low - r.lo) - spanCount r.lo low r.seen) }

/-- Note an arrival for ETH_RX_SKEW: the first copy's, or the difference of the two. -/
def Rx.arrive (r : Rx) (n p t : Nat) : Rx :=
  let keep (q : Nat) : Bool := decide (t < q + 1000000000)
  match r.arrivals.find? (fun a => a.1 == n && a.2.1 != p) with
  | some a => { r with
      diffs := (t, if p = 1 then (t : Int) - a.2.2 else (a.2.2 : Int) - t) :: r.diffs.filter (fun d => keep d.1)
      arrivals := r.arrivals.filter (fun b => b.1 != n) }
  | none => { r with arrivals := (n, p, t) :: r.arrivals.filter (fun a => keep a.2.2) }

/-- ETH_RX_SKEW, µs. -/
def Rx.skew (r : Rx) (now : Nat) : Int :=
  let d := r.diffs.filter (fun x => decide (now < x.1 + 1000000000))
  if d.isEmpty then 0 else truncDiv (d.foldl (fun a x => a + x.2) 0) (1000 * d.length)

/-- A packet of a session path (R200 to R206, R211, R212). -/
def State.rxPacket (s : State) (v : RxIx) (p : PortIx) (b : Bytes) : State :=
  let f := s.pN P.ETH_RX_FORMAT v.1
  let w := s.pN P.ETH_RX_WIDTH v.1
  let h := s.pN P.ETH_RX_HEIGHT v.1
  let bad (s : State) : State := s.modRx v (fun r => { r with badPkt := vmod r.badPkt p (inc 32 ·) })
  if s.dev = .boot then s
  else
  let s := s.modRx v (fun r => { r with lastAt := s.now })
  match parseRtp b with
  | none => bad s
  | some k =>
    if k.pt ≠ s.pN P.ETH_RX_PT v.1 then bad s
    else
      let s := s.modRx v (fun r => { r with ssrc := some (r.ssrc.getD k.ssrc) })
      if (s.rx[v]).ssrc ≠ some k.ssrc ∨ k.srds.length = 0 ∨ 3 < k.srds.length ∨ k.field = true ∨
          k.srds.all (srdOk f w h) = false then bad s
      else
        let n := unwrapNum (s.rx[v]).hi k.num
        let r := s.rx[v]
        let below : Bool := match r.hi with
          | none => false
          | some hi => decide (n + 32768 < hi)
        let both := s.pN P.ETH_RX_PATHS v.1 == 3
        if below = true then
          if spanHas n r.wrote then s else s.modRx v (fun r => { r with late := vmod r.late p (inc 32 ·) })
        else
          let s := if both then s.modRx v (·.arrive n p.1 s.now) else s
          if both = true ∧ spanHas n r.seen = true then s
          else
            let s := s.modRx v (fun r => let r := r.advance n
              { r with seen := addSpan n (n + 1) r.seen })
            match s.frameFor v k.ts with
            | (s, none) => s
            | (s, some o) =>
              match s.surface o.handle with
              | none => s
              | some (_, x) =>
                let s := (k.srds.foldl (fun s d => s.writeSrd f x d) s).modRx v (fun r => { r with wrote := addSpan n (n + 1) r.wrote })
                let gpr := groupsPerRow f w
                let g := pixelGroup f
                let cover := k.srds.foldl (fun c d =>
                  let a := d.row / g.lines * gpr + d.off / g.px
                  addSpan a (a + d.len / g.bytes) c) o.cover
                let o := { o with cover := cover, markAt := if k.marker then some (o.markAt.getD s.now) else o.markAt }
                let s := s.modRx v (fun r => { r with frames := r.frames.map (fun x => if x.ts = o.ts then o else x) })
                if cover = [(0, gpr * groupRows f h)] then s.finishFrame v o else s

/-- VIDEO_PACKET: the oldest frame of the memory path of a port. At the instant of an edge it waits for the edge's latch
(05 R295). DEDUCED: assumption 33. -/
def execVideoPacket (t : Nat) (p : PortIx) (s : State) : Res :=
  let s := s.atTime t
  if s.tickRuns && s.tick.nextEdge == s.now then .next s
  else match s.takeFrame p isVideo with
  | some (.video vs d, s) => .next (vs.foldl (fun s v => if s.pathOn v.1 p.1 then s.rxPacket v p d else s) s)
  | some (_, s) => .next s
  | none => .next s

/-- RX_FRAME_TIMEOUT (R205): open frames whose marker or later frame came ETH_RX_TIMEOUT ago are incomplete. -/
def execRxFrameTimeout (t : Nat) (v : RxIx) (s : State) : Res :=
  let s := s.atTime t
  let limit := s.pN P.ETH_RX_TIMEOUT v.1 * 1000000
  let overR (q : Option Nat) : Bool := match q with
    | none => false
    | some a => decide (a + limit ≤ s.now)
  .next ((s.rx[v]).frames.foldl (fun s o => if overR o.markAt || overR o.laterAt then s.discardFrame v o else s) s)

/-- RX_SSRC_TIMEOUT (R200): no packet for 1 s, and the session learns its SSRC again. -/
def execRxSsrcTimeout (t : Nat) (v : RxIx) (s : State) : Res :=
  let s := s.atTime t
  .next (if (s.rx[v]).lastAt + 1000000000 ≤ s.now then
    s.modRx v (fun r => { r with ssrc := none, hi := none, lo := 0, seen := [], wrote := [] }) else s)

/-- A commit edge disables a session (R209): its open frames are discarded; the current surface stays. -/
def State.rxDisable (s : State) (v : RxIx) : State :=
  let s := (s.rx[v]).frames.foldl (fun s o => s.discardFrame v o) s
  s.modRx v (fun r => { r with ssrc := none, last := none, noSurf := [], hi := none, lo := 0, seen := [], wrote := [] })

end Sys2Proof.Machine
end

