-- ==== Sys2Proof/Machine/Readout.lean ====
section
/-! DEFINITION. What the parameters read: every read-only parameter, and PARAM_GET (00 R4, R14, R964; 03 R148, R149). -/

namespace Sys2Proof.Machine

/-! ## Commit records of the flash (19 Table 19-9) -/

/-- A valid commit record. -/
def recordOk (b : Bytes) : Bool := b.length == 68 && le32 b 0 == 0x57435231 && le32 b 64 == crc32 (b.take 64)
def recCounter (b : Bytes) : Nat := le32 b 4
def recBankB (b : Bytes) : Bool := u8 b 8 == 1
def recLength (b : Bytes) : Nat := le32 b 12
def recHash (b : Bytes) : Bytes := slice b 16 48

/-- The current record: the valid one of higher COUNTER (R866). -/
def Flash.current (f : Flash) : Option (Fin 2) :=
  match recordOk f.recs[0], recordOk f.recs[1] with
  | true, true => some (if recCounter f.recs[0] < recCounter f.recs[1] then 1 else 0)
  | true, false => some 0
  | false, true => some 1
  | false, false => none

/-- SYS_COMMIT_COUNT. -/
def Flash.commitCount (f : Flash) : Nat :=
  match f.current with
  | none => 0
  | some k => recCounter f.recs[k]

def fwCode : FwState → Nat
  | .idle => 0
  | .opened => 1
  | .committed => 2

def ResetCause.code : ResetCause → Nat
  | .powerOn => 0
  | .resetN => 1
  | .watchdog => 2
  | .reset => 3
  | .brownout => 4
  | .bootTimeout => 5
  | .restore => 6

/-! ## Read-only values, group by group -/

/-- TCK_PERIOD_NS: the running period within the range of Table 2-1. -/
def Tick.periodNs (k : Tick) : Nat := max 4166666 (min 41666667 k.period)

def State.ro01 (s : State) (n ix : Nat) : PVal :=
  let q : SessIx := Fin.ofNat 4 ix
  let x := s.acm.sess[q]
  match n with
  | 0x01 => .num sysPart
  | 0x02 => .num (b2n Config.variantNx)
  | 0x03 => .num sysStepping
  | 0x04 => .num sysFwRelease
  | 0x05 => .num Config.dieId.toNat
  | 0x11 => .num s.par.budgetActive
  | 0x12 => .num s.par.budgetStaged
  | 0x13 => .num s.capacityPerTick
  | 0x14 => .num s.flt.nActive
  | 0x15 => .num s.flt.nSpare
  | 0x23 => .num (match s.acm.keys[q] with
      | none => 0
      | some k => natBE ((sha256 k).take 4))
  | 0x24 => .num s.acm.epoch
  | 0x25 => .num (if !x.open_ then 0 else if x.commission then 2 else 1)
  | 0x26 => .num x.next
  | 0x27 => .num x.authFail
  | 0x28 => .num s.acm.drops
  | 0x30 => .num s.pwr.cause.code
  | 0x32 => .num (b2n s.pwr.bankB)
  | 0x33 => .num s.fw.commitCount
  | 0x34 => .tbl ([byteOf (fwCode s.fw.fw), byteOf (b2n s.fw.fwBankB), 0#8, 0#8] ++ toLE 4 s.fw.fwLen ++ toLE 4 s.fw.fwDone ++ zeros 4)
  | 0x35 => .num s.pwr.holds
  | 0x36 => .num s.pwr.bootMs
  | 0x37 => .num s.rails
  | _ => .num 0

def State.ro02 (s : State) (n ix : Nat) : PVal :=
  let k : PllIx := Fin.ofNat 20 ix
  match n with
  | 0x10 => .tbl (s.clkStatus k)
  | 0x11 => .num (s.clk.pll[k]).unlocks
  | 0x12 => let (hz, d) := s.ropeHz; .num (hz / d : Nat)
  | 0x13 => .num s.clk.level
  | 0x14 => .num s.clkRef
  | _ => .num 0

def tckCode : TckStatus → Nat
  | .free => 0
  | .locked => 1
  | .holdover => 2
  | .converging => 3

/-- TCK_SOLVE_NS. -/
def State.solveNs (s : State) : Nat := (s.tick.solves.filter (fun e => Nat.blt s.tick.count (e.1 + 256))).foldl (fun a e => max a e.2) 0

def State.ro03 (s : State) (n ix : Nat) : PVal :=
  match n with
  | 0x06 => .num s.tick.count
  | 0x07 => .num (tckCode s.tick.status)
  | 0x08 => .num s.tick.periodNs
  | 0x09 => .num (s.tick.periodNs * 85 / 100 : Nat)
  | 0x0A => .num s.tick.overruns
  | 0x0B => .num s.tick.holdTicks
  | 0x0C => .num (s.tick.commitAt.getD 0)
  | 0x0D => .num (deviceDigest s.par.accA)
  | 0x0E => .num (deviceDigest s.par.accS)
  | 0x0F => .num (groupDigest s.par.accA ix)
  | 0x10 => .num s.par.recompAt
  | 0x11 => .num s.solveNs
  | _ => .num 0

def State.ro04 (s : State) (n ix : Nat) : PVal :=
  let p : PortIx := Fin.ofNat 2 ix
  let x := s.eth.ports[p]
  let y := s.eth.ports[(Fin.ofNat 2 (ix / 8))]
  let k : Fin 8 := Fin.ofNat 8 ix
  let v : RxIx := Fin.ofNat 8 ix
  let r := s.rx[v]
  let w := s.rx[(Fin.ofNat 8 (ix / 2))]
  match n with
  | 0x0B => .num (Config.mac p).toNat
  | 0x0C => .num (linkCode x.phase)
  | 0x0D => .num x.fecCorr
  | 0x0E => .num x.fecUncorr
  | 0x0F => .num x.badFrames
  | 0x10 => .num y.drops[k]
  | 0x11 => .num y.policed[k]
  | 0x12 => .num x.haltDrops
  | 0x2B => .num r.current
  | 0x2C => .num r.framesOk
  | 0x2D => .num r.discards
  | 0x2E => .num r.nosurfs
  | 0x2F => .num w.badPkt[p]
  | 0x30 => .num w.late[p]
  | 0x31 => .num r.lost
  | 0x32 => .num (r.skew s.now)
  | 0x46 => .num (ptpStateCode s.ptp.state)
  | 0x47 => .num (match s.ptp.sel with
      | none => 0
      | some (q, _) => q.1 + 1)
  | 0x48 => .num s.ptp.gm
  | 0x49 => .num s.ptp.offset
  | 0x4A => .num s.ptp.meanDelay
  | 0x4B => .num (if s.ptp.state = .holdover then (s.now - s.ptp.holdSince) / 1000000 else 0 : Nat)
  | _ => .num 0

/-- MEM_ERRLOG: the ring by position (R259). -/
def Mem.errRing (m : Mem) : Bytes :=
  (List.range 64).flatMap (fun i => (m.errLog[(m.errCount + 63 - i) % 64]?).getD (zeros 32))

def State.ro05 (s : State) (n ix : Nat) : PVal :=
  let l : LpIx := Fin.ofNat 8 ix
  let x : Fin 2 := Fin.ofNat 2 ix
  let q : SessIx := Fin.ofNat 4 ix
  match n with
  | 0x01 => .num s.mem.density
  | 0x10 => .num (b2n s.mem.failed[(Fin.ofNat 4 ix)])
  | 0x11 => .num s.capacity
  | 0x12 => .num (s.unallocated false)
  | 0x13 => .num (s.unallocated true)
  | 0x14 => .num (s.mem.ch[l]).rate
  | 0x15 => .num (s.mem.ch[l]).ce
  | 0x16 => .num (s.mem.ch[l]).ue
  | 0x17 => .tbl s.mem.errRing
  | 0x18 => .num (s.mem.errCount % 64 : Nat)
  | 0x19 => .num s.mem.qce[x]
  | 0x1A => .num s.mem.que[x]
  | 0x1B => .num (qdrBytes (s.pN P.MEM_QDR_SIZE ix) - qdrOccupied s.par.active ix : Nat)
  | 0x20 => .num s.surf.tbl.length
  | 0x21 => .num s.surf.drops[q]
  | 0x22 => .num s.surf.busy[q]
  | _ => .num 0

def State.ro06 (s : State) (n ix : Nat) : PVal :=
  let h : HeadIx := Fin.ofNat 4 ix
  let c := s.comp[h]
  let d := s.comp[(Fin.ofNat 4 (ix / 16))]
  let j : Fin 16 := Fin.ofNat 16 ix
  let b := s.par.active
  match n with
  | 0x10 => .tbl (planBytes h.1 c.plan)
  | 0x11 => .num d.latched[j]
  | 0x12 => .num d.held[j]
  | 0x13 => .num d.noSrc[j]
  | 0x14 => .num d.mismatch[j]
  | 0x15 => .num c.uncorr
  | 0x16 => .num c.atcErr
  | 0x17 => .num (if s.typeOf h = typeNone then 0 else s.composeCost b h * frameDen b h.1 / frameNum b : Nat)
  | 0x18 => .num c.legalCrc
  | _ => .num 0

def State.ro07 (s : State) (n : Nat) : PVal :=
  match n with
  | 0x02 => .tbl s.codec.result
  | 0x03 => .num s.codec.jobs
  | 0x04 => .num s.codec.raw
  | 0x05 => .num s.codec.failed
  | _ => .num 0

def State.ro08 (s : State) (n ix : Nat) : PVal :=
  let h : HeadIx := Fin.ofNat 4 ix
  match n with
  | 0x10 => .tbl cmfTable
  | 0x11 => .tbl (s.estBytes (Fin.ofNat 48 ix))
  | 0x12 => .tbl (solveBytes (s.col[h]).cur)
  | 0x13 => .num (s.col[h]).fails
  | _ => .num 0

def State.ro09 (s : State) (n ix : Nat) : PVal :=
  let h : HeadIx := Fin.ofNat 4 ix
  let p := s.pln[h]
  match n with
  | 0x10 => .tbl (planeTiming s.par.active h.1)
  | 0x11 => .tbl (s.planeEffective h)
  | 0x12 => .num (((assocGet h.1 s.surf.extra).map (·.2)).getD 0)
  | 0x13 => .num p.underruns
  | 0x14 => .num p.checkErr
  | 0x15 => .num p.rdyLoss
  | _ => .num 0

def State.ro0A (s : State) (n ix : Nat) : PVal :=
  let h : HeadIx := Fin.ofNat 4 ix
  let x := s.scn[h]
  match n with
  | 0x20 => .num (fastCode x.st)
  | 0x21 => .tbl (s.scanTiming h)
  | 0x22 => .num x.underruns
  | 0x23 => .num x.notReached
  | 0x24 => .num x.uncorr
  | 0x25 => .num x.legalErr
  | 0x26 => .num x.fails
  | _ => .num 0

def State.ro0B (s : State) (n ix : Nat) : PVal :=
  let c : ChanIx := Fin.ofNat 48 ix
  match n with
  | 0x20 => .tbl (s.emtStatus c)
  | 0x21 => .num (s.em[c]).faults
  | 0x22 => .num (s.em[c]).probes
  | 0x42 => .tbl s.ancStatus
  | 0x43 => .num (s.em[c]).clamps
  | _ => .num 0

def State.ro0C (s : State) (n ix : Nat) : PVal :=
  let k : SlotIx := Fin.ofNat 128 ix
  match n with
  | 0x10 => let (a, d) := blyLoad s.par.active; .num (a / d : Nat)
  | 0x11 => .tbl (s.blyStatus k)
  | 0x12 => .num (s.bly.slot[k]).handovers
  | _ => .num 0

def State.ro0D (s : State) (n ix : Nat) : PVal :=
  let h : HeadIx := Fin.ofNat 4 ix
  let x := s.head[h]
  let r := (s.head[(Fin.ofNat 4 (ix / 16))]).regions[(Fin.ofNat 16 ix)]
  match n with
  | 0x10 => .tbl (s.hdtStatus h)
  | 0x11 => .num x.frames
  | 0x12 => .num r.sig
  | 0x13 => .num r.freezes
  | 0x14 => .num x.syncMiss
  | 0x15 => .num x.shadowErr
  | 0x16 => .num x.underruns
  | _ => .num 0

def State.ro0E (s : State) (n ix : Nat) : PVal :=
  let h : HeadIx := Fin.ofNat 4 ix
  let g : HeadIx := Fin.ofNat 4 (ix / 16384)
  let t := s.tch[h]
  match n with
  | 0x10 => .tbl (s.touchStatus h)
  | 0x11 => .tbl (s.touchMap g (ix % 16384))
  | 0x12 => .tbl (s.touchBg g (ix % 16384))
  | 0x13 => .num t.films
  | 0x14 => .num t.late
  | 0x15 => .num t.blinds
  | _ => .num 0

/-- Island values read 0 on the NX variant, where it is fused off (R737). -/
def State.ro0F (s : State) (n ix : Nat) : PVal :=
  let h : HeadIx := Fin.ofNat 4 ix
  let x := s.isl
  let nx := Config.variantNx
  let v (k : Nat) : PVal := .num (if nx then 0 else k : Nat)
  let t (b : Bytes) : PVal := .tbl (if nx then zeros b.length else b)
  match n with
  | 0x01 => .num s.islState
  | 0x02 => v x.fwVersion
  | 0x03 => v x.fwCrc
  | 0x04 => v x.slot
  | 0x05 => v x.audit.length
  | 0x06 => t ((x.audit[ix]?).getD (zeros 16))
  | 0x07 => t x.metroBytes
  | 0x08 => t x.indicationBytes
  | 0x09 => .tbl (windowBytes s.lw.win[h])
  | 0x0A => v (x.heads[h]).expect
  | 0x0B => v (x.heads[h]).mismatches
  | 0x0C => v x.legalBits
  | 0x0D => v (x.bridgeBits h)
  | _ => .num 0

def casRoleCode : CasRole → Nat
  | .alone => 0
  | .master => 1
  | .slave => 2
  | .waiting => 3

def casLinkCode : CasLink → Nat
  | .down => 0
  | .training => 1
  | .up => 2

def State.ro10 (s : State) (n ix : Nat) : PVal :=
  let p := s.cas.port[(Fin.ofNat 2 ix)]
  match n with
  | 0x10 => .num (casRoleCode s.cas.role)
  | 0x11 => .num (s.cas.master.getD 255)
  | 0x12 => .num s.cas.epoch
  | 0x13 => .tbl s.topology
  | 0x14 => .num (casLinkCode p.link)
  | 0x15 => .num p.delay
  | 0x16 => .num p.errs
  | 0x17 => .num s.cas.split
  | 0x18 => .num p.fwdDrops
  | 0x19 => .num (s.cas.seam[(Fin.ofNat 8 ix)]).late
  | 0x1A => .num s.cas.aborts
  | 0x1B => .num s.cas.lastAbort
  | _ => .num 0

def State.ro11 (s : State) (n ix : Nat) : PVal :=
  let d := s.thm.die[(Fin.ofNat 24 ix)]
  match n with
  | 0x20 => .num (s.thm.rem[(Fin.ofNat 16 ix)]).good
  | 0x21 => .num d.temp
  | 0x22 => .num (s.thmState (Fin.ofNat 16 ix))
  | 0x23 => .num (d.kind + 1)
  | 0x24 => .num s.thm.throttles
  | _ => .num 0

def State.ro12 (s : State) (n : Nat) : PVal :=
  match n with
  | 0x20 => .tbl s.lmp.faultBytes
  | 0x21 => .num s.lmp.swaps
  | 0x22 => .num s.lmp.faults
  | _ => .num 0

/-- A page of FLT_LOG: the ring by position (17 R796, R804). -/
def Flt.page (x : Flt) (page : Nat) : Bytes :=
  (List.range 32).flatMap (fun i => match x.log.find? (fun e => (e.seq + 255) % 256 == 32 * page + i) with
    | none => zeros 32
    | some e => e.bytes)

def State.ro13 (s : State) (n ix : Nat) : PVal :=
  match n with
  | 0x01 => .tbl (s.flt.page ix)
  | 0x02 => .num (s.flt.seq % 256 : Nat)
  | 0x03 => .num s.flt.seq
  | 0x05 => .num s.standing
  | 0x06 => .num s.flt.safeCause
  | 0x07 => .num s.flt.failedMask
  | 0x08 => .num s.pllFailedMask
  | 0x09 => .num s.flt.spared
  | _ => .num 0

/-- The value a read-only parameter reports. -/
def State.readRo (s : State) (id ix : Nat) : PVal :=
  let n := id % 256
  match id / 256 with
  | 0x01 => s.ro01 n ix
  | 0x02 => s.ro02 n ix
  | 0x03 => s.ro03 n ix
  | 0x04 => s.ro04 n ix
  | 0x05 => s.ro05 n ix
  | 0x06 => s.ro06 n ix
  | 0x07 => s.ro07 n
  | 0x08 => s.ro08 n ix
  | 0x09 => s.ro09 n ix
  | 0x0A => s.ro0A n ix
  | 0x0B => s.ro0B n ix
  | 0x0C => s.ro0C n ix
  | 0x0D => s.ro0D n ix
  | 0x0E => s.ro0E n ix
  | 0x0F => s.ro0F n ix
  | 0x10 => s.ro10 n ix
  | 0x11 => s.ro11 n ix
  | 0x12 => s.ro12 n
  | 0x13 => s.ro13 n ix
  | _ => .num 0

/-- The value bytes of an instance as PARAM_GET gives them: the active value, the staged one when asked for (R14). -/
def State.readParam (s : State) (d : ParamDef) (ix : Nat) (staged : Bool) : Bytes :=
  valueBytes d (if d.cls = .ro then s.readRo d.id ix else bankGet (if staged then s.par.staged else s.par.active) d.id ix)

/-! ## PARAM_GET (R148, R149) -/

/-- An entry of a reply in the layout of Table 3-8. -/
def entryBytes (id ix : Nat) (v : Bytes) : Bytes := toBE 2 id ++ toBE 2 ix ++ toBE 2 v.length ++ zeros 2 ++ v ++ zeros (roundUp v.length 4 - v.length)

/-- The entry a request's bytes ask for; none for an unknown ID or index. -/
def State.getEntry (s : State) (e : Bytes) : Option Bytes :=
  match paramDef (be16 e 0) with
  | none => none
  | some d => if d.ix.has (be16 e 2) then some (entryBytes d.id (be16 e 2) (s.readParam d (be16 e 2) (bit (u8 e 4) 0))) else none

/-- PARAM_GET (03 R149). DEDUCED: assumption 18. DESIGN CHOICE: assumption 96. -/
def paramGet (s : State) (m : Msg) : Answer :=
  let b := m.body
  let n := be16 b 0
  if b.length ≠ 4 + 8 * n then (s, .errParam, toBE 2 (min n ((b.length - 4) / 8)))
  else if n = 0 then refuse s .errRange
  else
    let es := (chunks 8 n (b.drop 4)).map s.getEntry
    match es.findIdx? (·.isNone) with
    | some i => (s, .errParam, toBE 2 i)
    | none =>
      let r := toBE 2 n ++ zeros 2 ++ (es.filterMap id).flatten
      if 8192 < r.length then refuse s .errRange else (s, .ok, r)

/-- PARAM_GET (R14, R149). -/
def execParamGet (s : State) : Res := runMessage (isType typParamGet) paramGet s

end Sys2Proof.Machine
end

