-- ==== Sys2Proof/Machine/Params.lean ====
section
/-! DEFINITION. PARAM_SET: the checks of its entries, its effects, and the special parameters that have a row of their own
(00 R8 to R13; 02 R76, R77; 03 R144 to R148, R959; and the chapters that state what a write is refused for). -/

namespace Sys2Proof.Machine

/-! ## Tables refused at the write -/

/-- CMP_LAYER (06 R347): reserved bits and codes, those of FORMAT too; a disabled PLANAR layer may hold the FORMAT of the reset
value, and is not checked further. DEDUCED: assumption 101. -/
def layerOk (b : Bytes) : Bool :=
  let l := layerOf b
  let s := fmtSampling l.format
  bits (u8 b 0) 7 5 == 0 && Nat.ble l.kind 2 && Nat.ble l.eotf 3 && Nat.ble l.csc 4 && Nat.ble l.gamut 2 && Nat.ble l.filter 2 &&
    Nat.ble l.alpha 4096 && u8 b 31 == 0 &&
    (if l.kind = 0 then fmtOk l.format || (!l.enable && l.format == 0) else formatBytes l.format != 0) &&
    (!l.enable ||
      (l.sw != 0 && l.sh != 0 && l.dw != 0 && l.dh != 0 && Nat.ble l.sw (8 * l.dw) && Nat.ble l.sh (8 * l.dh) &&
        Nat.ble l.dw (16 * l.sw) && Nat.ble l.dh (16 * l.sh) &&
        (l.kind != 0 || ((Nat.ble 2 s || l.sx % 2 == 0) && (s != 0 || l.sy % 2 == 0)))))

/-- CMP_CSC and CMP_GAMUT (06 Table 6-3): limits of the offsets, and of EXPAND. -/
def matOk (b : Bytes) (lo hi : Int) (expand : Nat) : Bool :=
  let m := matOf b
  m.m.all (fun v => decide (-131072 ≤ v) && decide (v ≤ 131071)) && m.o.all (fun v => decide (lo ≤ v) && decide (v ≤ hi)) &&
    Nat.ble (u8 b 48) expand && (b.drop 49).all (· == 0#8)

/-- CMP_FILTER (06 R332). -/
def filterOk (b : Bytes) : Bool := (List.range 64).all (fun ph => (customTaps b ph).foldl (· + ·) 0 == 4096)

/-- Twice the signed area of three points. -/
def area2 (a b c : Nat × Nat) : Int :=
  ((b.1 : Int) - a.1) * ((c.2 : Int) - a.2) - ((c.1 : Int) - a.1) * ((b.2 : Int) - a.2)

/-- COL_TARGET (08 R430, Table 8-3). -/
def targetOk (b : Bytes) : Bool :=
  let p (k : Nat) : Nat × Nat := (le16 b (4 * k), le16 b (4 * k + 2))
  let d := area2 (p 1) (p 2) (p 3)
  let w := [area2 (p 0) (p 1) (p 2), area2 (p 0) (p 2) (p 3), area2 (p 0) (p 3) (p 1)]
  (List.range 4).all (fun k => (p k).2 != 0 && Nat.ble ((p k).1 + (p k).2) 65536) &&
    decide (2 * 2 ^ 32 ≤ 1000 * d.natAbs) && (w.all (fun v => decide (0 ≤ v)) || w.all (fun v => decide (v ≤ 0))) &&
    Nat.ble 1 (le32 b 16) && Nat.ble (le32 b 16) 100000000 && le32 b 20 == 0

/-- Strictly rising. -/
def strictUp : List Nat → Bool
  | a :: b :: r => Nat.blt a b && strictUp (b :: r)
  | _ => true

/-- COL_CAL (08 R450, Table 8-5). -/
def calOk (b : Bytes) : Bool :=
  let k := calOf b
  let nm (v : Nat) : Bool := Nat.ble 6080 v && Nat.ble v 12480
  b.all (· == 0#8) ||
    (nm k.lref && (Nat.ble k.tsense 15 || k.tsense == 0xFF) && Nat.ble k.wmode 2 && strictUp [0, k.gain 3, k.gain 2, k.gain 1] &&
      le16 b 22 == 0 && le16 b 62 == 0 &&
      (k.wmode != 0 ||
        (Nat.blt k.rmin k.rmax && k.curve.all nm && (strictUp k.curve || strictUp k.curve.reverse))))

/-- EMT_BIND (11 R553). -/
def bindOk (v : Nat) : Bool := if bit v 7 then bits v 6 5 == 0 && bits v 2 0 != 7 else v == 0

/-- HDT_GPIO (13 Table 13-3). -/
def gpioValueOk (v : Nat) : Bool := if bit v 7 then bits v 3 2 == 0 else v == 0

/-- HDT_REGION (13 R654). -/
def regionOk (b : Bytes) : Bool :=
  let r := regionOf b
  if r.mode = 0 then b.all (· == 0#8)
  else
    Nat.ble r.mode 2 && Nat.ble r.action 1 && bits (u8 b 2) 7 1 == 0 && u8 b 3 == 0 && le16 b 14 == 0 && le32 b 20 == 0 &&
      r.w != 0 && r.h != 0 && (r.n != 0) == (r.mode == modeLive) && (!r.learn || r.mode == modeStatic) &&
      (r.ref == 0 || (r.mode == modeStatic && !r.learn))

/-- CAS_SEAM_TX and CAS_SEAM_RX (16 Table 16-8). -/
def seamTxOk (b : Bytes) : Bool :=
  let x := seamTxOf b
  bits (u8 b 0) 7 1 == 0 && Nat.ble x.head 3 && Nat.ble x.dest 7 && Nat.ble x.entry 7 && le32 b 12 == 0 &&
    (!x.enable || (Nat.ble 1 x.w && Nat.ble x.w 512 && Nat.ble 1 x.h && Nat.ble x.h 2560))

def seamRxOk (b : Bytes) : Bool := bits (u8 b 0) 7 1 == 0 && Nat.ble (u8 b 1) 7 && le16 b 2 == 0 && le32 b 12 == 0

/-- CAS_SHARED (16 R749). -/
def sharedOk (v : Nat) : Bool := !bit v 0 && !bit v 0x10 && v / 2 ^ 0x14 == 0

/-- MEM_MIRROR_MB (05 R970). -/
def State.mirrorOk (s : State) (mb : Nat) : Bool :=
  decide (2 * (mb * 1048576) < fittedBytes s.mem.density) &&
    (s.allocs false).all (fun (o, n) => decide (o + n < capacityWith s.mem.density mb)) &&
    (s.allocs true).all (fun (o, n) => decide (o + n ≤ mb * 1048576))

/-- BLY_PROFILE (12 Table 12-7). -/
def profileOk (b : Bytes) : Bool :=
  if u8 b 0 = 1 then sawFieldsOk b
  else
    let p := profOf b
    u8 b 0 == 0 && u8 b 1 == 0 && le16 b 2 == 0 && le32 b 8 == 0 && le32 b 24 == 0 && le32 b 28 == 0 && p.tgt.isFinite &&
      flLe (flAbs p.tgt) (dOf 1) && [p.vmax, p.amax, p.jmax].all (fun v => v.isFinite && flLt (dOf 0) v)

/-- A mesh page of a head that the staged configuration makes of that type: every node of the mesh with the page in it is judged
(09 R463, 10 R529). -/
def planeMeshOk (b : Bank) (ix : Nat) (t : Bytes) : Bool :=
  bkN b P.HDT_TYPE (ix / 16384) != typePlane || meshNear (bankSet b P.PLN_MESH ix (.tbl t)) P.PLN_MESH (ix / 16384) 48 [0]

def scanMeshPageOk (b : Bank) (ix : Nat) (t : Bytes) : Bool :=
  bkN b P.HDT_TYPE (ix / 16384) != typeScan || scanMeshOk (bankSet b P.SCN_MESH ix (.tbl t)) (ix / 16384)

/-- Does a table's write pass the checks of its chapter? The staged values stand as the earlier entries left them.
DEDUCED: assumption 62. -/
def State.tableOk (s : State) (id ix : Nat) (b : Bytes) : Bool :=
  let st := s.par.staged
  if id = P.SYS_WORKPLAN then workplanOk b
  else if id = P.ETH_DSCP_MAP then b.all (fun x => decide (x.toNat < 8))
  else if id = P.ETH_RX_SURF then ((List.range 4).filter (fun k => le32 b (4 * k) != 0)).length != 1
  else if id = P.CMP_BG then (List.range 3).all (fun k => decide (le32 b (4 * k) < 4194304))
  else if id = P.CMP_LAYER then layerOk b
  else if id = P.CMP_CSC then matOk b (-131072) 131071 1
  else if id = P.CMP_GAMUT then matOk b (-4194304) 4194303 0
  else if id = P.CMP_FILTER then filterOk b
  else if id = P.COL_TARGET then targetOk b
  else if id = P.COL_CAL then calOk b
  else if id = P.PLN_MESH then planeMeshOk st ix b
  else if id = P.SCN_MESH then scanMeshPageOk st ix b
  else if id = P.SCN_PROBE then
    Nat.ble (u8 b 0) 2 && u8 b 1 == 0 && le32 b 4 == 0 && (u8 b 0 == 0 || threshOk st ix b)
  else if id = P.BLY_SLOT then descOk b
  else if id = P.BLY_COEF then coefOk (descAt st ix).law b
  else if id = P.BLY_PROFILE then b.all (· == 0#8) || profileOk b
  else if id = P.HDT_REGION then regionOk b
  else if id = P.CAS_SEAM_TX then seamTxOk b
  else if id = P.CAS_SEAM_RX then seamRxOk b
  else true

/-- ANC_SEAL = 1 (11 R575). DEDUCED: assumption 19. -/
def State.sealOk (s : State) : Bool :=
  (List.range 48).all (fun c =>
    (bkN s.par.active P.EMT_MAXCODE c == 0 && bkN s.par.active P.EMT_MAXBIAS c == 0) || bkN s.par.active P.EMT_MAXPWR c != 0)

/-- QDR sizes of a STBY write (05 R275): the active values, and those a pending commit carries. -/
def State.qdrWriteOk (s : State) (id ix : Nat) (v : PVal) : Bool :=
  qdrFits (bankSet s.par.active id ix v) && (s.tick.commitAt.isNone || qdrFits (bankSet s.par.staged id ix v))

/-- Does a value pass the checks beside its Range? DEDUCED: assumption 19. DEDUCED: assumption 30. -/
def State.valueOk (s : State) (d : ParamDef) (ix : Nat) (v : PVal) : Bool :=
  match v with
  | .tbl b => s.tableOk d.id ix b
  | .num i =>
    let n := i.toNat
    if d.id = P.EMT_BIND then bindOk n
    else if d.id = P.ETH_IPMASK then (List.range 23).any (fun k => n + 2 ^ (24 - k) == 2 ^ 32)
    else if d.id = P.ETH_RX_GROUP then isMulticast n || n == bkN s.par.active P.ETH_IPADDR (ix % 2)
    else if d.id = P.HDT_GPIO then gpioValueOk n
    else if d.id = P.CAS_SHARED then sharedOk n
    else if d.id = P.MEM_MIRROR_MB then s.mirrorOk n
    else if d.id = P.MEM_QDR_SIZE ∨ d.id = P.MEM_QDR_SEL then s.qdrWriteOk d.id ix v
    else if d.id = P.FLT_PIN_MASK then bit n 0
    else if d.id = P.ANC_SEAL then n != 1 || s.sealOk
    else true

/-! ## Entries (03 Table 3-8) -/

/-- An entry: ID, index and VALUE. -/
structure Entry where
  id    : Nat
  ix    : Nat
  value : Bytes
  deriving DecidableEq, Repr

/-- Read COUNT entries: the entries, or the position of the one that the bytes do not hold, or of what follows the last.
DESIGN CHOICE: assumption 17. -/
def entriesOf : Nat → Nat → Bytes → Except Nat (List Entry)
  | 0, i, b => if b.isEmpty then .ok [] else .error i
  | n + 1, i, b =>
    let len := be16 b 4
    let size := 8 + roundUp len 4
    if b.length < 8 ∨ b.length < size then .error i
    else match entriesOf n (i + 1) (b.drop size) with
      | .error j => .error j
      | .ok r => .ok (⟨be16 b 0, be16 b 2, slice b 8 len⟩ :: r)

/-- The Anchor limits and the seal, which no write changes once sealed (11 R574). DEDUCED: assumption 19. -/
def anchorParams : List Nat := [P.EMT_MAXCODE, P.EMT_MAXBIAS, P.EMT_MAXPWR, P.ANC_MINAMP, P.ANC_SEAL]

/-- Does the device's state refuse a class (00 Table 0-6; 02 R76)? -/
def State.classRefused (s : State) (c : Cls) : Bool :=
  match c with
  | .stby => s.dev != .standby
  | .imm => s.dev == .hold || s.dev == .boot
  | .tick => s.dev == .hold || s.dev == .boot || s.tick.commitAt.isSome
  | .ro => false

/-- Does R77, with 06 R349, refuse an IMM or STBY write, after which `s` stands? DEDUCED: assumption 81. DEDUCED:
assumption 108. -/
def State.pendingRefused (s : State) (c : Cls) : Bool :=
  (c == .imm || c == .stby) && s.tick.commitAt.isSome &&
    !(s.admits s.par.active && s.composeFits s.par.active && s.admits s.par.staged && s.composeFits s.par.staged)

/-- Does a CAS_SEAM_RX name a stale handle (05 R280)? -/
def State.seamStale (s : State) (id : Nat) (b : Bytes) : Bool :=
  id == P.CAS_SEAM_RX && (seamPair b).any (fun h => h != 0 && (s.surface h).isNone)

/-- Check one entry and write it: the state after it, or the refusal. `was` says that the Anchor was sealed before. -/
def State.setEntry (s : State) (was : Bool) (q : SessIx) (e : Entry) : Except Status State :=
  match paramDef e.id with
  | none => .error .errParam
  | some d =>
    let v := valueOf d e.value
    if d.ix.has e.ix = false ∨ d.cls = .ro ∨ e.value.length ≠ d.len then .error .errParam
    else if was && anchorParams.contains d.id then .error .errAnchorLocked
    else if s.classRefused d.cls || (d.id == P.MEM_MAP && !s.surf.tbl.isEmpty) then .error .errState
    else if (match v with
        | .num i => !d.inRange i
        | .tbl _ => false) || !s.valueOk d e.ix v then .error .errRange
    else if s.seamStale d.id e.value then .error .errStaleHandle
    else
      let t := { s with par := s.par.write d e.ix v }
      if t.pendingRefused d.cls then .error .errBudget
      else match if d.id = P.ATC_JOB then s.jobRefusal q e.value else none with
        | some st => .error st
        | none => .ok t

/-- Write the entries in order; a refusal carries its position. -/
def State.setEntries (s : State) (was : Bool) (q : SessIx) : Nat → List Entry → Except (Status × Nat) State
  | _, [] => .ok s
  | i, e :: r =>
    match s.setEntry was q e with
    | .error st => .error (st, i)
    | .ok t => t.setEntries was q (i + 1) r

/-! ## Rules that judge the values after every entry (R959) -/

/-- The position of the last entry that writes a judged value; 0 where there is none. -/
def lastWriter (es : List Entry) (judged : Entry → Bool) : Nat :=
  (List.range es.length).foldl (fun a i => match es[i]? with
    | some e => if judged e then i else a
    | none => a) 0

def writesAny (ids : List Nat) (e : Entry) : Bool := ids.contains e.id

/-- R959. -/
def State.portsOk (s : State) : Bool :=
  let a := bkN s.par.active P.SYS_ACM_PORT
  let f := bkN s.par.active P.SYS_SURF_PORT
  a != f && (List.range 16).all (fun w => [s.par.active, s.par.staged].all (fun b => bkN b P.ETH_RX_UDP w != a && bkN b P.ETH_RX_UDP w != f))

/-- An address unicast in the subnet of a mask (04 R958). DEDUCED: assumption 30. -/
def unicastIn (ip mask : Nat) : Bool :=
  let host := 0xFFFFFFFF - mask
  ip / 2 ^ 24 != 0 && ip / 2 ^ 24 != 127 && decide (ip < 0xE0000000) && (ip &&& host) != 0 && (ip &&& host) != host

/-- R958. DEDUCED: assumption 30. -/
def State.addressesOk (s : State) : Bool :=
  (List.range 2).all (fun p =>
    let ip := bkN s.par.active P.ETH_IPADDR p
    let mask := bkN s.par.active P.ETH_IPMASK p
    let gw := bkN s.par.active P.ETH_GATEWAY p
    (ip == 0 || unicastIn ip mask) &&
      (gw == 0 || (ip != 0 && unicastIn gw mask && (gw &&& mask) == (ip &&& mask) && gw != ip)))

/-- 18 R826. -/
def State.spreadOk (s : State) : Bool :=
  (List.range 2).all (fun e => bkN s.par.active P.CLK_SSC_MODE e != 2 || Nat.ble (bkN s.par.active P.CLK_SSC_DEPTH e) 50)

/-- 20 R892. -/
def State.thresholdsOk (s : State) : Bool :=
  let b := s.par.active
  (List.range 16).all (fun i => decide (bkI b P.THM_WARN i < bkI b P.THM_THROT i) && decide (bkI b P.THM_THROT i < bkI b P.THM_CRIT i)) &&
    decide (bkI b P.THM_DIE_WARN < bkI b P.THM_DIE_THROT) && decide (bkI b P.THM_DIE_THROT + bkI b P.THM_DIE_STEP2 < 12500)

/-- R198: the format and size of a session in the staged values. -/
def State.sessionFormOk (s : State) (v : Nat) : Bool :=
  let f := bkN s.par.staged P.ETH_RX_FORMAT v
  fmtOk f && fmtEven f (bkN s.par.staged P.ETH_RX_WIDTH v) (bkN s.par.staged P.ETH_RX_HEIGHT v)

def formIds : List Nat := [P.ETH_RX_FORMAT, P.ETH_RX_WIDTH, P.ETH_RX_HEIGHT]
def ringIds : List Nat := P.ETH_RX_SURF :: formIds
def portIds : List Nat := [P.SYS_ACM_PORT, P.SYS_SURF_PORT, P.ETH_RX_UDP]
def addressIds : List Nat := [P.ETH_IPADDR, P.ETH_IPMASK, P.ETH_GATEWAY]
def spreadIds : List Nat := [P.CLK_SSC_MODE, P.CLK_SSC_DEPTH]
def thresholdIds : List Nat := [P.THM_WARN, P.THM_THROT, P.THM_CRIT, P.THM_DIE_WARN, P.THM_DIE_THROT, P.THM_DIE_STEP2]

/-- The refusal of a session's rule for the sessions that the message writes. -/
def sessionRefusal (es : List Entry) (ids : List Nat) (f : Nat → Option Status) : Option (Status × Nat) :=
  (List.range 8).findSome? (fun v =>
    let judged (e : Entry) : Bool := writesAny ids e && e.ix == v
    if es.any judged then (f v).map (fun st => (st, lastWriter es judged)) else none)

/-- A rule over the values of some parameters. -/
def valuesRefusal (es : List Entry) (ids : List Nat) (ok : Bool) : Option (Status × Nat) :=
  if es.any (writesAny ids) && !ok then some (.errRange, lastWriter es (writesAny ids)) else none

/-- The rules of R959 in the order it names them; the first that refuses decides. DESIGN CHOICE: assumption 97. -/
def State.standingRefusal (s : State) (es : List Entry) : Option (Status × Nat) :=
  (valuesRefusal es portIds s.portsOk).or <|
  (sessionRefusal es formIds (fun v => if s.sessionFormOk v then none else some .errRange)).or <|
  (sessionRefusal es ringIds (s.ringRefusal s.par.staged)).or <|
  (valuesRefusal es spreadIds s.spreadOk).or <|
  (valuesRefusal es thresholdIds s.thresholdsOk).or <|
  valuesRefusal es addressIds s.addressesOk

/-! ## Effects -/

def mapIds : List Nat := [P.PLN_MESH, P.PLN_UNIF, P.SCN_MESH, P.SCN_UNIF]

/-- A page of a head's mesh or uniformity map has been written: the copy in the QDR region follows (09 R459). -/
def State.mapWritten (s : State) (id ix : Nat) : State :=
  [1, 2].foldl (fun s k => if mapTable s.par.active (ix / 16384) k = id then s.copyPages (ix / 16384) k [ix % 16384] else s) s

/-- What follows from an accepted write of one entry, the banks written; `s0` is the state before the message. -/
def State.writeEffect (s : State) (s0 : State) (e : Entry) : State :=
  let n := natBE e.value
  if e.id = P.CLK_LOCK_WIN ∨ e.id = P.CLK_LOCK_N ∨ e.id = P.CLK_LOCK_M then s.lockRestart (Fin.ofNat 20 e.ix)
  else if spreadIds.contains e.id then s.retarget (Fin.ofNat 20 (e.ix + 1)) s.now
  else if e.id = P.ETH_MEDIA then
    if bkI s0.par.active e.id e.ix = bkI s.par.active e.id e.ix then s else (s.linkRestart (Fin.ofNat 2 e.ix)).pllRefresh
  else if e.id = P.ETH_AN then
    -- a port that is not up starts again with the new setting (04 R173)
    if bkI s0.par.active e.id e.ix = bkI s.par.active e.id e.ix ∨ (s.eth.ports[(Fin.ofNat 2 e.ix : PortIx)]).phase = .up then s else s.linkRestart (Fin.ofNat 2 e.ix)
  else if e.id = P.MEM_QDR_SIZE then s.pllRefresh
  else if mapIds.contains e.id then s.mapWritten e.id e.ix
  else if e.id = P.CAS_PORTS then
    ((allFin 2).foldl (fun s p => if bit n p.1 then s.travRelease p else s.travRestart p) s).pllRefresh
  else if e.id = P.CAS_DEVNUM then (allFin 2).foldl State.travRelease s
  else if e.id = P.EMT_FLTCLR then s.fltClear n
  else if e.id = P.TCH_RELEARN then s.touchRelearn n
  else if e.id = P.LMP_FLTCLR then s.lampClear e.value
  else if e.id = P.LMP_LEVELS then s.lampLevels e.value
  else s

/-- The payload of a PARAM_SET reply (R148). -/
def State.setReply (s : State) (failIndex : Nat) : Bytes :=
  toBE 2 failIndex ++ zeros 2 ++ toBE 8 (deviceDigest s.par.accS) ++ toBE 8 (deviceDigest s.par.accA)

/-- The entries of a message: its length (R961), then COUNT (R145), each with a FAIL_INDEX. DESIGN CHOICE: assumption 96. -/
def messageEntries (b : Bytes) : Except (Status × Nat) (List Entry) :=
  let n := be16 b 0
  if b.length < 4 then .error (.errParam, 0)
  else match entriesOf n 0 (b.drop 4) with
    | .error i => .error (.errParam, i)
    | .ok es => if n = 0 ∨ 256 < n then .error (.errRange, 0) else .ok es

/-- R396: ATC_JOB with another entry is refused at the first ATC_JOB. -/
def jobAlone (es : List Entry) : Option Nat := if 1 < es.length then es.findIdx? (fun e => e.id == P.ATC_JOB) else none

/-- Write a message's entries, by its checks in their order. -/
def State.setAll (s : State) (q : SessIx) (b : Bytes) : Except (Status × Nat) (State × List Entry) :=
  match messageEntries b with
  | .error x => .error x
  | .ok es =>
    match jobAlone es with
    | some i => .error (.errParam, i)
    | none =>
      match s.setEntries (s.pB P.ANC_SEAL) q 0 es with
      | .error x => .error x
      | .ok t =>
        match t.standingRefusal es with
        | some x => .error x
        | none => .ok (t, es)

/-- Parameters whose write places the QDR regions anew. -/
def qdrIds : List Nat := [P.MEM_QDR_SEL]

/-- PARAM_SET: all entries or none (R148); a codec job runs and its result is the status (07 R403). DESIGN CHOICE:
assumption 6. DEDUCED: assumption 18. -/
def paramSet (s : State) (m : Msg) : Answer :=
  match s.setAll m.session m.body with
  | .error (st, i) => (s, st, s.setReply i)
  | .ok (t, es) =>
    let t := es.foldl (fun t e => t.writeEffect s e) t
    let t := if es.any (writesAny qdrIds) then
        (t.moveQdr s.par.active t.par.active).copyChanged s.par.active t.par.active
      else t
    let t := { t with par := { t.par with budgetStaged := budgetOf t.par.staged } }.settle
    match es with
    | [e] =>
      if e.id = P.ATC_JOB then
        let (t, st) := t.runJob e.value m.seq
        (t, st, t.setReply 0xFFFF)
      else (t, .ok, t.setReply 0xFFFF)
    | _ => (t, .ok, t.setReply 0xFFFF)

/-! ## The rows: which parameter the chosen message writes -/

/-- The rows that PARAM_SET messages fall under. -/
inductive SetRow where
  | job (op : Nat)
  | seal
  | fltClear
  | relearn
  | lampClear
  | levels
  | lock
  | plain
  deriving DecidableEq, Repr

/-- The row of a message: that of the first special parameter in this order that it writes. DESIGN CHOICE: assumption 6. -/
def rowOf (b : Bytes) : SetRow :=
  match messageEntries b with
  | .error _ => .plain
  | .ok es =>
    match es.find? (fun e => e.id == P.ATC_JOB && Nat.ble (u8 e.value 0) 2) with
    | some e => .job (u8 e.value 0)
    | none =>
      let has (ids : List Nat) : Bool := es.any (writesAny ids)
      if es.any (fun e => e.id == P.ANC_SEAL && natBE e.value == 1) then .seal
      else if has [P.EMT_FLTCLR] then .fltClear
      else if has [P.TCH_RELEARN] then .relearn
      else if has [P.LMP_FLTCLR] then .lampClear
      else if has [P.LMP_LEVELS] then .levels
      else if has [P.CLK_LOCK_WIN, P.CLK_LOCK_N, P.CLK_LOCK_M] then .lock
      else .plain

/-- Run the chosen message when it is a PARAM_SET of a row. DESIGN CHOICE: assumption 6. -/
def runSet (r : SetRow) (s : State) : Res := runMessage (fun m => m.typ == typParamSet && decide (rowOf m.body = r)) paramSet s

/-- PARAM_SET (03 R148). -/
def execParamSet (s : State) : Res := runSet .plain s
/-- ANCHOR_SEAL (11 R574, R575). -/
def execAnchorSeal (s : State) : Res := runSet .seal s
/-- EMT_FLTCLR (11 R567). -/
def execEmtFltclr (s : State) : Res := runSet .fltClear s
/-- TCH_RELEARN (14 R684). -/
def execTchRelearn (s : State) : Res := runSet .relearn s
/-- LMP_FLTCLR (20 R914). -/
def execLmpFltclr (s : State) : Res := runSet .lampClear s
/-- LMP_LEVELS (20 R907, R908). -/
def execLmpLevels (s : State) : Res := runSet .levels s
/-- CLK_LOCK_WIN, CLK_LOCK_N and CLK_LOCK_M (18 R829). -/
def execClkLockSettings (s : State) : Res := runSet .lock s
/-- COMPRESS, DECOMPRESS and VERIFY (07 R398 to R402). -/
def execCompress (s : State) : Res := runSet (.job 0) s
def execDecompress (s : State) : Res := runSet (.job 1) s
def execVerify (s : State) : Res := runSet (.job 2) s

end Sys2Proof.Machine
end

