-- ==== Sys2Proof/Machine/Staging.lean ====
section
/-! DEFINITION. Staging: acceptance of a commit, abort, STAGE_COMMIT, STAGE_ABORT, and the frames of the two-phase commit that a
master sends (02 R68 to R84; 16 R748, R754 to R759). -/

namespace Sys2Proof.Machine

/-! ## Shared digests and commit frames (16 R748, Table 16-2) -/

/-- The shared digest of the groups of a mask over accumulators. -/
def sharedDigest (deltas : Vector Nat 19) (mask : Nat) : Nat :=
  natBE ((sha256 ((groups.filter (fun g => bit mask g)).flatMap (fun g => toBE 32 (accOf deltas g)))).take 8)

/-- SHARED: the master's CAS_SHARED, as a slave knows it from the TICK frames. -/
def State.sharedMask (s : State) : Nat := if s.cas.role = .slave then s.cas.shared else s.pN P.CAS_SHARED

def State.sharedActive (s : State) : Nat := sharedDigest s.par.accA s.sharedMask
def State.sharedStaged (s : State) : Nat := sharedDigest s.par.accS s.sharedMask

/-- OP of a COMMIT frame. -/
def opPrepare : Nat := 1
def opGo : Nat := 2
def opAbort : Nat := 3

/-- The body of a COMMIT frame. DESIGN CHOICE: assumption 71. -/
def commitBody (op device cause target digest : Nat) : Bytes :=
  [byteOf op, byteOf device, byteOf cause, 0#8] ++ toBE 8 target ++ toBE 8 digest

/-- NAK causes (Table 16-5). -/
def nakState : Nat := 1
def nakBudget : Nat := 2
def nakRange : Nat := 3
def nakDigest : Nat := 4
def nakHold : Nat := 5
def nakReset : Nat := 6
def nakMissing : Nat := 7

/-! ## Accepting and aborting a commit -/

/-- Take a commit for edge n: TCK_COMMIT_AT, the plane stores, the calibration solves (02 R67, R72; 08 R437; 09 R484). -/
def State.acceptCommit (s : State) (n : Nat) : State :=
  let b := s.par.staged
  let s := { s with tick := { s.tick with commitAt := some n }, stores := (s.newStores b).getD [] }
  (allFin 4).foldl (fun s h => s.modCol h (fun c => { c with calNext := s.calSolve b h.1 })) s

/-- Make every staged value equal to the active one (R78, R80). -/
def State.unstage (s : State) : State :=
  { s with par := { s.par with staged := s.par.active, accS := s.par.accA, budgetStaged := budgetOf s.par.active } }

/-- Abort reasons (Table 2-3). -/
def reasonHost : Nat := 1
def reasonHold : Nat := 2
def reasonReset : Nat := 3
def reasonCascade : Nat := 4

/-- Abort the pending commit (R81): the staged bank stays, but for reason 1. -/
def State.abortCommit (s : State) (reason cause device : Nat) : State :=
  match s.tick.commitAt with
  | none => s
  | some n =>
    let s := { s with
      tick := { s.tick with commitAt := none }
      stores := []
      col := s.col.map (fun (c : Col) => { c with calNext := none }) }
    let s := s.modCas (fun c => { c with mine := false, go := false, vote := none })
    let s := if reason = reasonHost then s.unstage else s
    s.raise evCommitAborted (toBE 8 n ++ [byteOf reason, byteOf cause, byteOf device, 0#8])

/-- The master decides ABORT (16 R757 to R759): the frame goes out at once, and the master's own commit ends. DEDUCED:
assumption 75. -/
def State.decideAbort (s : State) (reason device cause : Nat) : State :=
  match s.tick.commitAt with
  | none => s
  | some n =>
    let s := s.travSend kindCommit 255 (commitBody opAbort device cause n s.sharedStaged)
    let s := s.abortCommit reason (if reason = reasonHost then 0 else cause) (if reason = reasonHost then 0xFF else device)
    s.modCas (fun c => { c with
      decision := .abort, target := n, lastAbort := device * 256 + cause, aborts := inc 32 c.aborts })

/-! ## STAGE_COMMIT and STAGE_ABORT -/

/-- Does a commit change HDT_TYPE (13 R638)? -/
def State.typeChange (s : State) : Bool := (List.range 4).any (fun h => bkN s.par.active P.HDT_TYPE h != bkN s.par.staged P.HDT_TYPE h)

/-- R71 and R638: the states that refuse a commit. -/
def State.commitState (s : State) : Bool :=
  s.dev == .boot || s.dev == .hold || s.tick.commitAt.isSome || (s.dev != .standby && s.typeChange)

/-- Start a two-phase commit as master (16 R755); a device that has no other to ask holds GO at once. -/
def State.prepare (s : State) (n : Nat) : State :=
  if s.cas.role = .master ∧ s.cascaded = true then
    let s := s.modCas (fun c => { c with
      mine := true, parts := maskBelow 8 s.present, acks := 0, decision := .none, target := n, go := false })
    s.travSend kindCommit 255 (commitBody opPrepare s.devNum 0 n s.sharedStaged)
  else s.modCas (fun c => { c with go := true })

def stageCommit (s : State) (m : Msg) : Answer :=
  let c := s.tick.count
  let n := if be64 m.body 0 = 0 then c + 2 else be64 m.body 0
  if m.body.length ≠ 8 then refuse s .errParam
  else if s.commitState || (s.cas.role == .slave && s.cascaded) then refuse s .errState
  else if n < c + 2 then refuse s .errCommitLate
  else if c + 65536 < n then refuse s .errRange
  else match s.commitRefusal s.par.staged with
    | some st => refuse s st
    | none =>
      ((s.acceptCommit n).prepare n, .ok, toBE 8 n ++ toBE 8 (deviceDigest s.par.accS) ++ toBE 8 s.par.budgetStaged)

def stageAbort (s : State) (m : Msg) : Answer :=
  if m.body.length ≠ 0 then refuse s .errParam
  else match s.tick.commitAt with
    | none => (s.unstage, .ok, [])
    | some n =>
      if s.cas.role = .slave ∧ s.cascaded = true then refuse s .errState
      else if n ≤ s.tick.count + 1 then refuse s .errCommitLate
      else if s.cas.mine then (s.decideAbort reasonHost s.devNum 0, .ok, [])
      else (s.abortCommit reasonHost 0 0xFF, .ok, [])

/-- STAGE_COMMIT (R68 to R72, R966). -/
def execStageCommit (s : State) : Res := runMessage (isType typCommit) stageCommit s

/-- STAGE_ABORT (R78 to R80; 16 R754, R759). -/
def execStageAbort (s : State) : Res := runMessage (isType typAbort) stageAbort s

end Sys2Proof.Machine
end

