-- ==== Sys2Proof/Machine/Messages.lean ====
section
/-! DEFINITION. The other host messages: surfaces, plans, device states, traces, firmware update, the island's readings, PEEK and
POKE, RESET (03, 05, 06, 12, 15, 17, 19). -/

namespace Sys2Proof.Machine

/-! ## Surfaces, plans, the island -/

/-- SURFACE_ALLOC, SURFACE_FREE and SURFACE_STATUS (05). -/
def execSurfaceAlloc (s : State) : Res := runMessage (isType typAlloc) surfaceAlloc s
def execSurfaceFree (s : State) : Res := runMessage (isType typFree) surfaceFree s
def execSurfaceStatus (s : State) : Res := runMessage (isType typStatus) surfaceStatus s

/-- A SURFACE_WRITE of an OP. DESIGN CHOICE: assumption 5. -/
def isWrite (ops : List Nat) (m : Msg) : Bool := m.typ == typWrite && ops.contains (u8 m.body 4)

/-- SURFACE_WRITE OPEN (05 R299); an OP that is none of the three is refused by it. -/
def execSurfaceWriteOpen (s : State) : Res := runMessage (fun m => m.typ == typWrite && !isWrite [1, 2] m) surfaceOpen s
/-- SURFACE_WRITE CLOSE (05 R303). -/
def execSurfaceWriteClose (s : State) : Res := runMessage (isWrite [1]) surfaceClose s
/-- SURFACE_WRITE ABORT (05 R967). -/
def execSurfaceWriteAbort (s : State) : Res := runMessage (isWrite [2]) surfaceAbort s

/-- FRAME_PLAN (06 R351). -/
def execFramePlan (s : State) : Res := runMessage (isType typPlan) framePlan s

/-- ISLAND_READ (15 R735, R736): ITEM 1 is the audit; the other row takes ITEM 0 and what is refused. DESIGN CHOICE:
assumption 5. -/
def isAudit (m : Msg) : Bool := m.typ == typIslandRead && m.body.length == 4 && u8 m.body 0 == 1
def execIslandReadSummary (s : State) : Res := runMessage (fun m => m.typ == typIslandRead && !isAudit m) islandReadSummary s
def execIslandReadAudit (s : State) : Res := runMessage isAudit islandReadAudit s

/-! ## Device state (03 R150, R151, Table 3-9; 11 R571, R572; 17 R794, R795) -/

/-- May SAFE be cleared (17 R794; 11 R583)? -/
def State.mayClear (s : State) : Bool :=
  !(s.anc.discrepancy && s.anc.pinA != s.anc.pinB) &&
    !(s.anc.power && (allFin 48).any (fun c => s.watched c && s.overPower c)) &&
    s.thermalBelow && !s.devicePllFailed && !pairFailed s.mem.failed

/-- Clear SAFE (17 R795). -/
def State.clearSafe (s : State) : State :=
  let s := s.log 0 2 clsInfo 0xFF []
  { s with
    dev := .standby
    headsRun := false, headsStop := true
    anc := { s.anc with discrepancy := false, power := false, halt := false, fault := 0, faultCh := 0xFF, faultTick := 0 }
    flt := { s.flt with safeCause := 0 } }.settle

/-- A transition asked for: the state after it, or its refusal. DESIGN CHOICE: assumption 23. DEDUCED: assumption 50. -/
def State.transit (s : State) (target : Nat) : Except Status State :=
  if 6 ≤ target ∨ target = 4 then .error .errRange
  else if target = 0 then .ok s
  else if s.dev = .hold then .error .errState
  else if target = s.dev.code then .ok s
  else match s.dev, target with
    | .standby, 2 =>
      if !s.pB P.ANC_SEAL then .error .errState
      else if !(s.admits s.par.active && s.composeFits s.par.active) then .error .errBudget
      else .ok { s with dev := .armed, headsRun := true }.settle
    | .armed, 3 => if s.anc.pinA && s.anc.pinB then .ok { s with dev := .lit }.settle else .ok s
    | .lit, 2 => .ok s.toArmed
    | .armed, 1 => .ok { s with dev := .standby, headsRun := false, headsStop := true }.settle
    | .lit, 1 => .ok { s with dev := .standby, headsRun := false, headsStop := true }.settle
    | .safe, 1 => if s.mayClear then .ok s.clearSafe else .error .errState
    | .standby, 5 => .ok (s.enterSafe causeHost)
    | .armed, 5 => .ok (s.enterSafe causeHost)
    | .lit, 5 => .ok (s.enterSafe causeHost)
    | _, _ => .error .errState

/-- STATE_REQUEST: a refusal, or the change and the states before and after it (03 R150, R151). DEDUCED: assumption 18. DESIGN CHOICE:
assumption 23. -/
def stateRequest (s : State) (m : Msg) : Answer :=
  let before := byteOf s.dev.code
  if m.body.length ≠ 1 then (s, .errParam, [before, before])
  else match s.transit (u8 m.body 0) with
    | .error st => (s, st, [before, before])
    | .ok t => (t, .ok, [before, byteOf t.dev.code])

/-- A STATE_REQUEST of a target. DESIGN CHOICE: assumption 5. -/
def isState (target : Nat) (m : Msg) : Bool := m.typ == typState && m.body.length == 1 && u8 m.body 0 == target

/-- STATE_REQUEST QUERY: target 0, and every request that names no target a host may. -/
def execStateRequestQuery (s : State) : Res :=
  runMessage (fun m => m.typ == typState && !(isState 1 m || isState 2 m || isState 3 m || isState 5 m)) stateRequest s
def execStateRequestStandby (s : State) : Res := runMessage (isState 1) stateRequest s
def execStateRequestArmed (s : State) : Res := runMessage (isState 2) stateRequest s
def execStateRequestLit (s : State) : Res := runMessage (isState 3) stateRequest s
def execStateRequestSafe (s : State) : Res := runMessage (isState 5) stateRequest s

/-! ## Traces (12 R630 to R635) -/

/-- The trace buffer's size and its key among the other allocations of the mirror pool. -/
def traceBytes : Nat := 524288
def traceKey : Nat := 4

/-- A channel of a TRACE_ARM. -/
def traceChOf (b : Bytes) (c : Nat) : TraceCh :=
  let k := u8 b (12 + 4 * c)
  ⟨if k = 0xFF then none else some (Fin.ofNat 128 k), u8 b (13 + 4 * c), be16 b (14 + 4 * c), 0, [], []⟩

/-- The fields of Table 12-10 of a capture. -/
def armOk (b : Bytes) : Bool :=
  Nat.ble (u8 b 1) 4 && Nat.ble (be16 b 2) 16383 &&
    (if u8 b 1 = 4 then Nat.ble (u8 b 4) 3 else u8 b 1 == 0 || Nat.ble (u8 b 4) 7) &&
    (List.range 8).all (fun c =>
      let k := u8 b (12 + 4 * c)
      k == 0xFF || (Nat.blt k 128 && Nat.ble (u8 b (13 + 4 * c)) 17 && Nat.ble 1 (be16 b (14 + 4 * c)) && Nat.ble (be16 b (14 + 4 * c)) 4096))

/-- Take the trace buffer from the mirror pool (R630). -/
def State.takeTrace (s : State) : Option State :=
  match assocGet traceKey s.surf.extra with
  | some _ => some s
  | none => (s.place true traceBytes).map (fun o => { s with surf := { s.surf with extra := assocSet traceKey (o, traceBytes) s.surf.extra } })

/-- TRACE_ARM with OP ARM or FORCE: a new capture. -/
def traceArm (force : Bool) (s : State) (m : Msg) : Answer :=
  let b := m.body
  if !armOk b then refuse s .errRange
  else match s.takeTrace with
    | none => refuse s .errRange
    | some s =>
      let t : Trace := ⟨if force then .triggered else .armed, u8 b 1, be16 b 2, u8 b 4, toSigned 32 (be32 b 8),
        Vector.ofFn (fun (c : Fin 8) => traceChOf b c.1), 0, none, if force then s.bly.base else 0, if force then s.tick.count else 0⟩
      (s.modTrace (fun _ => t), .ok, [])

/-- TRACE_ARM with OP RELEASE; another OP and a wrong length are refused. DESIGN CHOICE: assumption 24. -/
def traceRelease (s : State) (m : Msg) : Answer :=
  if m.body.length ≠ 44 then refuse s .errParam
  else if u8 m.body 0 ≠ 0 then refuse s .errRange
  else (({ s with surf := { s.surf with extra := assocDel traceKey s.surf.extra } }).modTrace (fun _ => Trace.reset), .ok, [])

def isArm (op : Nat) (m : Msg) : Bool := m.typ == typTraceArm && m.body.length == 44 && u8 m.body 0 == op

/-- TRACE_ARM RELEASE, ARM and FORCE. -/
def execTraceRelease (s : State) : Res := runMessage (fun m => m.typ == typTraceArm && !(isArm 1 m || isArm 2 m)) traceRelease s
def execTraceArm (s : State) : Res := runMessage (isArm 1) (traceArm false) s
def execTraceForce (s : State) : Res := runMessage (isArm 2) (traceArm true) s

/-- The recorded samples of a channel, oldest first, and the index of the first (R632). -/
def Trace.samples (t : Trace) (c : Fin 8) : Nat × List Int :=
  let q := t.ch[c]
  if t.st = .triggered ∨ t.st = .done then (t.pre - q.pre.length, q.pre.reverse ++ q.post.reverse) else (0, [])

def traceCode : TraceSt → Nat
  | .idle => 0
  | .armed => 1
  | .triggered => 2
  | .done => 3

/-- DESIGN CHOICE: assumption 24. -/
def traceRead (s : State) (m : Msg) : Answer :=
  let b := m.body
  let t := s.bly.trace
  let first := be16 b 2
  let n := be16 b 4
  let (lo, l) := t.samples (Fin.ofNat 8 (u8 b 0))
  if b.length ≠ 6 then refuse s .errParam
  else if 8 ≤ u8 b 0 ∨ n = 0 ∨ 2000 < n ∨ first < lo ∨ lo + l.length < first + n then refuse s .errRange
  else
    (s, .ok, [byteOf (traceCode t.st), byteOf (u8 b 0)] ++ toBE 2 n ++ zeros 4 ++ toBE 8 t.trigBase ++ toBE 8 t.trigTick ++
      ((l.drop (first - lo)).take n).flatMap (toSBE 4))

/-- TRACE_READ (R634). -/
def execTraceRead (s : State) : Res := runMessage (isType typTraceRead) traceRead s

/-! ## Firmware update (19 R874 to R879) -/

def State.modFw (s : State) (f : Flash → Flash) : State := { s with fw := f s.fw }

/-- The inactive bank: the one the current record does not name. -/
def Flash.inactiveB (f : Flash) : Bool :=
  match f.current with
  | none => false
  | some k => !recBankB f.recs[k]

/-- The record copy an update writes: the one that is not current. -/
def Flash.spareCopy (f : Flash) : Fin 2 :=
  match f.current with
  | some 0 => 1
  | _ => 0

def bankIx (b : Bool) : Fin 2 := if b then 1 else 0

/-- FW_BEGIN (19 R874). DEDUCED: assumption 18. -/
def fwBegin (s : State) (m : Msg) : Answer :=
  let n := be32 m.body 0
  if s.dev = .hold then refuse s .errState
  else if m.body.length ≠ 8 then refuse s .errParam
  else if s.fw.fw ≠ .idle then refuse s .errState
  else if n < 16 ∨ 15728640 < n ∨ n % 4 ≠ 0 then refuse s .errRange
  else
    let b := s.fw.inactiveB
    (s.modFw (fun f => { f with fw := .opened, fwBankB := b, fwLen := n, fwDone := 0 }), .ok, [byteOf (b2n b)] ++ zeros 3)

/-- Program a chunk at an offset: its sector is erased first. DESIGN CHOICE: assumption 26. -/
def programmed (bank data : Bytes) (o : Nat) : Bytes :=
  bank.take o ++ data ++ List.replicate (4096 - data.length) 0xFF#8 ++ bank.drop (o + 4096)

/-- DESIGN CHOICE: assumption 26. -/
def fwData (s : State) (m : Msg) : Answer :=
  let n := m.body.length
  let o := be32 m.body 0
  let d := m.body.drop 4
  let f := s.fw
  if s.dev = .hold then refuse s .errState
  else if n < 8 ∨ 4100 < n ∨ n % 4 ≠ 0 then refuse s .errParam
  else if f.fw ≠ .opened then refuse s .errState
  else if o ≠ f.fwDone ∨ f.fwLen < o + d.length ∨ (d.length ≠ 4096 ∧ o + d.length ≠ f.fwLen) then refuse s .errRange
  else
    (s.modFw (fun f => { f with
      banks := vmod f.banks (bankIx f.fwBankB) (fun b => programmed b d o)
      recs := if o = 0 then vset f.recs f.spareCopy [] else f.recs
      fwDone := o + d.length }), .ok, [])

/-- A commit record (Table 19-9). -/
def recordBytes (counter : Nat) (bankB : Bool) (len : Nat) (hash : Bytes) : Bytes :=
  let b := toLE 4 0x57435231 ++ toLE 4 counter ++ [byteOf (b2n bankB)] ++ zeros 3 ++ toLE 4 len ++ hash
  b ++ toLE 4 (crc32 b)

/-- DESIGN CHOICE: assumption 10. -/
def fwCommit (s : State) (m : Msg) : Answer :=
  let f := s.fw
  let image := f.banks[bankIx f.fwBankB].take f.fwLen
  let counter := f.commitCount + 1
  if s.dev = .hold then refuse s .errState
  else if m.body.length ≠ 0 then refuse s .errParam
  else if f.fw ≠ .opened ∨ f.fwDone ≠ f.fwLen then refuse s .errState
  else if Config.fwSignature image = false then refuse (s.modFw (fun f => { f with fw := .idle, fwLen := 0, fwDone := 0 })) .errRange
  else
    (s.modFw (fun f => { f with
      fw := .committed
      recs := vset f.recs f.spareCopy (recordBytes counter f.fwBankB f.fwLen (sha384 image)) }),
      .ok, [byteOf (b2n f.fwBankB)] ++ zeros 3 ++ toBE 4 counter)

/-- FW_BEGIN, FW_DATA and FW_COMMIT. -/
def execFwBegin (s : State) : Res := runMessage (isType typFwBegin) fwBegin s
def execFwData (s : State) : Res := runMessage (isType typFwData) fwData s
def execFwCommit (s : State) : Res := runMessage (isType typFwCommit) fwCommit s

/-! ## PEEK and POKE (03 R153, R154) -/

/-- The parameter byte that the internal map has at an address: its row, index and byte. -/
def internalParam (a : Nat) : Option (ParamDef × Nat × Nat) :=
  match Config.internalMap a with
  | none => none
  | some (k, o) =>
    match paramDef (k / 65536) with
    | none => none
    | some d => if d.cls != .ro && d.ix.has (k % 65536) && Nat.blt o d.len then some (d, k % 65536, o) else none

/-- Read one byte of the internal map: what a block holds of a parameter, a byte of memory, what a POKE left, else a free value;
with the burst it lies in when that is delivered as zeros. DESIGN CHOICE: assumption 22. -/
def State.peekByte (s : State) (a : Nat) (last : Option (Bool × Nat)) : State × Byte × Option (Bool × Nat) :=
  match internalParam a with
  | some (d, ix, o) => (s, (valueBytes d (s.block d.id ix)).getD o 0#8, last)
  | none =>
    match Config.internalMem a with
    | some (pool, d) =>
      if last = some (pool, d / 64) then (s, 0#8, last)
      else
        let (t, b, f) := s.readMem pool d 1 .supervisor
        (t, b.getD 0 0#8, if f = 0 then last else some (pool, d / 64))
    | none =>
      match assocGet a s.internal with
      | some b => (s, b, last)
      | none => (s.draw, byteOf (Config.freeNat s.free), last)

/-- The bytes of a PEEK, and whether a burst of them met an uncorrectable error (05 R256). -/
def State.peekBytes : Nat → Nat → Option (Bool × Nat) → State → State × Bytes × Bool
  | 0, _, l, s => (s, [], l.isSome)
  | n + 1, a, l, s =>
    let (s, x, l) := s.peekByte a l
    let (s, r, f) := State.peekBytes n (a + 1) l s
    (s, x :: r, f)

/-- Write one byte of the internal map; the digests do not change. DESIGN CHOICE: assumption 22. -/
def State.pokeByte (s : State) (a : Nat) (x : Byte) : State :=
  match internalParam a with
  | some (d, ix, o) =>
    let v := valueOf d (splice (valueBytes d (s.block d.id ix)) o [x])
    let k := pkey d.id ix
    { s with par := { s.par with
        held := if v = bankGet s.par.active d.id ix then assocDel k s.par.held else assocSet k v s.par.held } }
  | none =>
    match Config.internalMem a with
    | some (pool, d) => s.writeMem pool d [x] .supervisor
    | none => { s with internal := assocSet a x s.internal }

def State.pokeBytes : Nat → Bytes → State → State
  | _, [], s => s
  | a, x :: r, s => State.pokeBytes (a + 1) r (s.pokeByte a x)

def peekLenOk (n : Nat) : Bool := Nat.ble 4 n && Nat.ble n 1024 && n % 4 == 0

def peek (s : State) (m : Msg) : Answer :=
  let n := be16 m.body 8
  if m.body.length ≠ 10 then refuse s .errParam
  else if !(s.acm.sess[m.session]).commission then refuse s .errState
  else if !peekLenOk n then refuse s .errRange
  else
    let (t, b, f) := State.peekBytes n (be64 m.body 0) none s
    (t, if f then .errUncorr else .ok, b)

def poke (s : State) (m : Msg) : Answer :=
  let n := be16 m.body 8
  if m.body.length < 10 ∨ m.body.length ≠ 10 + n then refuse s .errParam
  else if !(s.acm.sess[m.session]).commission || s.dev != .standby then refuse s .errState
  else if !peekLenOk n then refuse s .errRange
  else ((State.pokeBytes (be64 m.body 0) (m.body.drop 10) s).settle, .ok, [])

/-- PEEK and POKE. -/
def execPeek (s : State) : Res := runMessage (isType typPeek) peek s
def execPoke (s : State) : Res := runMessage (isType typPoke) poke s

/-! ## RESET (03 R152; 17 R799, R800) -/

/-- A compositor or head port reset blanks its head, which restarts as a retime at the next tick edge. DEDUCED:
assumption 25. -/
def State.resetHead (s : State) (h : HeadIx) : State :=
  if s.running h then
    (((s.clearArray h).modHead h (fun x => { x with wait := true, blank := true })).modPln h (fun p => { p.blanked with
      waiting := false, begun := false, loadSlot := none, slot := none, losing := false })).modScn h
      (fun x => { x with active := none })
  else s

/-- The reset state of a compositor: no head frame in it. DEDUCED: assumption 25. -/
def State.resetCompositor (s : State) (h : HeadIx) : State :=
  (s.modComp h (fun c => { c with busy := false, images := none, canvas := [], legalCrc := 0 })).resetHead h

/-- An Ethernet port restarts at step 1 of Table 4-2; the frames it holds go. DEDUCED: assumption 25. -/
def State.resetPort (s : State) (p : PortIx) : State :=
  let s := { s with eth := { s.eth with buf := s.eth.buf.filter (fun b => b.p != p), halt := vset s.eth.halt p [] } }
  (s.modPort p (fun x => { x with tokens := Port.reset.tokens, filledAt := s.now, echoes := [] })).linkRestart p

/-- A block reset (R799, R800); none for a block with none. DEDUCED: assumption 25. -/
def State.resetBlock (s : State) (b : Nat) : Option State :=
  if b = 0x04 ∨ b = 0x05 then some (s.resetPort (Fin.ofNat 2 (b - 4)))
  else if b = 0x06 ∨ b = 0x07 then some (s.travRestart (Fin.ofNat 2 (b - 6)))
  else if 0x10 ≤ b ∧ b ≤ 0x13 then some (s.resetCompositor (Fin.ofNat 4 (b - 0x10)))
  else if b = 0x14 then some { s with codec := { s.codec with result := Codec.reset.result } }
  else if 0x18 ≤ b ∧ b ≤ 0x1B then some (s.resetHead (Fin.ofNat 4 (b - 0x18)))
  else if b = 0x25 then some (s.modLmp Lmp.stop)
  else none

/-- RESET KIND 0: a WARM reset 1 ms after the reply. -/
def resetWarm (s : State) (_ : Msg) : Answer :=
  ({ s with pwr := { s.pwr with due := some .reset, dueAt := s.now + 1000000 } }, .ok, [])

/-- RESET KIND 1; another KIND and a wrong length are refused. -/
def resetKind (s : State) (m : Msg) : Answer :=
  if m.body.length ≠ 4 then refuse s .errParam
  else if u8 m.body 0 ≠ 1 ∨ (s.resetBlock (u8 m.body 1)).isNone = true then refuse s .errRange
  else (s, .ok, [])

/-- The reset of a block that a RESET of KIND 1 names, after its reply (R152). -/
def State.resetAfter (s0 s : State) (m : Msg) : State :=
  if (resetKind s0 m).2.1 = .ok then (s.resetBlock (u8 m.body 1)).getD s else s

/-- DESIGN CHOICE: assumption 5. -/
def isWarm (m : Msg) : Bool := m.typ == typReset && m.body.length == 4 && u8 m.body 0 == 0

/-- RESET with KIND 0 and with KIND 1. -/
def execResetWarm (s : State) : Res := runMessage isWarm resetWarm s
def execResetBlock (s : State) : Res :=
  match s.chosen with
  | some m => if m.typ == typReset && !isWarm m then .next (s.resetAfter (s.finish m (resetKind s m)) m) else .next s
  | none => .next s

end Sys2Proof.Machine
end

