-- ==== Sys2Proof/Machine/Cascade.lean ====
section
/-! DEFINITION. The cascade's frames as a device receives them: links and topology, TICK, the two-phase commit, failover,
forwarded messages, surface datagrams, video and seam strips (16 R738 to R776). -/

namespace Sys2Proof.Machine

/-! ## Links (R738, R743) -/

/-- TRAVERSE_LINK_UP (R738): a port that is in use, not held DOWN and whose PLL has not failed. -/
def execTraverseLinkUp (p : PortIx) (s : State) : Res :=
  let x := s.cas.port[p]
  let k : PllIx := Fin.ofNat 20 (16 + p.1)
  if s.dev = .boot ∨ bit (s.pN P.CAS_PORTS) p.1 = false ∨ x.held = true ∨ x.link = .up ∨ s.locked k = false then .next s
  else .next (s.modTrav p (fun x => { x with link := .up })).topologyChanged

/-- TRAVERSE_LINK_LOSS (R738, as 04 R178). -/
def execTraverseLinkLoss (t : Nat) (p : PortIx) (s : State) : Res := .next ((s.atTime t).travDown p)

/-! ## The body of a LINK frame -/

/-- DESIGN CHOICE: assumption 71. -/
def linkHops (b : Bytes) (d : Nat) : Option Nat := if u8 b (4 + d) = 0xFF then none else some (u8 b (4 + d))
/-- DESIGN CHOICE: assumption 71. -/
def linkStamp (b : Bytes) : Nat := be64 b 12
def linkEcho (b : Bytes) : Nat := be64 b 20
def linkTurn (b : Bytes) : Nat := be64 b 28
def linkPaths (b : Bytes) : List (Nat × Nat × Nat × Nat) :=
  (chunks 11 (u8 b 3) (b.drop 36)).map (fun c => (u8 c 0, be32 c 1, be32 c 5, be16 c 9))

/-- The video paths a device advertises (R771): port, group, source, UDP port. -/
def State.ownPaths (s : State) : List (Nat × Nat × Nat × Nat) :=
  (List.range 8).flatMap (fun v =>
    if s.pB P.ETH_RX_ENABLE v && s.pN P.CAS_RX_VIA v == 1 then
      ((List.range 2).filter (fun p => bit (s.pN P.ETH_RX_PATHS v) p)).map (fun p =>
        (p, s.pN P.ETH_RX_GROUP (2 * v + p), s.pN P.ETH_RX_SOURCE (2 * v + p), s.pN P.ETH_RX_UDP (2 * v + p)))
    else [])

/-- The LINK frame of a port (R743): its view is of what the other port reaches. DESIGN CHOICE: assumption 71. -/
def State.linkBody (s : State) (p : PortIx) : Bytes :=
  let paths := s.ownPaths
  let hops := (s.cas.port[(1 - p)]).hops
  let (echo, turn) := match (s.cas.port[p]).stamp with
    | none => (0, 0)
    | some (a, at_) => (a, 1000 * s.now - at_)
  [byteOf s.devNum, byteOf (b2n s.pwr.cascRole), byteOf (s.pN P.CAS_PRIORITY), byteOf paths.length] ++
    hops.toList.map (fun h => byteOf ((h.map (·.1)).getD 255)) ++ toBE 8 (1000 * s.now) ++ toBE 8 echo ++ toBE 8 turn ++
    paths.flatMap (fun (p, g, a, u) => [byteOf p] ++ toBE 4 g ++ toBE 4 a ++ toBE 2 u)

def State.sendLink (s : State) (p : PortIx) : State := s.travOut p (s.travNew kindLink 255 (s.linkBody p))

/-- Does a neighbour's LINK frame show a device number that is already present (R743): this device's own, or one that the
other port reaches and that does not reach this device by its own other port? DEDUCED: assumption 72. -/
def State.duplicate (s : State) (p : PortIx) (f : Trav) : Bool :=
  f.hops == 7 &&
    (f.src == s.devNum ||
      (((s.cas.port[(1 - p)]).hops[Fin.ofNat 8 f.src]).isSome && linkEcho f.body != 0 && (linkHops f.body s.devNum).isNone))

/-- Hold a port DOWN (R743). DEDUCED: assumption 72. -/
def State.holdPort (s : State) (p : PortIx) : State :=
  let s := s.log (0x06 + p.1) 2 clsInfo p.1 []
  (s.modTrav p (fun x => { x with link := .down, held := true, stamp := none, hops := Vector.replicate 8 none })).topologyChanged

/-- Take what a LINK frame tells: hops, eligibility, priority, paths, and of a neighbour the link's delay. DEDUCED:
assumption 72. -/
def State.learnLink (s : State) (p : PortIx) (f : Trav) : State :=
  let d : Fin 8 := Fin.ofNat 8 f.src
  let b := f.body
  let ps := 1000 * s.now
  let s := s.modTrav p (fun x => { x with hops := vset x.hops d (some (8 - f.hops, 0)) })
  let s := s.modCas (fun c => { c with devs := vset c.devs d ⟨bit (u8 b 1) 0, u8 b 2, linkPaths b⟩ })
  let s := if f.hops = 7 then
      s.modTrav p (fun x => { x with
        stamp := some (linkStamp b, ps)
        delay := if linkEcho b = 0 then x.delay else (ps - linkEcho b - linkTurn b) / 2 })
    else s
  s.topologyChanged

/-- LINK_FRAME (R743). -/
def execLinkFrame (t : Nat) (p : PortIx) (frame : Bytes) (s : State) : Res :=
  let s := s.atTime t
  let f := travOf frame
  if s.travUp p && !s.clockLost (serdesTrav p) && f.kind == kindLink && s.travTagOk frame && s.duplicate p f then .next (s.holdPort p)
  else match s.travTake p kindLink frame with
    | (s, none) => .next s
    | (s, some f) => .next (if 8 ≤ f.src then s else s.learnLink p f)

/-! ## TICK frames (R744 to R748, R756, R757, R760, R762, R763) -/

def tickCorrection (b : Bytes) : Nat := be64 b 0
def tickPeriod (b : Bytes) : Nat := be32 b 8
def tickOp (b : Bytes) : Nat := u8 b 12
def tickCommit (b : Bytes) : Nat := be64 b 16
def tickShared (b : Bytes) : Nat := be32 b 24
def tickDigestA (b : Bytes) : Nat := be64 b 28

/-- The groups of a mask that differ between a TICK frame and this device (R762). -/
def State.differing (s : State) (b : Bytes) : Nat :=
  let gs := groups.filter (fun g => bit (tickShared b) g)
  maskOf ((List.range gs.length).filterMap (fun i => match gs[i]? with
    | some g => if be64 b (48 + 8 * i) = groupDigest s.par.accA g then none else some g
    | none => none))

/-- COMMIT_OP: 1 PREPARE pending, 2 GO, 3 ABORT. -/
def State.commitOp (s : State) : Nat :=
  match s.cas.decision with
  | .go => 2
  | .abort => 3
  | .none => if s.cas.mine then 1 else 0

/-- The TICK frame of the master (R746): the time to its departure, at most 2 us, is free. DEDUCED: assumption 73. -/
def State.sendTick (s : State) : State :=
  let op := s.commitOp
  let mask := s.pN P.CAS_SHARED
  let body := toBE 8 (Config.freeNat s.free % 2000001) ++ toBE 4 s.tick.period ++ [byteOf op] ++ zeros 3 ++
    toBE 8 (if op = 0 then 0 else s.cas.target) ++ toBE 4 mask ++ toBE 8 (sharedDigest s.par.accA mask) ++
    toBE 8 (if op = 0 then 0 else sharedDigest s.par.accS mask) ++ zeros 4 ++
    (groups.filter (fun g => bit mask g)).flatMap (fun g => toBE 8 (groupDigest s.par.accA g))
  s.draw.travSend kindTick 255 body

/-- A vote (R756): cause 0 is ACK. -/
def State.sendVote (s : State) (cause : Nat) : State :=
  s.travSend kindVote (s.cas.master.getD 255) ([byteOf (b2n (cause == 0)), byteOf cause] ++ toBE 8 s.sharedStaged)

/-- Does a device follow a frame of a source (R744)? A lower epoch than its own is not followed. DEDUCED: assumption 74. -/
def State.follows (s : State) (f : Trav) : Bool :=
  match s.cas.master with
  | none => true
  | some m => decide (s.cas.epoch < f.cepoch) || (s.cas.epoch == f.cepoch && (m == f.src || s.outranks f.src m))

/-- The number that the next own edge takes from a master's edge (R745): the number of the nearest master's edge.
DEDUCED: assumption 74. -/
def State.nextNumber (s : State) (n : Nat) (atPs : Int) (periodNs : Nat) : Nat :=
  let x : Int := 1000 * (s.tick.nextEdge : Int) - atPs
  (n + divRoundI x (max 1 (1000 * periodNs))).toNat

/-- Report a change of CAS_SPLIT (R763). -/
def State.setSplit (s : State) (mask : Nat) (digest : Nat) : State :=
  if s.cas.split = mask then s
  else
    let s := s.modCas (fun c => { c with split := mask })
    s.raise evConfigSplit ([1#8, byteOf (s.cas.master.getD 255), byteOf (b2n (mask != 0)), 0#8] ++ toBE 4 mask ++
      toBE 8 digest)

/-- The decision a TICK frame carries (R757 to R760); a vote is repeated until one has come (R756). DEDUCED: assumption
75. -/
def State.takeDecision (s : State) (b : Bytes) : State :=
  let mine := s.tick.commitAt.isSome && s.tick.commitAt == some (tickCommit b)
  if tickOp b = 2 then s.modCas (fun c => { c with go := c.go || mine, vote := none })
  else if tickOp b = 3 then
    let s := if mine then s.abortCommit reasonCascade 0 0xFF else s
    s.modCas (fun c => { c with vote := none })
  else match s.cas.vote with
    | none => s
    | some cause => s.sendVote cause

/-- Follow a TICK frame that arrived at a port. DEDUCED: assumption 74. -/
def State.followTick (s : State) (p : PortIx) (f : Trav) : State :=
  let b := f.body
  let isNew := s.cas.role != .slave || s.cas.master != some f.src
  let cause := if s.cas.master.isNone then 1 else 3
  let atPs : Int := 1000 * (s.now : Int) - tickCorrection b - (s.cas.port[p]).delay
  let s := s.modCas (fun c => { c with
    role := .slave, epoch := f.cepoch, silent := 0, heard := true, shared := tickShared b, edge := some (f.tick, atPs, tickPeriod b)
    mine := if isNew then false else c.mine, decision := .none, go := c.go && c.role == .slave })
  let s := s.setMaster f.src cause
  let n := s.nextNumber f.tick atPs (tickPeriod b)
  let s := if isNew && n != s.tick.count + 1 then s.modCas (fun c => { c with adopt := some n }) else s
  let s := s.takeDecision b
  let now := s.differing b
  let s := s.setSplit (now &&& s.cas.differ) (tickDigestA b)
  s.modCas (fun c => { c with differ := now })

/-- TICK_FRAME (R744, R747). -/
def execTickFrame (t : Nat) (p : PortIx) (frame : Bytes) (s : State) : Res :=
  match (s.atTime t).travTake p kindTick frame with
  | (s, none) => .next s
  | (s, some f) => .next (if f.src < 8 ∧ s.follows f = true then s.followTick p f else s)

/-! ## Two-phase commit at a slave and at the master (R755 to R761) -/

/-- OP of a COMMIT frame that arrives. -/
def frameOp (frame : Bytes) : Nat := u8 (travOf frame).body 0

/-- A COMMIT frame of this device's master. -/
def State.fromMaster (s : State) (f : Trav) : Bool := s.cas.role == .slave && s.cas.master == some f.src

/-- The vote on a PREPARE (R756, Table 16-5): 0 for ACK. DEDUCED: assumption 75. -/
def State.voteOn (s : State) (digest : Nat) : Nat :=
  if s.dev = .hold then nakHold
  else if s.commitState then nakState
  else match s.commitRefusal s.par.staged with
    | some .errBudget => nakBudget
    | some _ => nakRange
    | none => if s.sharedStaged = digest then 0 else nakDigest

/-- COMMIT_PREPARE (R756). -/
def execCommitPrepare (p : PortIx) (frame : Bytes) (s : State) : Res :=
  if frameOp frame = opGo ∨ frameOp frame = opAbort then .next s
  else match s.travTake p kindCommit frame with
    | (s, none) => .next s
    | (s, some f) =>
      if s.fromMaster f = false ∨ u8 f.body 0 ≠ opPrepare then .next s
      else
        let cause := s.voteOn (be64 f.body 12)
        let s := if cause = 0 then s.acceptCommit (be64 f.body 4) else s
        .next ((s.modCas (fun c => { c with vote := some cause, go := c.go && cause != 0 })).sendVote cause)

/-- COMMIT_GO (R757, R759). -/
def execCommitGo (p : PortIx) (frame : Bytes) (s : State) : Res :=
  if frameOp frame ≠ opGo then .next s
  else match s.travTake p kindCommit frame with
    | (s, none) => .next s
    | (s, some f) =>
      if s.fromMaster f then
        .next (s.modCas (fun c => { c with vote := none, go := c.go || s.tick.commitAt == some (be64 f.body 4) }))
      else .next s

/-- COMMIT_ABORT_FRAME (R758, R759). -/
def execCommitAbortFrame (p : PortIx) (frame : Bytes) (s : State) : Res :=
  if frameOp frame ≠ opAbort then .next s
  else match s.travTake p kindCommit frame with
    | (s, none) => .next s
    | (s, some f) =>
      if s.fromMaster f then
        let s := if s.tick.commitAt = some (be64 f.body 4) then s.abortCommit reasonCascade (u8 f.body 2) (u8 f.body 1) else s
        .next (s.modCas (fun c => { c with vote := none }))
      else .next s

/-- VOTE (R757). DEDUCED: assumption 75. -/
def execVote (p : PortIx) (frame : Bytes) (s : State) : Res :=
  match s.travTake p kindVote frame with
  | (s, none) => .next s
  | (s, some f) =>
    if s.cas.mine = false ∨ s.cas.decision ≠ .none ∨ 8 ≤ f.src then .next s
    else if u8 f.body 0 = 0 then .next (s.decideAbort reasonCascade f.src (u8 f.body 1))
    else if be64 f.body 2 ≠ s.sharedStaged then .next (s.decideAbort reasonCascade f.src nakDigest)
    else .next (s.modCas (fun c => { c with acks := c.acks ||| 2 ^ f.src }))

/-! ## Failover (R750 to R753) -/

/-- The edges a device of this rank waits. -/
def State.patience (s : State) : Nat := 3 + 2 * (s.rank - 1)

/-- MASTER_TAKEOVER (R750, R752). DEDUCED: assumption 74. -/
def execMasterTakeover (t : Nat) (s : State) : Res :=
  let s := s.atTime t
  let waits := s.cas.role = .slave ∨ s.cas.role = .waiting
  if waits ∧ s.pwr.cascRole = true ∧ s.patience ≤ s.cas.silent then
    let cause := if s.cas.master.isNone then 1 else 2
    let s := s.modCas (fun c => { c with
      role := .master, epoch := (c.epoch + 1) % 2 ^ 32, silent := 0, heard := false, edge := none, adopt := none
      mine := false, decision := .none, vote := none })
    .next (s.setMaster s.devNum cause).sendTick
  else .next s

/-! ## Forwarded messages (R766 to R770) -/

/-- TRAVERSE_HALT (R770; 03 R164 to R169): it carries no address, so a reply goes to the session's last one. DEDUCED:
assumption 76. -/
def execTraverseHalt (t : Nat) (p : PortIx) (frame : Bytes) (s : State) : Res :=
  match (s.atTime t).travTake p kindHalt frame with
  | (s, none) => .next s
  | (s, some f) =>
    let d := dgramOf f.body
    let q := Fin.ofNat 4 d.session
    if s.dev = .boot ∨ dgramForm f.body = false ∨ d.typ ≠ typHalt then .next s
    else match s.acm.keys[q] with
      | none => .next s
      | some key =>
        let dst := (s.acm.sess[q]).addr
        if !dgramTagOk key f.body then .next (match dst with
          | some a => s.badTag a q d
          | none => s.modSess q (fun x => { x with authFail := inc 32 x.authFail }))
        else if s.haltMine d = false then .next s
        else if d.epoch ≠ s.acm.epoch then .next (match dst with
          | some a => s.reply a 0 typHalt d.mailbox q d.seq .errSeq []
          | none => s)
        else .next (s.haltAct dst q d)

/-- What the master notes of a reply it relays (R767). -/
def State.routeReply (s : State) (device : Nat) (b : Bytes) : State :=
  let d := dgramOf b
  match s.cas.fwd.find? (fun x => x.session == d.session && x.seq == d.irt && x.device == device && x.typ == d.typ) with
  | none => s
  | some x =>
    let ok := be16 b 18 == Status.ok.code
    let s := s.modCas (fun c => { c with fwd := c.fwd.erase x })
    let mine (r : Route) : Bool := r.session == x.session && r.device == device
    if !ok then s
    else if x.typ = typFree then s.modCas (fun c => { c with routes := c.routes.filter (fun r => !(mine r && r.handle == x.handle)) })
    else if x.op = 0 then s.modCas (fun c => { c with routes := (⟨x.session, x.writeId, device, x.handle⟩ :: c.routes).take 448 })
    else if x.op = 2 ∨ u8 d.body 0 = 0 then
      s.modCas (fun c => { c with routes := c.routes.filter (fun r => !(mine r && r.writeId == x.writeId)) })
    else s

/-- TRAVERSE_ACM (R766 to R768): a request for this device, a reply or event for the master to send on, or a route
release. DESIGN CHOICE: assumption 71. DEDUCED: assumption 76. -/
def execTraverseAcm (t : Nat) (p : PortIx) (frame : Bytes) (s : State) : Res :=
  match (s.atTime t).travTake p kindAcm frame with
  | (s, none) => .next s
  | (s, some f) =>
    let b := f.body.drop 8
    let port := u8 f.body 1
    let udp := be16 f.body 2
    let ip := be32 f.body 4
    if u8 f.body 0 = 1 then
      .next (s.modCas (fun c => { c with routes := c.routes.filter (fun r =>
        !(r.session == port && r.device == f.src && r.writeId == be32 f.body 2)) }))
    else if bit (u8 b 3) 7 then
      if s.cas.role = .master then
        let s := s.routeReply f.src b
        let via := s.viaOut (.eth (Fin.ofNat 2 port))
        .next (if s.reachable via ip then s.emit (.acm ⟨via, ip, udp⟩ (s.pN P.SYS_ACM_PORT) b) else s)
      else .next s
    else .next (s.acmDatagram ⟨.trav p (256 * f.src + port), ip, udp⟩ b)

/-- TRAVERSE_SURFACE (R767): a forwarded surface datagram. -/
def execTraverseSurface (p : PortIx) (frame : Bytes) (s : State) : Res :=
  match s.travTake p kindSurface frame with
  | (s, none) => .next s
  | (s, some f) => if s.dev = .boot then .next s else .next (s.surfaceData f.body)

/-! ## Video and seam strips (R771, R775) -/

/-- TRAVERSE_VIDEO (R771): the sessions set to TRAVERSE take a packet of a path. DESIGN CHOICE: assumption 71. -/
def execTraverseVideo (t : Nat) (p : PortIx) (frame : Bytes) (s : State) : Res :=
  match (s.atTime t).travTake p kindVideo frame with
  | (s, none) => .next s
  | (s, some f) =>
    let q : PortIx := Fin.ofNat 2 (u8 f.body 0)
    match udpFields (f.body.drop 1) with
    | none => .next s
    | some (src, dst, udp, d) =>
      let takes (v : RxIx) : Bool :=
        let w := 2 * v.1 + q.1
        let from_ := s.pN P.ETH_RX_SOURCE w
        s.pB P.ETH_RX_ENABLE v.1 && bit (s.pN P.ETH_RX_PATHS v.1) q.1 && s.pN P.CAS_RX_VIA v.1 == 1 &&
          s.pN P.ETH_RX_GROUP w == dst && s.pN P.ETH_RX_UDP w == udp && (from_ == 0 || from_ == src)
      .next (((allFin 8).filter takes).foldl (fun s v => s.rxPacket v q d) s)

def State.modSeam (s : State) (k : Fin 8) (f : Seam → Seam) : State := s.modCas (fun c => { c with seam := vmod c.seam k f })

/-- The surface of a seam entry's pair that a strip goes into: neither IN_USE nor the newest complete one. -/
def State.seamTarget (s : State) (k : Fin 8) : Option Nat :=
  let x := s.cas.seam[k]
  (seamPair (s.pT P.CAS_SEAM_RX k.1)).find? (fun h =>
    h != x.newest && (match s.surface h with
      | none => false
      | some (_, y) => y.writer.isNone && (y.st == .ready || (y.st == .filling && (x.filling.map (·.1)) == some h))))

/-- Write one row of a strip. -/
def State.seamRow (s : State) (k : Fin 8) (row w h : Nat) (px : Bytes) : State :=
  let late (s : State) : State := s.modSeam k (fun x => { x with filling := none, late := inc 32 x.late })
  let s := if row = 0 then
      match s.seamTarget k with
      | none => late s
      | some t =>
        match s.surface t with
        | none => s
        | some (ix, y) =>
          if y.width ≠ w ∨ y.height ≠ h then late s
          else (s.modSurf ix (fun y => { y with st := .filling, valid := false })).modSeam k (fun x => { x with filling := some (t, 0) })
    else s
  match (s.cas.seam[k]).filling with
  | none => s
  | some (t, next) =>
    match s.surface t with
    | none => s.modSeam k (fun x => { x with filling := none })
    | some (ix, y) =>
      if next ≠ row ∨ y.width ≠ w ∨ y.height ≠ h then s
      else
        let pitch := match y.planes with
          | [] => 0
          | q :: _ => q.pitch
        let s := s.writeMem y.pool (y.off + row * pitch) (px.take (8 * w)) .ingress
        if row + 1 = h then
          (s.modSurf ix (fun y => { y with st := .ready, valid := true })).modSeam k (fun x => { x with newest := t, filling := none })
        else s.modSeam k (fun x => { x with filling := some (t, row + 1) })

/-- SEAM (R775): one row of a strip. DESIGN CHOICE: assumption 71. -/
def execSeam (p : PortIx) (frame : Bytes) (s : State) : Res :=
  match s.travTake p kindSeam frame with
  | (s, none) => .next s
  | (s, some f) =>
    let k : Fin 8 := Fin.ofNat 8 (u8 f.body 0)
    let t := s.pT P.CAS_SEAM_RX k.1
    if s.dev = .boot ∨ 8 ≤ u8 f.body 0 ∨ seamOn t = false ∨ u8 t 1 ≠ f.src then .next s
    else .next (s.seamRow k (be16 f.body 2) (be16 f.body 4) (be16 f.body 6) (f.body.drop 8))

end Sys2Proof.Machine
end

