-- ==== Sys2Proof/Machine/Tick.lean ====
section
/-! DEFINITION. The tick edge, its source, and the recomputation of the digests (02 R47 to R60, R73 to R93, R101 to R105; 16 R744
to R747, R757 to R762). -/

namespace Sys2Proof.Machine

/-! ## Head timing changes (R85 to R87) -/

/-- Do two configurations differ in a parameter of some indices? -/
def differIn (a b : Bank) (ids : List Nat) (ix : Nat) : Bool := ids.any (fun id => decide (bankGet a id ix ≠ bankGet b id ix))

/-- The nominal tick rate differs; it differs by no more than 0.5 %. -/
def rateMoves (a b : Bank) : Bool := differIn a b [P.TCK_RATE_NUM, P.TCK_RATE_DEN] 0
def rateNear (a b : Bank) : Bool :=
  let x := bkN b P.TCK_RATE_NUM * bkN a P.TCK_RATE_DEN
  let y := bkN a P.TCK_RATE_NUM * bkN b P.TCK_RATE_DEN
  decide (((x : Int) - y).natAbs * 200 ≤ y)

/-- The head-timing parameters of the plane heads (09) and the scan heads (10). -/
def planeMoves : List Nat := [P.PLN_COLS, P.PLN_ROWS, P.PLN_BLOCKS, P.PLN_TSETTLE, P.PLN_TPHASE, P.PLN_EMIN, P.PLN_FIELDS]
def scanMoves : List Nat :=
  [P.SCN_FREQ, P.SCN_FTOL, P.SCN_AMP_SET, P.SCN_ACTIVE, P.SCN_SAMPLES, P.SCN_LINES_ACT, P.SCN_FLYBACK]

/-- A head timing change other than of the rate: of any head, and one that affects a head of its type. -/
def anyHeadMoves (a b : Bank) : Bool := (List.range 4).any (differIn a b (P.TCK_HEAD_MULT :: planeMoves ++ scanMoves))
def headMoves (a b : Bank) (h : Nat) : Bool :=
  let ty := bkN b P.HDT_TYPE h
  differIn a b (P.TCK_HEAD_MULT :: (if ty = typePlane then planeMoves else if ty = typeScan then scanMoves else [])) h

/-- A trim (R85), and the heads that a commit retimes (R87). DEDUCED: assumption 79. -/
def isTrim (a b : Bank) : Bool := rateMoves a b && rateNear a b && !anyHeadMoves a b
def retimes (a b : Bank) (h : Nat) : Bool := headMoves a b h || (rateMoves a b && !isTrim a b)

/-! ## The source of the tick (R51 to R58; 16 R747, R751) -/

/-- The distance of an instant from the nearest of the instants `at_ + k * period`. -/
def fromNearest (x at_ : Int) (period : Nat) : Int :=
  let p : Int := (max 1 period : Nat)
  let r := (x - at_) % p
  if p < 2 * r then r - p else r

/-- The phase error of the edge against PTP alignment (R51), ns. -/
def State.ptpError (s : State) : Int :=
  let b := s.par.active
  let num := bkN b P.TCK_RATE_NUM
  let x := (s.ptp.time s.tick.edgeAt - bkI b P.TCK_OFFSET) * (num : Int)
  divRoundI (fromNearest x 0 (1000000000 * bkN b P.TCK_RATE_DEN)) num

/-- The measured period of PTP time T on the device's clock (R56), by the servo's frequency correction. -/
def State.ptpPeriod (s : State) (t : Nat) : Nat := (divRoundI ((t : Int) * 1000000000) (1000000000 + s.ptp.freq).toNat).toNat

/-- No TICK_IN edge has been accepted for 1.5 T at an instant (R56). -/
def State.tinLost (s : State) (x : Nat) : Bool :=
  match s.tick.tinAccepted with
  | some a => Nat.ble (2 * a + 3 * tickNs s.par.active) (2 * x)
  | none => true

/-- The source of the tick: its phase error at this edge, late positive, and its measured period; none while it is lost
(R51, R52, R56; 16 R747). DEDUCED: assumption 80. -/
def State.tickSource (s : State) : Option (Int × Nat) :=
  let b := s.par.active
  let x := s.tick.edgeAt
  if s.cas.role = .slave then
    match s.cas.edge with
    | some (_, at_, p) => if s.cas.heard then some (divRoundI (fromNearest (1000 * (x : Int)) at_ (1000 * p)) 1000, p) else none
    | none => none
  else if bkN b P.TCK_SOURCE = 1 then (if s.ptp.state = .slave then some (s.ptpError, s.ptpPeriod (tickNs b)) else none)
  else
    match s.tick.tinPredicted with
    | some q => if s.tinLost x then none else some (fromNearest x (q + bkI b P.TCK_OFFSET) s.tick.tinPeriod, s.tick.tinPeriod)
    | none => none

/-- Does the tick run free (R55)? A slave follows its master (R60). -/
def State.tickFree (s : State) : Bool := s.cas.role != .slave && s.pN P.TCK_SOURCE == 0

/-- A correction of at most 0.1 % of a period (R57). DEDUCED: assumption 80. -/
def correction (t : Nat) (err : Int) : Int := clampI (-((t / 1000 : Nat) : Int)) (t / 1000 : Nat) err

/-- The period that begins at this edge (R55 to R57): `moved` says that the edge has changed the rate, `jump` that it has done so
by a retime (R90). DEDUCED: assumption 79. -/
def State.setPeriod (s : State) (moved jump : Bool) : State :=
  let t := tickNs s.par.active
  let put (p : Nat) (err : Int) (measured : Nat) (st : TckStatus) : State :=
    { s with tick := { s.tick with
        period := p, phaseErr := err, measured := measured, status := st, nextEdge := s.tick.edgeAt + p } }
  if s.tickFree then put t 0 t .free
  else match s.tickSource with
    | none =>
      let m := if moved then t else s.tick.measured
      put m s.tick.phaseErr m .holdover
    | some (err, p) =>
      let far := Nat.blt 1000 err.natAbs || (s.tick.status == .converging && err.natAbs == 1000)
      let align := jump && s.cas.role != .slave && s.pN P.TCK_SOURCE == 1
      put ((p : Int) - (if align then err else correction p err)).toNat err p (if far then .converging else .locked)

/-- The period that an accepted TICK_IN edge measures: from the accepted edge before it over the periods between them, or, with
none predicted, from the rising edge before it. -/
def Tick.tinMeasure (k : Tick) (now period : Nat) : Nat :=
  match k.tinPredicted, k.tinAccepted, k.tinRise with
  | some _, some a, _ => (now - a) / max 1 (divHalfUp (now - a) period)
  | _, _, some r => now - r
  | _, _, none => period

/-- TICK_IN_EDGE (R53, R54): near an edge predicted from the accepted ones, or, with none predicted, a period after the
edge before it. DEDUCED: assumption 80. -/
def execTickInEdge (t : Nat) (s : State) : Res :=
  let s := s.atTime t
  let period := tickNs s.par.active
  let k := s.tick
  let ok := match k.tinPredicted with
    | some q => decide ((fromNearest s.now q k.tinPeriod).natAbs * 200 ≤ period) && Nat.blt (2 * q) (2 * s.now + period)
    | none => match k.tinRise with
      | some r => decide (((s.now : Int) - r - period).natAbs * 200 ≤ period)
      | none => false
  let p := k.tinMeasure s.now period
  let k := { k with tinRise := some s.now }
  let follows := s.pN P.TCK_SOURCE == 2
  .next { s with tick :=
    if ok && follows then { k with tinAccepted := some s.now, tinPredicted := some (s.now + p), tinPeriod := p } else k }

/-- TICK_HOLDOVER (R56): no TICK_IN edge accepted for 1.5 T, or the PTP servo not locked. A slave is told by its missing TICK
frames (16 R751). -/
def execTickHoldover (t : Nat) (s : State) : Res :=
  let s := s.atTime t
  let hold (s : State) : State := { s with tick := { s.tick with status := .holdover } }
  if s.cas.role = .slave then .next s
  else if s.pN P.TCK_SOURCE = 1 then .next (if s.ptp.state = .slave then s else hold s)
  else if s.pN P.TCK_SOURCE = 2 then
    .next (if s.tinLost s.now then hold { s with tick := { s.tick with tinPredicted := none } } else s)
  else .next s

/-! ## The cascade at an edge -/

/-- A slave takes its master's number (16 R745): the pending commit is aborted, and the plans with an absolute target become
active at the edge after. What counts from an edge of the old numbers is counted on. DEDUCED: assumption 74. -/
def State.adoptNumber (s : State) (n : Nat) : State :=
  let next := s.tick.count + 1
  let s := s.abortCommit reasonCascade 0 0xFF
  let s := { s with tick := { s.tick with count := n } }
  let s := s.modCas (fun c => { c with adopt := none })
  (allFin 4).foldl (fun s h =>
    (s.modComp h (fun c => { c with pend := c.pend.map (fun p => { p with edge := if p.target = 0 then n else n + 1 }) })).modHead h
      (fun x => { x with showAt := n + (x.showAt - next) })) s

/-- The number of the edge: one more, or the master's. -/
def State.countEdge (s : State) : State :=
  match s.cas.adopt with
  | some n => s.adoptNumber n
  | none => { s with tick := { s.tick with count := s.tick.count + 1 } }

/-- The master decides at edge n - 1 (16 R757): ABORT for the first participant whose ACK is missing, else GO. -/
def State.decideCommit (s : State) : State :=
  if s.cas.mine && s.cas.decision == .none && s.tick.commitAt == some (s.tick.count + 1) then
    match (List.range 8).find? (fun d => bit s.cas.parts d && !bit s.cas.acks d) with
    | some d => s.decideAbort reasonCascade d nakMissing
    | none => s.modCas (fun c => { c with decision := .go, go := true })
  else s

/-- A device that has not been heard of for two edges leaves the topology. DEDUCED: assumption 72. -/
def State.ageHops (s : State) : State :=
  let age (x : CasPort) : CasPort := { x with hops := x.hops.map (fun h => match h with
    | some (n, k) => if 1 ≤ k then none else some (n, k + 1)
    | none => none) }
  let t := s.modCas (fun c => { c with port := c.port.map age })
  if (List.range 8).all (fun d => s.present d == t.present d) then t else t.topologyChanged

/-- The frames of an edge (16 R743, R746), and the count of edges without a TICK frame (16 R750). -/
def State.cascadeEdge (s : State) : State :=
  let s := s.ageHops
  let s := if s.cas.role = .master then s.sendTick else s
  let s := (allFin 2).foldl (fun s p => s.sendLink p) s
  s.modCas (fun c => { c with
    silent := if c.role = .slave ∨ c.role = .waiting then (if c.heard then 0 else c.silent + 1) else 0
    heard := false
    decision := if c.target ≤ s.tick.count then .none else c.decision })

/-! ## The recomputation of the digests (R101 to R105) -/

/-- The accumulator of a group over some values, less that of the reset values: only the instances under `keys` can differ
from those, and the leaves of the others cancel. -/
def deltaOf (g : Nat) (keys : List Nat) (value : Nat → Nat → PVal) : Nat :=
  keys.foldl (fun a k =>
    let id := k / 65536
    let ix := k % 65536
    if id / 256 ≠ g then a
    else match paramDef id with
      | none => a
      | some d => (a + accMod - leaf d ix (resetValue id ix) + leaf d ix (value id ix)) % accMod) 0

/-- The group of an instance's key. -/
def groupOf (key : Nat) : Nat := key / 65536 / 256

/-- The recomputed accumulators: of what the blocks hold, and of the staged bank. -/
def State.heldDelta (s : State) (g : Nat) : Nat :=
  deltaOf g (s.par.active.map (·.1) ++ (s.par.held.map (·.1)).filter (fun k => (assocGet k s.par.active).isNone)) s.block
def State.stagedDelta (s : State) (g : Nat) : Nat := deltaOf g (s.par.staged.map (·.1)) (bankGet s.par.staged)

/-- A recomputation completes (R101 to R104): a group whose accumulators differ, and that has not been written since the
start, takes the recomputed ones. DEDUCED: assumption 82. -/
def State.recompDone (s : State) : State :=
  match s.par.recomp with
  | none => s
  | some r =>
    let kept (g : Nat) : Bool := r.written.contains g
    let accA := Vector.ofFn (fun (i : Fin 19) => if kept (i.1 + 1) then s.par.accA[i] else s.heldDelta (i.1 + 1))
    let accS := Vector.ofFn (fun (i : Fin 19) => if kept (i.1 + 1) then s.par.accS[i] else s.stagedDelta (i.1 + 1))
    let adopted := s.par.adopted.filter (fun e => kept (groupOf e.1)) ++ s.par.held.filter (fun e => !kept (groupOf e.1))
    let split := maskOf (groups.filter (fun g => accA[groupIx g] != s.par.accA[groupIx g] || accS[groupIx g] != s.par.accS[groupIx g]))
    let s := { s with par := { s.par with recomp := none, recompAt := r.start, accA := accA, accS := accS, adopted := adopted } }
    if split = 0 then s
    else
      let d := [0#8, 0xFF#8, 1#8, 0#8] ++ toBE 4 split ++ toBE 8 (deviceDigest s.par.accA)
      (s.log 2 1 clsInfo 0xFF (d.take 12)).raise evConfigSplit d

/-! ## The commit edge (R73, R81; 16 R759, R760) -/

/-- What a commit edge restarts or clears for one head: clones (06 R370), regions (13 R661), touch (14 R684), a plane store that is
replaced (09 R484, R485). -/
def State.commitHead (s : State) (a b : Bank) (h : HeadIx) : State :=
  let s := if bkN b P.CMP_CLONE h.1 < 4 ∧ bkN a P.CMP_CLONE h.1 ≠ bkN b P.CMP_CLONE h.1 then
      s.modComp h (fun c => { c with plan := none, pend := none })
    else s
  let whole := differIn a b [P.CMP_CLONE] h.1 || bkCanvasW a h.1 != bkCanvasW b h.1 || bkCanvasH a h.1 != bkCanvasH b h.1
  let s := (allFin 16).foldl (fun s k =>
    if whole || differIn a b [P.HDT_REGION] (16 * h.1 + k.1) then s.modSig h k Sig.restart else s) s
  let s := if touchRestarts a b h then s.touchRestart h else s
  let s := if s.stores.any (fun e => e.1 == h.1) then s.modPln h (fun p => { p with bufs := Vector.replicate 3 PlaneBuf.reset }) else s
  s.modCol h (fun c => { c with cal := c.calNext, calNext := none })

/-- The staged configuration becomes active (R73; 01 R44; 03 R154; 09 R484). -/
def State.activate (s : State) : State :=
  let a := s.par.active
  let b := s.par.staged
  let n := s.tick.count
  let was := (allFin 2).map (fun p => s.memberships p)
  let same (e : Nat × PVal) : Bool := decide (bankGet a (e.1 / 65536) (e.1 % 65536) = bankGet b (e.1 / 65536) (e.1 % 65536))
  let s := { s with
    par := { s.par with
      active := b, accA := s.par.accS, held := s.par.held.filter same, adopted := [], budgetActive := s.par.budgetStaged }
    tick := { s.tick with commitAt := none }
    bly := { s.bly with edge := n }
    thm := (s.thermalMode a b).thm
    surf := { s.surf with extra := s.stores.foldl (fun x (e : Nat × (Nat × Nat)) =>
      if e.2.2 = 0 then assocDel e.1 x else assocSet e.1 e.2 x) s.surf.extra }
    flt := if differIn a b [P.SYS_WORKPLAN] 0 then (s.flt.assign (planOf b)).loadSpares (planOf b) else s.flt }
  let s := s.modCas (fun c => { c with mine := false, go := false, vote := none, decision := .none })
  let s := { (allFin 4).foldl (fun s h => s.commitHead a b h) ((s.moveQdr a b).copyChanged a b) with stores := [] }
  let s := (allFin 8).foldl (fun s v =>
    if bkN a P.ETH_RX_ENABLE v.1 != 0 && bkN b P.ETH_RX_ENABLE v.1 == 0 then s.rxDisable v else s) s
  let s := (allFin 2).foldl (fun s p =>
    if s.linkUp p then s.reportIgmp p (igmpChange (was.getD p.1 []) (s.memberships p)) else s) s
  let s := if bkN a P.TCK_SOURCE ≠ 2 ∧ bkN b P.TCK_SOURCE = 2 then
      { s with tick := { s.tick with tinPredicted := none, tinAccepted := none } }
    else s
  (s.pllRefresh.logWindows).raise evCommitDone (toBE 8 n ++ toBE 8 (deviceDigest s.par.accA))

/-- A pending commit at its edge: active, or aborted in HOLD or without GO. -/
def State.commitEdge (s : State) : State :=
  match s.tick.commitAt with
  | none => s
  | some n =>
    if s.tick.count < n then s
    else if s.dev = .hold then s.abortCommit reasonHold 0 0xFF
    else if s.cas.go then s.activate
    else s.abortCommit reasonCascade 0 0xFF

/-- Running heads whose timing the edge has changed are retimed (R87, R88); a head that waits restarts later anyway. -/
def State.retimeEdge (s : State) (a : Bank) : State :=
  (allFin 4).foldl (fun s h =>
    if (s.head[h]).on && !(s.head[h]).wait && retimes a s.par.active h.1 then s.retime h else s) s

/-! ## Heads and axes at an edge -/

/-- The fast axis of a scan head leaves STOPPED, and that of another port returns to it (10 R509, Table 10-5). -/
def State.axisEdge (s : State) (h : HeadIx) : State :=
  if !s.isScan h then s.modScn h (fun x => { x with st := .stopped, sweepDue := false })
  else if (s.scn[h]).st == .stopped && s.dev != .boot then s.sweepStart h
  else s

/-- Stop, start and restart the heads (R93): a head that left ARMED within the tick stops although ARMED was entered again. -/
def State.headsEdge (s : State) : State :=
  let s := if s.headsStop then (allFin 4).foldl (fun s h => if s.running h then s.stopHead h else s) s else s
  let s := { s with headsStop := false }
  (allFin 4).foldl (fun s h => (s.axisEdge h).headEdge h) s

/-- HOLD counts its edges (02, Within HOLD; 19 R849). -/
def State.holdEdge (s : State) : State :=
  if s.dev = .hold then
    { s with tick := { s.tick with holdTicks := inc 32 s.tick.holdTicks }, pwr := { s.pwr with missed := s.pwr.missed + 1 } }
  else s

/-- A recomputation begins at every 256th edge; one that still runs has completed before it (R101). DEDUCED: assumption 82. -/
def State.recompEdge (s : State) : State :=
  if s.tick.count % 256 = 0 then
    let s := s.recompDone
    { s with par := { s.par with recomp := some ⟨s.tick.count, []⟩ } }
  else s

/-- The controllers that stand FAILED at the edge shut the memory to what is outside the mirror pool (17 R788). DEDUCED:
assumption 38. -/
def State.shutEdge (s : State) : State := { s with mem := { s.mem with shut := s.mem.failed.toList.any id } }

/-- The SOLVE task of the tick that begins. -/
def State.solveEdge (s : State) : State := { s with sol := { SolveTask.reset with dim := s.sol.dimNext } }

/-- The reports of the tick that ends. -/
def State.reportEdge (s : State) : State := (((s.legalEdge).freezeEdge).underrunEdge).thermalEdge

/-- The compositors have completed every read and writeback of the frame before (05 R290). -/
def State.composeEdge (s : State) : State := { s with comp := s.comp.map (fun c => { c with busy := false }) }

/-- The latches of an edge: layer sources (06 R357 to R367) and the island's buffer (15 R724). DEDUCED: assumption 80. -/
def State.sourceEdge (s : State) : State :=
  (s.composeEdge.latchEdge (fun h => s.headsRun && s.typeOf h != typeNone)).latchWindow

/-- The solves armed for the frame, with the ranges of scan heads (08 R439; 11 R545). -/
def State.solvesEdge (s : State) : State :=
  (allFin 4).foldl (fun s h =>
    let s := s.applySolve h
    if s.running h && s.isScan h then s.setRanges h (s.col[h]).cur else s) s

/-- Membership changes are reported again once they are due (04 R186). PRESUMED: assumption 27. -/
def State.igmpEdge (s : State) : State := (allFin 2).foldl (fun s p => s.repeatIgmp p) s

/-- TICK_OUT stays high for 10 us (R59). -/
def tickOutNs : Nat := 10000

/-- The tick edge that the generator has placed (R50, R58, R90; Table 2-2): the tick that ends is closed under its own
configuration (11 R559), then come the commit and what the new tick takes. DEDUCED: assumption 79. -/
def State.tickEdge (s : State) : State :=
  let s := { s with tick := { s.tick with edgeAt := s.tick.nextEdge } }
  let a := s.par.active
  let s := ((s.deadline.countEdge.reportEdge.closeSums a).decideCommit).commitEdge
  let moved := rateMoves a s.par.active
  let s := s.shutEdge.sourceEdge
  let s := ((s.headsEdge.retimeEdge a).solvesEdge).openSums
  let s := s.pllEdge.holdEdge.recompEdge.solveEdge
  let s := ((s.setPeriod moved (moved && !isTrim a s.par.active)).headClocks).traceEvent 2
  ((s.emit (.tickOut s.tick.edgeAt tickOutNs)).cascadeEdge).igmpEdge.settle

/-- TICK_EDGE: the next edge falls where the generator has placed it, once t has come to it; nothing moves it (R58).
DEDUCED: assumption 79. -/
def execTickEdge (t : Nat) (s : State) : Res :=
  if s.tickRuns && Nat.ble s.tick.nextEdge (max s.now t) then .next ((s.atTime s.tick.nextEdge).tickEdge.atTime t)
  else .next (s.atTime t)

/-- DIGEST_RECOMPUTE_DONE (R101 to R104). DEDUCED: assumption 82. -/
def execDigestRecomputeDone (s : State) : Res := .next s.recompDone

end Sys2Proof.Machine
end

