-- ==== Sys2Proof/Machine/Power.lean ====
section
/-! DEFINITION. Supplies, HOLD, resets, boot, the epoch and key store, and boundary scan (19 R846 to R880; 02 R81; 03 R140, R152,
R963; 05 R232, R247, R262, R297; 17 R793; 21 R941 to R945). -/

namespace Sys2Proof.Machine

def State.modPwr (s : State) (f : Pwr → Pwr) : State := { s with pwr := f s.pwr }

/-! ## Warning levels and HOLD (R846 to R852) -/

/-- The warning level of a rail, mV (Table 19-2). -/
def warnLevel : Rail → Nat
  | .core => 705
  | .a18 => 1710

/-- SYS_RAILS follows a rail that has fallen below its warning level. -/
def Pwr.lower (x : Pwr) : Rail → Pwr
  | .core => { x with coreLow := true }
  | .a18 => { x with a18Low := true }

/-- A rail that falls, or falls further, in HOLD: RAIL, and the lowest level of RAIL; with both rails, that of VDD_CORE.
DEDUCED: assumption 89. -/
def Pwr.dip (x : Pwr) (rail : Rail) (mv : Nat) : Pwr :=
  match rail with
  | .core => { x with holdCore := true, vmin := if x.holdCore then min x.vmin mv else mv }
  | .a18 => { x with holdA18 := true, vmin := if x.holdCore then x.vmin else min x.vmin mv }

/-- SUPPLY_WARNING (R847, R848): HOLD is entered out of BOOT; a dip in HOLD goes on with it. DEDUCED: assumption 89. -/
def execSupplyWarning (t : Nat) (rail : Rail) (mv : Nat) (s : State) : Res :=
  let s := s.atTime t
  if warnLevel rail ≤ mv then .next s
  else
    let s := s.modPwr (fun x => x.lower rail)
    match s.dev with
    | .boot => .next s
    | .hold => .next (s.modPwr (fun x => x.dip rail mv))
    | _ => .next (s.enterHold (rail == .core) (rail == .a18) mv)

/-- The state after HOLD (Table 19-3). -/
def State.afterHold (s : State) : DevState :=
  if s.pwr.holdSafe ≠ 0 then .safe
  else if s.pwr.holdFrom = .lit ∧ s.pwr.holdDrop = true then .armed
  else s.pwr.holdFrom

/-- RAIL of Table 19-4. -/
def Pwr.rail (x : Pwr) : Nat := if x.holdCore && x.holdA18 then 2 else if x.holdA18 then 1 else 0

/-- EV_BROWNOUT_WARN DATA of KIND 2 (Table 19-4). -/
def State.holdLeft (s : State) (after : DevState) : Bytes :=
  [byteOf s.pwr.rail, 2#8, byteOf s.pwr.holdFrom.code, byteOf after.code] ++ toBE 4 s.pwr.missed ++ toBE 2 s.pwr.vmin ++
    toBE 2 (min 65535 ((s.now - s.pwr.holdAt) / 100000))

/-- The head frame in progress when HOLD ends is presented blank and recorded so (R852). -/
def State.blankRunning (s : State) : State :=
  (allFin 4).foldl (fun s h =>
    let x := s.head[h]
    if !x.on then s
    else
      let s := if x.blank || x.frames == 0 then s else s.emit (.record h s.tick.count x.second true)
      (s.modHead h (fun x => { x with blank := true })).modPln h Pln.blanked) s

/-- Leave HOLD (R851). DEDUCED: assumption 84. -/
def State.leaveHold (s : State) : State :=
  let after := s.afterHold
  let d := s.holdLeft after
  let cause := s.pwr.holdSafe
  let s := { s with dev := if cause = 0 then after else s.pwr.holdFrom }
  let s := (s.log 0 6 clsInfo 0xFF d).raise evBrownoutWarn d
  ((if cause = 0 then s else s.enterSafe cause).blankRunning).settle

/-- HOLD_END (R850): both rails have stayed above their warning level and hysteresis for 100 us. DEDUCED: assumption 89. -/
def execHoldEnd (t : Nat) (s : State) : Res :=
  let s := (s.atTime t).modPwr (fun x => { x with coreLow := false, a18Low := false })
  .next (if s.dev = .hold then s.leaveHold else s)

/-! ## What asks for a WARM reset (Table 19-6) -/

/-- A WARM reset is due at once; one that is due already keeps its cause. DEDUCED: assumption 86. -/
def State.resetDue (s : State) (cause : ResetCause) : State :=
  s.modPwr (fun x =>
    if x.due.isSome ∧ x.dueAt ≤ s.now then x else { x with due := some cause, dueAt := s.now })

/-- SUPPLY_RESET_LEVEL (R853). -/
def execSupplyResetLevel (t : Nat) (rail : Rail) (s : State) : Res :=
  .next (((s.atTime t).modPwr (fun x => x.lower rail)).resetDue .brownout)

/-- RESET_N_ASSERT (R854): asserted for 1 us. -/
def execResetNAssert (t : Nat) (s : State) : Res :=
  .next (((s.atTime t).modPwr (fun x => { x with resetPin := true })).resetDue .resetN)

/-- WATCHDOG_EXPIRY (R856): out of BOOT; it has an entry of its own in Table 17-7. DEDUCED: assumption 107. -/
def execWatchdogExpiry (t : Nat) (s : State) : Res :=
  let s := s.atTime t
  .next (if s.dev = .boot then s else (s.log 0x01 1 clsInfo 0xFF []).resetDue .watchdog)

/-- BOOT_TIMEOUT (R867): 5 s after the end of reset, in BOOT; the next boot takes the other bank. DEDUCED: assumption 86.
DEDUCED: assumption 90. -/
def execBootTimeout (t : Nat) (s : State) : Res :=
  let s := s.atTime t
  if s.dev = .boot ∧ s.pwr.phase = .booting ∧ s.pwr.bootAt + 5000000000 ≤ s.now then
    .next ((s.modPwr (fun x => { x with otherBank := true })).resetDue .bootTimeout)
  else .next s

/-! ## WARM reset (R857, Table 19-7) -/

/-- What the journal keeps: the message that the reset interrupts becomes the intent record, accepted messages go before those
accepted later (03 R140), event timers stop (03 R963). Held messages, and HELLOs that wait, are lost. -/
def Acm.warm (x : Acm) : Acm :=
  { x with
    accepted := x.accepted.map (fun m => { m with old := true })
    intent := x.intent.map (fun m => { m with old := true })
    hellos := []
    acks := []
    sess := x.sess.map (fun q => { q with held := [], events := q.events.map (fun e => { e with due := none }) }) }

/-- The interrupted message has an intent record and no completion record. DESIGN CHOICE: assumption 20. -/
def State.interrupt (s : State) : State :=
  match s.acm.intent, s.chosen with
  | none, some m =>
    let s := s.drop m
    { s with acm := { s.acm with intent := some m } }
  | _, _ => s

/-- The pending commit is aborted (02 R81); a participant says so before edge n - 1 (16 R761). -/
def State.warmCommit (s : State) : State :=
  match s.tick.commitAt with
  | none => s
  | some n =>
    let s := if s.cas.role = .slave ∧ s.tick.count + 1 < n then s.sendVote nakReset else s
    s.abortCommit reasonReset 0 0xFF

/-- Memory: LPDDR5 keeps its contents in self-refresh, QDR loses them; a FAILED controller is trained again (05 R247,
R262). DESIGN CHOICE: assumption 13. DEDUCED: assumption 87. -/
def Mem.warm (x : Mem) : Mem :=
  { x with
    ch := x.ch.map (fun (c : Chan) => { Chan.reset with selfRef := true, mr4Due := true, refreshes := c.refreshes, ce := c.ce, ue := c.ue })
    qdr := Mem.reset.qdr
    qpoison := Mem.reset.qpoison
    qresp := Mem.reset.qresp
    failed := Mem.reset.failed
    shut := false
    ueAt := Mem.reset.ueAt
    evAt := Mem.reset.evAt }

/-- A port leaves reset at step 1 of Table 4-2 (04 R177). -/
def Port.warm (x : Port) (now : Nat) (phase : LinkPhase) : Port :=
  { Port.reset with
    phase := phase, filledAt := now, fecCorr := x.fecCorr, fecUncorr := x.fecUncorr, badFrames := x.badFrames, drops := x.drops
    policed := x.policed, haltDrops := x.haltDrops }

/-- DEDUCED: assumption 31. -/
def Rx.warm (x : Rx) : Rx :=
  { Rx.reset with framesOk := x.framesOk, discards := x.discards, nosurfs := x.nosurfs, badPkt := x.badPkt, late := x.late, lost := x.lost }

/-- Plans stay; nothing is latched and nothing is being composed. -/
def Comp.warm (x : Comp) : Comp :=
  { Comp.reset with
    plan := x.plan, pend := x.pend, held := x.held, noSrc := x.noSrc, mismatch := x.mismatch, uncorr := x.uncorr, atcErr := x.atcErr }

def Col.warm (x : Col) : Col := { Col.reset with cal := x.cal, fails := x.fails }

def Pln.warm (x : Pln) : Pln :=
  { Pln.reset with rdy := x.rdy, underruns := x.underruns, checkErr := x.checkErr, rdyLoss := x.rdyLoss }

def Scn.warm (x : Scn) : Scn :=
  { Scn.reset with
    underruns := x.underruns, notReached := x.notReached, uncorr := x.uncorr, legalErr := x.legalErr, fails := x.fails }

/-- Latched channel faults and counters stay (11 R568). -/
def Emit.warm (x : Emit) : Emit :=
  { Emit.reset with
    openF := x.openF, shortF := x.shortF, driverF := x.driverF, faults := x.faults, probes := x.probes, clamps := x.clamps }

/-- The engine starts again; a triggered capture stays readable (12 R590, R635). -/
def Bly.warm (x : Bly) : Bly :=
  { Bly.reset with
    slot := x.slot.map (fun (y : BlySlot) => { BlySlot.reset with handovers := y.handovers })
    edge := x.edge
    trace := match x.trace.st with
      | .triggered => { x.trace with st := .done }
      | .done => x.trace
      | _ => Trace.reset }

def Head.warm (x : Head) : Head :=
  { Head.reset with
    frames := x.frames, underruns := x.underruns, syncMiss := x.syncMiss, shadowErr := x.shadowErr
    regions := x.regions.map (fun (r : Sig) => { Sig.reset with freezes := r.freezes }) }

def Touch.warm (x : Touch) : Touch := { Touch.reset with films := x.films, late := x.late, blinds := x.blinds }

/-- The cascade is learned again (16 R744); its counters stay. -/
def Cas.warm (x : Cas) : Cas :=
  { Cas.reset with
    port := x.port.map (fun (p : CasPort) => { CasPort.reset with errs := p.errs, fwdDrops := p.fwdDrops })
    lastAbort := x.lastAbort
    aborts := x.aborts
    seam := x.seam.map (fun (y : Seam) => { Seam.reset with late := y.late }) }

/-- Every PLL but the island's locks again. DEDUCED: assumption 87. -/
def Clk.warm (x : Clk) : Clk :=
  { Clk.reset with
    pll := Vector.ofFn (fun (k : Fin 20) => if k = pllIsl then x.pll[k] else { Pll.reset with unlocks := (x.pll[k]).unlocks })
    refMissing := x.refMissing }

/-- The reset of the core: what it clears, in the order of the state's fields. DEDUCED: assumption 87. -/
def State.warmCore (s : State) (cause : ResetCause) : State :=
  { s with
    dev := .boot
    par := { s.par with held := [] }
    acm := s.acm.warm
    internal := []
    pwr := { s.pwr with
      due := none, phase := .inReset, cause := cause, otherBank := cause == .bootTimeout, holdDrop := false, holdSafe := 0 }
    fw := { s.fw with fw := .idle, fwLen := 0, fwDone := 0 }
    eth := { s.eth with ports := Vector.ofFn (fun p => (s.eth.ports[p]).warm s.now 
      (firstPhase (bkN s.par.active P.ETH_MEDIA p.1) (bkN s.par.active P.ETH_AN p.1))), buf := [], halt := Vector.replicate 2 [] }
    rx := s.rx.map Rx.warm
    ptp := Ptp.reset
    mem := s.mem.warm
    comp := s.comp.map Comp.warm
    codec := { s.codec with result := Codec.reset.result }
    col := s.col.map Col.warm
    sol := SolveTask.reset
    pln := s.pln.map Pln.warm
    stores := []
    scn := s.scn.map Scn.warm
    em := s.em.map Emit.warm
    anc := { s.anc with motion := Anchor.reset.motion }
    bly := s.bly.warm
    head := s.head.map Head.warm
    headsRun := false
    headsStop := false
    tch := s.tch.map Touch.warm
    lw := { s.lw with latched := none, logged := Vector.replicate 4 false }
    cas := s.cas.warm
    clk := s.clk.warm
    thm := { Thm.reset with throttles := s.thm.throttles }
    flt := s.flt.unload
    lmp := s.lmp.stop }

/-- DATA of the entry of a WARM reset (R855). -/
def ResetCause.logData : ResetCause → Nat
  | .watchdog => 1
  | .reset => 2
  | _ => 0

/-- A WARM reset. DEDUCED: assumption 84. DEDUCED: assumption 87. -/
def State.warm (s : State) (cause : ResetCause) (interrupting : Bool) : State :=
  let s := s.log 0 4 clsInfo 0xFF [byteOf cause.logData]
  let s := if interrupting then s.interrupt else s
  -- a SAFE that was due at the end of HOLD is latched (Table 19-3; 17 R793)
  let s := if s.dev = .hold ∧ s.flt.safeCause = 0 then { s with flt := { s.flt with safeCause := s.pwr.holdSafe } } else s
  let t := (allFin 8).foldl State.rxDisable { s with dev := .boot }
  -- the fills it discards are not counted (05 R297)
  let s := { t with rx := Vector.ofFn (fun v => { t.rx[v] with discards := (s.rx[v]).discards }) }.warmCommit
  ((s.warmCore cause).pllRefresh).settle

/-- WARM_RESET (R854, R857; 03 R152): the reset that is due is performed. DESIGN CHOICE: assumption 20. DEDUCED:
assumption 86. -/
def execWarmReset (t : Nat) (interrupting : Bool) (s : State) : Res :=
  let s := s.atTime t
  match s.pwr.due with
  | none => .next s
  | some cause => if s.now < s.pwr.dueAt then .next s else .next (s.warm cause interrupting)

/-! ## The epoch records (R868 to R870) -/

/-- An epoch record, and the epoch of a valid one. DESIGN CHOICE: assumption 12. -/
def epochRecord (e : Nat) : Bytes :=
  let b := toLE 4 e ++ zeros 8
  b ++ toLE 4 (crc32 b)

def epochOf (r : Bytes) : Option Nat := if r.length = 16 ∧ le32 r 12 = crc32 (r.take 12) then some (le32 r 0) else none

/-- The highest valid epoch of a sector, and of both with its sector. -/
def sectorTop (l : List Bytes) : Option Nat :=
  (l.filterMap epochOf).foldl (fun a e => some (match a with
    | none => e
    | some b => max b e)) none

/-- DESIGN CHOICE: assumption 12. -/
def Flash.topEpoch (f : Flash) : Option (Fin 2 × Nat) :=
  match sectorTop f.epochs[0], sectorTop f.epochs[1] with
  | some a, some b => some (if a < b then (1, b) else (0, a))
  | some a, none => some (0, a)
  | none, some b => some (1, b)
  | none, none => none

/-- The next epoch, written (R868 to R870). DESIGN CHOICE: assumption 12. -/
def Flash.nextEpoch (f : Flash) : Flash × Nat :=
  match f.topEpoch with
  | none => ({ f with epochs := vset f.epochs 0 [epochRecord 1] }, 1)
  | some (k, e) =>
    if e = 0xFFFFFFFF then
      ({ f with
        keys := Flash.blank.keys, commKey := Flash.blank.commKey, cascKey := none
        epochs := vset (vset f.epochs (1 - k) [epochRecord 1]) k [] }, 1)
    else
      let r := epochRecord (e + 1)
      ({ f with
        epochs := if (f.epochs[k]).length < 256 then vmod f.epochs k (fun l => l ++ [r]) else vset f.epochs (1 - k) [r] }, e + 1)

/-! ## COLD reset (R853, R854, R857, R862) -/

/-- A COLD reset: a new epoch; the flash, the island and the levels of the pins stay. DEDUCED: assumption 84. -/
def State.cold (s : State) (cause : ResetCause) : State :=
  let (fw, e) := s.fw.nextEpoch
  { State.reset with
    pending := s.pending
    now := s.now
    free := s.free
    out := s.out
    tick := { Tick.reset with edgeAt := s.now, nextEdge := s.now + Tick.reset.period }
    acm := Acm.reset e
    pwr := { Pwr.reset with coreLow := s.pwr.coreLow, a18Low := s.pwr.a18Low, resetPin := s.pwr.resetPin, cause := cause }
    fw := { fw with fw := .idle, fwLen := 0, fwDone := 0 }
    eth := { Eth.reset with gpio := s.eth.gpio }
    pln := s.pln.map (fun (p : Pln) => { Pln.reset with rdy := p.rdy })
    anc := { Anchor.reset with pinA := s.anc.pinA, pinB := s.anc.pinB, differAt := s.anc.differAt }
    isl := { s.isl with reported := false }
    clk := { Clk.reset with pll := vset Clk.reset.pll pllIsl s.clk.pll[pllIsl], refMissing := s.clk.refMissing }
    jtag := s.jtag }

/-- COLD_RESET (R853, R854): VDD_AON rises through its reset level. -/
def execColdReset (t : Nat) (s : State) : Res := .next ((s.atTime t).cold .powerOn)

/-- AON_POWER_LOSS (R853): the epoch ends; nothing is driven until the next COLD reset. -/
def execAonPowerLoss (s : State) : Res :=
  .next { (s.cold .powerOn) with
    acm := { s.acm with sess := s.acm.sess.map (fun _ => Session.closed), accepted := [], intent := none, hellos := [], acks := [], halts := [] }
    fw := { s.fw with fw := .idle, fwLen := 0, fwDone := 0 }
    pwr := { s.pwr with aonUp := false, phase := .inReset, due := none } }

/-! ## Boot (R866, R867, R871 to R873; 21 R941) -/

/-- Does the bank of a record copy qualify (R866)? DESIGN CHOICE: assumption 10. -/
def Flash.qualifies (f : Flash) (k : Fin 2) : Bool :=
  let r := f.recs[k]
  let image := (f.banks[bankIx (recBankB r)]).take (recLength r)
  recordOk r && image.length == recLength r && sha384 image == recHash r && Config.fwSignature image

/-- The record copies in the order the boot ROM takes them: current, fallback; after a boot timeout the one of the bank that
the failed boot did not take comes first (R867). -/
def Flash.bootOrder (f : Flash) (other bankB : Bool) : List (Fin 2) :=
  let l : List (Fin 2) := match f.current with
    | none => []
    | some k => [k, 1 - k].filter (fun j => recordOk f.recs[j])
  if other then l.filter (fun k => recBankB f.recs[k] != bankB) ++ l.filter (fun k => recBankB f.recs[k] == bankB) else l

/-- The copy whose bank is booted. -/
def Flash.bootCopy (f : Flash) (other bankB : Bool) : Option (Fin 2) := (f.bootOrder other bankB).find? f.qualifies

/-- The boot ROM chooses a bank. The BLOCK and CODE of the entry of a fallback boot are not stated: free values. DESIGN
CHOICE: assumption 26. -/
def State.chooseBank (s : State) : State :=
  let order := s.fw.bootOrder s.pwr.otherBank s.pwr.bankB
  match s.fw.bootCopy s.pwr.otherBank s.pwr.bankB with
  | none => s.modPwr (fun x => { x with phase := .noBank, otherBank := false })
  | some k =>
    let b := recBankB s.fw.recs[k]
    let s := if order.head? = some k then s
      else
        let free := Config.freeNat s.free
        s.draw.log (free % 256) (free / 256 % 256) clsInfo 0xFF []
    (s.modPwr (fun x => { x with phase := .booting, bankB := b, otherBank := false })).emit (.bootLog (b2n b))

/-- The end of a COLD reset writes its entry (17 Table 17-7). DEDUCED: assumption 84. -/
def State.coldEntry (s : State) : State :=
  if s.pwr.cause = .powerOn ∨ s.pwr.cause = .restore then s.log 0 3 clsInfo 0xFF [] else s

/-- RESET_N_RELEASE (R866, R871; 21 R941): the reset that stands ends; a COLD reset writes its entry and samples CASC_ROLE. A brownout
reset does not end while a rail is low (R853). DEDUCED: assumption 84. DEDUCED: assumption 86. -/
def execResetNRelease (t : Nat) (gpio15 cascRole : Bool) (s : State) : Res :=
  let s := (s.atTime t).modPwr (fun x => { x with resetPin := false })
  let p := s.pwr
  if s.dev ≠ .boot ∨ p.phase ≠ .inReset ∨ p.aonUp = false ∨ p.due.isSome = true ∨ (p.cause = .brownout ∧ (p.coreLow || p.a18Low) = true) then .next s
  else
    let cold := p.cause == .powerOn || p.cause == .restore
    let s := s.modPwr (fun x => { x with
      bootAt := s.now, gpio15 := gpio15, cascRole := if cold then cascRole else x.cascRole })
    -- the tick generator runs from the end of COLD reset (02 R50)
    let s := if cold then
        { s with tick := { s.tick with edgeAt := s.now, nextEdge := s.now + s.tick.period } } else s
    let s := s.coldEntry
    .next (if gpio15 then s.modPwr (fun x => { x with phase := .service, otherBank := false }) else s.chooseBank)

/-- Do the accumulators of the store's values equal those held in the always-on domain (R861, R862)? DEDUCED: assumption
88. -/
def State.storeOk (s : State) : Bool :=
  (allFin 19).all (fun i =>
    s.par.accA[i] == deltaOf (i.1 + 1) (s.par.active.map (·.1)) (bankGet s.par.active) &&
      s.par.accS[i] == deltaOf (i.1 + 1) (s.par.staged.map (·.1)) (bankGet s.par.staged))

/-- The first controller with a channel denser than the smallest one. DEDUCED: assumption 89. -/
def densityMismatch (d : Vector (Fin 4) 8) (low : Nat) : Option Nat := (List.range 4).find? (fun m =>
  Nat.blt low (d[Fin.ofNat 8 (2 * m)]).1 || Nat.blt low (d[Fin.ofNat 8 (2 * m + 1)]).1)

/-- Training reads the densities (05 R232); where they differ, one entry is written. -/
def State.train (s : State) (d : Vector (Fin 4) 8) : State :=
  let low := d.toList.foldl (fun a x => min a x.1) 3
  let s := { s with mem := { s.mem with density := low, ch := s.mem.ch.map (fun (c : Chan) => { c with selfRef := false }) } }
  match densityMismatch d low with
  | none => s
  | some m => s.log (8 + m) 1 clsInfo m []

/-- Events that wait are sent, or sent again (03 R963). -/
def State.resendEvents (s : State) : State :=
  (allFin 4).foldl (fun s q =>
    if (s.acm.sess[q]).open_ then (s.acm.sess[q]).events.foldl (fun s e => s.sendEvent q e) s else s) s

/-- BOOT ends (R858, R861, R873; 17 R782, R793). -/
def State.bootDone (s : State) (d : Vector (Fin 4) 8) : State :=
  let s := s.train d
  let s := { s with
    dev := if s.flt.safeCause = 0 then .standby else .safe
    acm := { s.acm with keys := s.fw.keys, commKey := s.fw.commKey, cascKey := s.fw.cascKey }
    bly := { s.bly with base := 0, startNs := s.now }
    flt := s.flt.loadSpares (planOf s.par.active)
    pwr := { s.pwr with phase := .done, bootMs := (s.now - s.pwr.bootAt) / 1000000 } }
  -- the QDR contents are gone: every head's mesh and map are copied again (09 R459)
  let s := (List.range 4).foldl (fun s h => s.copyMaps h) s
  ((allFin 2).foldl State.travRelease s).resendEvents.settle

/-! ## Service boot (R871, R872) -/

/-- A key of the key store; no bytes for an empty slot. DEDUCED: assumption 90. -/
def keyOf (key : Bytes) : Option Bytes := if key.isEmpty then none else some key

/-- SERVICE_KEY_WRITE (R871, R872): the slot's session is closed and its journal cleared. DEDUCED: assumption 90. -/
def execServiceKeyWrite (slot : KeySlot) (key : Bytes) (commission : Bool) (s : State) : Res :=
  if s.pwr.phase ≠ .service then .next s
  else match slot with
    | .cascade => .next { s with fw := { s.fw with cascKey := keyOf key } }
    | .host q =>
      let mine (m : Msg) : Bool := m.session == q
      let s := s.modSess q (fun x => { Session.closed with authFail := x.authFail, helloCount := x.helloCount })
      .next { s with
        fw := { s.fw with keys := vset s.fw.keys q (keyOf key), commKey := vset s.fw.commKey q commission }
        acm := { s.acm with
          accepted := s.acm.accepted.filter (fun m => !mine m)
          intent := s.acm.intent.filter (fun m => !mine m)
          halts := s.acm.halts.filter (fun x => x.session != q) } }

/-- SERVICE_FLASH_RECOVERY (R871): when no bank qualifies, a bank and the commit record copy that is not current are
rewritten. DEDUCED: assumption 90. -/
def execServiceFlashRecovery (bankB : Bool) (image record : Bytes) (s : State) : Res :=
  let serves := s.pwr.phase = .service ∨ s.pwr.phase = .noBank
  if serves ∧ s.fw.bootCopy false false = none then
    .next { s with fw := { s.fw with
      banks := vset s.fw.banks (bankIx bankB) image
      recs := vset s.fw.recs s.fw.spareCopy record } }
  else .next s

/-! ## Boundary scan (21 R944, R945) -/

/-- BOUNDARY_SCAN_INSTRUCTION: nothing while TRST_N is low; BYPASS and IDCODE at any time, the others while RESET_N is
asserted. PRESUMED: assumption 14. -/
def execBoundaryScanInstruction (trstN : Bool) (op : JtagInstr) (s : State) : Res :=
  if trstN && (op == .bypass || op == .idcode || s.pwr.resetPin) then .next { s with jtag := op } else .next s

end Sys2Proof.Machine
end

