-- ==== Sys2Proof/Machine/Replay.lean ====
section
/-! DEFINITION. The end of BOOT: the journal's messages of before a WARM reset execute (03 R140; 19 R858 to R873). -/

namespace Sys2Proof.Machine

/-- The commands that execute a message. -/
def messageRows : List (State → Res) :=
  [execBye, execParamSet, execAnchorSeal, execEmtFltclr, execTchRelearn, execLmpFltclr, execLmpLevels, execClkLockSettings,
   execCompress, execDecompress, execVerify, execParamGet, execStageCommit, execStageAbort, execSurfaceAlloc,
   execSurfaceFree, execSurfaceStatus, execSurfaceWriteOpen, execSurfaceWriteClose, execSurfaceWriteAbort, execFramePlan,
   execIslandReadSummary, execIslandReadAudit, execStateRequestQuery, execStateRequestStandby, execStateRequestArmed,
   execStateRequestLit, execStateRequestSafe, execTraceRelease, execTraceArm, execTraceForce, execTraceRead, execFwBegin,
   execFwData, execFwCommit, execPeek, execPoke, execResetWarm, execResetBlock, execUnknownRequest]

/-- Execute chosen messages: a row that is not the chosen message's leaves the state as it is. -/
def State.runChosen (s : State) : State :=
  messageRows.foldl (fun s f => match f s with
    | .next t => t
    | _ => s) s

/-- Execute the messages of before the reset, the intent record's first (03 R140). -/
def State.replayN : Nat → State → State
  | 0, s => s
  | n + 1, s => if s.acm.intent.isSome || s.acm.accepted.any (·.old) then State.replayN n s.runChosen else s

def State.replay (s : State) : State := State.replayN (s.acm.accepted.length + 1) s

/-- BOOT_COMPLETE (R858, R861, R862, R873; 03 R140). DEDUCED: assumption 88. -/
def execBootComplete (t : Nat) (storeReadable : Bool) (density : Vector (Fin 4) 8) (s : State) : Res :=
  let s := s.atTime t
  if s.dev ≠ .boot ∨ s.pwr.phase ≠ .booting ∨ s.pwr.due.isSome = true then .next s
  else if storeReadable && s.storeOk then .next (s.bootDone density).replay
  else .next (s.cold .restore)

end Sys2Proof.Machine
end

