-- ==== Sys2Proof/Machine/Dispatch.lean ====
section
/-! DEFINITION. One arm per command: the meaning it calls. -/

namespace Sys2Proof.Machine

def exec (i : Instr) (s : State) : Host.Outcome State Fault Refusal :=
  match i with
  | .ethFrameRx t p fec frame => Sys2Proof.Machine.execEthFrameRx t p fec frame s
  | .halt t p => Sys2Proof.Machine.execHalt t p s
  | .haltReply => Sys2Proof.Machine.execHaltReply s
  | .acmRequestRx t p => Sys2Proof.Machine.execAcmRequestRx t p s
  | .helloNew => Sys2Proof.Machine.execHelloNew s
  | .helloResume => Sys2Proof.Machine.execHelloResume s
  | .helloNewCommissioning => Sys2Proof.Machine.execHelloNewCommissioning s
  | .bye => Sys2Proof.Machine.execBye s
  | .paramSet => Sys2Proof.Machine.execParamSet s
  | .paramGet => Sys2Proof.Machine.execParamGet s
  | .stageCommit => Sys2Proof.Machine.execStageCommit s
  | .stageAbort => Sys2Proof.Machine.execStageAbort s
  | .surfaceAlloc => Sys2Proof.Machine.execSurfaceAlloc s
  | .surfaceFree => Sys2Proof.Machine.execSurfaceFree s
  | .surfaceWriteOpen => Sys2Proof.Machine.execSurfaceWriteOpen s
  | .surfaceWriteClose => Sys2Proof.Machine.execSurfaceWriteClose s
  | .surfaceWriteAbort => Sys2Proof.Machine.execSurfaceWriteAbort s
  | .surfaceStatus => Sys2Proof.Machine.execSurfaceStatus s
  | .surfaceDatagram p => Sys2Proof.Machine.execSurfaceDatagram p s
  | .surfaceClearDone index => Sys2Proof.Machine.execSurfaceClearDone index s
  | .framePlan => Sys2Proof.Machine.execFramePlan s
  | .stateRequestQuery => Sys2Proof.Machine.execStateRequestQuery s
  | .stateRequestStandby => Sys2Proof.Machine.execStateRequestStandby s
  | .stateRequestArmed => Sys2Proof.Machine.execStateRequestArmed s
  | .stateRequestLit => Sys2Proof.Machine.execStateRequestLit s
  | .stateRequestSafe => Sys2Proof.Machine.execStateRequestSafe s
  | .traceRelease => Sys2Proof.Machine.execTraceRelease s
  | .traceArm => Sys2Proof.Machine.execTraceArm s
  | .traceForce => Sys2Proof.Machine.execTraceForce s
  | .traceRead => Sys2Proof.Machine.execTraceRead s
  | .fwBegin => Sys2Proof.Machine.execFwBegin s
  | .fwData => Sys2Proof.Machine.execFwData s
  | .fwCommit => Sys2Proof.Machine.execFwCommit s
  | .eventAck => Sys2Proof.Machine.execEventAck s
  | .eventRetransmit t q seq => Sys2Proof.Machine.execEventRetransmit t q seq s
  | .islandReadSummary => Sys2Proof.Machine.execIslandReadSummary s
  | .islandReadAudit => Sys2Proof.Machine.execIslandReadAudit s
  | .peek => Sys2Proof.Machine.execPeek s
  | .poke => Sys2Proof.Machine.execPoke s
  | .resetWarm => Sys2Proof.Machine.execResetWarm s
  | .resetBlock => Sys2Proof.Machine.execResetBlock s
  | .unknownRequest => Sys2Proof.Machine.execUnknownRequest s
  | .anchorSeal => Sys2Proof.Machine.execAnchorSeal s
  | .emtFltclr => Sys2Proof.Machine.execEmtFltclr s
  | .tchRelearn => Sys2Proof.Machine.execTchRelearn s
  | .lmpFltclr => Sys2Proof.Machine.execLmpFltclr s
  | .lmpLevels => Sys2Proof.Machine.execLmpLevels s
  | .clkLockSettings => Sys2Proof.Machine.execClkLockSettings s
  | .compress => Sys2Proof.Machine.execCompress s
  | .decompress => Sys2Proof.Machine.execDecompress s
  | .verify => Sys2Proof.Machine.execVerify s
  | .tickEdge t => Sys2Proof.Machine.execTickEdge t s
  | .digestRecomputeDone => Sys2Proof.Machine.execDigestRecomputeDone s
  | .diagWindowEnd c => Sys2Proof.Machine.execDiagWindowEnd c s
  | .solveDeadline t => Sys2Proof.Machine.execSolveDeadline t s
  | .solveComplete t => Sys2Proof.Machine.execSolveComplete t s
  | .tickInEdge t => Sys2Proof.Machine.execTickInEdge t s
  | .tickHoldover t => Sys2Proof.Machine.execTickHoldover t s
  | .headFrameStart h half => Sys2Proof.Machine.execHeadFrameStart h half s
  | .compositorRowOutput h rows => Sys2Proof.Machine.execCompositorRowOutput h rows s
  | .headFrameComposed h => Sys2Proof.Machine.execHeadFrameComposed h s
  | .liveAlarm r => Sys2Proof.Machine.execLiveAlarm r s
  | .stripeRendered h stripe rope shadowOk => Sys2Proof.Machine.execStripeRendered h stripe rope shadowOk s
  | .planeLoadStart h => Sys2Proof.Machine.execPlaneLoadStart h s
  | .syncMiss h => Sys2Proof.Machine.execSyncMiss h s
  | .syncInEdge h dt => Sys2Proof.Machine.execSyncInEdge h dt s
  | .planeSlotBoundary h => Sys2Proof.Machine.execPlaneSlotBoundary h s
  | .planeBlockLoad h block => Sys2Proof.Machine.execPlaneBlockLoad h block s
  | .planeSlotEmission h => Sys2Proof.Machine.execPlaneSlotEmission h s
  | .rangePoint h => Sys2Proof.Machine.execRangePoint h s
  | .probeEmit c => Sys2Proof.Machine.execProbeEmit c s
  | .plhRdyAssert h => Sys2Proof.Machine.execPlhRdyAssert h s
  | .plhRdyStartTimeout h => Sys2Proof.Machine.execPlhRdyStartTimeout h s
  | .plhRdyLoss h => Sys2Proof.Machine.execPlhRdyLoss h s
  | .scanLineStart h dt forward => Sys2Proof.Machine.execScanLineStart h dt forward s
  | .scanSample h step => Sys2Proof.Machine.execScanSample h step s
  | .fastAxisLocked h => Sys2Proof.Machine.execFastAxisLocked h s
  | .scanFail h reason t => Sys2Proof.Machine.execScanFail h reason t s
  | .fastAxisStop h => Sys2Proof.Machine.execFastAxisStop h s
  | .belayBasePeriod senses => Sys2Proof.Machine.execBelayBasePeriod senses s
  | .senseSample c rawP rawW drive => Sys2Proof.Machine.execSenseSample c rawP rawW drive s
  | .senseRangeChange c wavelength => Sys2Proof.Machine.execSenseRangeChange c wavelength s
  | .driverFault c => Sys2Proof.Machine.execDriverFault c s
  | .emitEnEdge t pin level => Sys2Proof.Machine.execEmitEnEdge t pin level s
  | .interlockDrop pin => Sys2Proof.Machine.execInterlockDrop pin s
  | .discrepancy t => Sys2Proof.Machine.execDiscrepancy t s
  | .scanMotionInvalid h => Sys2Proof.Machine.execScanMotionInvalid h s
  | .scanMotionValid h => Sys2Proof.Machine.execScanMotionValid h s
  | .supplyWarning t rail mv => Sys2Proof.Machine.execSupplyWarning t rail mv s
  | .holdEnd t => Sys2Proof.Machine.execHoldEnd t s
  | .supplyResetLevel t rail => Sys2Proof.Machine.execSupplyResetLevel t rail s
  | .coldReset t => Sys2Proof.Machine.execColdReset t s
  | .aonPowerLoss => Sys2Proof.Machine.execAonPowerLoss s
  | .resetNAssert t => Sys2Proof.Machine.execResetNAssert t s
  | .resetNRelease t gpio15 cascRole => Sys2Proof.Machine.execResetNRelease t gpio15 cascRole s
  | .warmReset t interrupting => Sys2Proof.Machine.execWarmReset t interrupting s
  | .watchdogExpiry t => Sys2Proof.Machine.execWatchdogExpiry t s
  | .bootTimeout t => Sys2Proof.Machine.execBootTimeout t s
  | .bootComplete t storeReadable density => Sys2Proof.Machine.execBootComplete t storeReadable density s
  | .serviceKeyWrite slot key commission => Sys2Proof.Machine.execServiceKeyWrite slot key commission s
  | .pllLossOfLock t k => Sys2Proof.Machine.execPllLossOfLock t k s
  | .pllLock t k => Sys2Proof.Machine.execPllLock t k s
  | .pllFailed t k => Sys2Proof.Machine.execPllFailed t k s
  | .refclkMissing t => Sys2Proof.Machine.execRefclkMissing t s
  | .ropeLevelFall t => Sys2Proof.Machine.execRopeLevelFall t s
  | .thermalConversion t input reading => Sys2Proof.Machine.execThermalConversion t input reading s
  | .ropeFailure rope cause => Sys2Proof.Machine.execRopeFailure rope cause s
  | .ropeSpareTakeover => Sys2Proof.Machine.execRopeSpareTakeover s
  | .spareSelfTest rope ok => Sys2Proof.Machine.execSpareSelfTest rope ok s
  | .ethAnComplete p => Sys2Proof.Machine.execEthAnComplete p s
  | .ethTrainingComplete p => Sys2Proof.Machine.execEthTrainingComplete p s
  | .ethLinkUp p => Sys2Proof.Machine.execEthLinkUp p s
  | .ethLinkLoss t p => Sys2Proof.Machine.execEthLinkLoss t p s
  | .qsfpModulePresent gpio level => Sys2Proof.Machine.execQsfpModulePresent gpio level s
  | .arpRequest p => Sys2Proof.Machine.execArpRequest p s
  | .icmpEcho t p => Sys2Proof.Machine.execIcmpEcho t p s
  | .igmpQuery p => Sys2Proof.Machine.execIgmpQuery p s
  | .ptpAnnounce t p => Sys2Proof.Machine.execPtpAnnounce t p s
  | .ptpSync t p rx => Sys2Proof.Machine.execPtpSync t p rx s
  | .ptpDelayResp t p tx => Sys2Proof.Machine.execPtpDelayResp t p tx s
  | .ptpHoldover t => Sys2Proof.Machine.execPtpHoldover t s
  | .videoPacket t p => Sys2Proof.Machine.execVideoPacket t p s
  | .rxFrameTimeout t v => Sys2Proof.Machine.execRxFrameTimeout t v s
  | .rxSsrcTimeout t v => Sys2Proof.Machine.execRxSsrcTimeout t v s
  | .memoryRequest step => Sys2Proof.Machine.execMemoryRequest step s
  | .refresh n => Sys2Proof.Machine.execRefresh n s
  | .mr4Poll n reading => Sys2Proof.Machine.execMr4Poll n reading s
  | .selfRefreshEntry c => Sys2Proof.Machine.execSelfRefreshEntry c s
  | .pageIdleClose c bank => Sys2Proof.Machine.execPageIdleClose c bank s
  | .patrolScrub n addr err => Sys2Proof.Machine.execPatrolScrub n addr err s
  | .qdrScrub x word err => Sys2Proof.Machine.execQdrScrub x word err s
  | .mcFailed t m retrain => Sys2Proof.Machine.execMcFailed t m retrain s
  | .touchFrameDone h => Sys2Proof.Machine.execTouchFrameDone h s
  | .touchLate h => Sys2Proof.Machine.execTouchLate h s
  | .touchStuck h id => Sys2Proof.Machine.execTouchStuck h id s
  | .lampScanFrame => Sys2Proof.Machine.execLampScanFrame s
  | .lampRowPeriod senses => Sys2Proof.Machine.execLampRowPeriod senses s
  | .lampUndetermined n => Sys2Proof.Machine.execLampUndetermined n s
  | .islandStart => Sys2Proof.Machine.execIslandStart s
  | .islandCrystalFail => Sys2Proof.Machine.execIslandCrystalFail s
  | .bridgeConversion codes lowSense => Sys2Proof.Machine.execBridgeConversion codes lowSense s
  | .sealBreakChange level => Sys2Proof.Machine.execSealBreakChange level s
  | .sealChange change => Sys2Proof.Machine.execSealChange change s
  | .terminalZero => Sys2Proof.Machine.execTerminalZero s
  | .terminalTare => Sys2Proof.Machine.execTerminalTare s
  | .terminalClearTare => Sys2Proof.Machine.execTerminalClearTare s
  | .terminalPrint => Sys2Proof.Machine.execTerminalPrint s
  | .terminalIdentify => Sys2Proof.Machine.execTerminalIdentify s
  | .identifyTimeout => Sys2Proof.Machine.execIdentifyTimeout s
  | .islandBufferPost image => Sys2Proof.Machine.execIslandBufferPost image s
  | .legalReadback h => Sys2Proof.Machine.execLegalReadback h s
  | .islandGeometryUpdate => Sys2Proof.Machine.execIslandGeometryUpdate s
  | .traverseLinkUp p => Sys2Proof.Machine.execTraverseLinkUp p s
  | .traverseLinkLoss t p => Sys2Proof.Machine.execTraverseLinkLoss t p s
  | .traverseHalt t p frame => Sys2Proof.Machine.execTraverseHalt t p frame s
  | .tickFrame t p frame => Sys2Proof.Machine.execTickFrame t p frame s
  | .commitPrepare p frame => Sys2Proof.Machine.execCommitPrepare p frame s
  | .commitGo p frame => Sys2Proof.Machine.execCommitGo p frame s
  | .commitAbortFrame p frame => Sys2Proof.Machine.execCommitAbortFrame p frame s
  | .vote p frame => Sys2Proof.Machine.execVote p frame s
  | .linkFrame t p frame => Sys2Proof.Machine.execLinkFrame t p frame s
  | .traverseAcm t p frame => Sys2Proof.Machine.execTraverseAcm t p frame s
  | .traverseSurface p frame => Sys2Proof.Machine.execTraverseSurface p frame s
  | .seam p frame => Sys2Proof.Machine.execSeam p frame s
  | .traverseVideo t p frame => Sys2Proof.Machine.execTraverseVideo t p frame s
  | .masterTakeover t => Sys2Proof.Machine.execMasterTakeover t s
  | .islandPowerLoss duringWrite => Sys2Proof.Machine.execIslandPowerLoss duringWrite s
  | .refclkSysRestored t => Sys2Proof.Machine.execRefclkSysRestored t s
  | .phaseErrorComparison k e => Sys2Proof.Machine.execPhaseErrorComparison k e s
  | .mcRequestWaitExpiry n pos => Sys2Proof.Machine.execMcRequestWaitExpiry n pos s
  | .boundaryScanInstruction trstN op => Sys2Proof.Machine.execBoundaryScanInstruction trstN op s
  | .serviceFlashRecovery bankB image record => Sys2Proof.Machine.execServiceFlashRecovery bankB image record s

end Sys2Proof.Machine
end

