-- ==== Sys2Proof/Safety.lean ====
section
/-! DEFINITION. What a safe run is, and the words the statements use: an answered message, an emission the Anchor's gate
covers, memory in canonical form. -/

namespace Sys2Proof.Machine

/-- A step that answers a next state. -/
def Completes (s : State) : Prop := ∃ t, step s = .next t

/-- What the reply cache holds of a completed message (03 R137): its reply with the DEVICE byte it was sent with, or, for a
payload longer than 64 bytes, its status and tick with TRUNC. -/
def cachedOf (s : State) (device : Nat) (m : Msg) (st : Status) (payload : Bytes) : Cached :=
  ⟨m.seq, m.typ, m.mailbox, device, st.code, s.tick.count, s.acm.epoch, decide (64 < payload.length),
    if 64 < payload.length then [] else payload⟩

/-- From `s` to `t` the device has completed message `m` with a status and a reply payload: the journal names it as the
session's last, the result stands first in the session's cache, and the message waits no longer (03 R136, R137). -/
def Answered (s t : State) (m : Msg) (st : Status) (payload : Bytes) : Prop :=
  (t.acm.sess[m.session]).lastExec = m.seq ∧
    (t.acm.sess[m.session]).cache.head? = some (cachedOf s t.devNum m st payload) ∧
    (s.acm.intent = none → t.acm.intent = none ∧ t.acm.accepted = s.acm.accepted.erase m) ∧
    (s.acm.intent = some m → t.acm.intent = none ∧ t.acm.accepted = s.acm.accepted)

/-- A datagram from an address is an authentic request of session `q` that this device handles itself: the form of R109,
the source of R111, a key, the right tag, no HALT, and none that the master forwards (03 R109 to R116). -/
def AuthenticRequest (s : State) (ip : Nat) (b : Bytes) (q : SessIx) : Prop :=
  s.dev ≠ .boot ∧ dgramForm b = true ∧ (dgramOf b).typ ≠ typHalt ∧ s.acmSourceOk ip b = true ∧
    q = Fin.ofNat 4 (dgramOf b).session ∧ (∃ key, s.acm.keys[q] = some key ∧ dgramTagOk key b = true) ∧
    s.forwards (dgramOf b) = false

/-- From `s` to `t` the island has put one line on its terminal, after any line it was sending, with ISL_DE asserted from one bit
time before it to one bit time after it (15 R716). -/
def LineSent (s t : State) (text : Bytes) : Prop :=
  let start := max s.now s.isl.deUntil
  let stop := start + deTime s.isl.metro.baud text.length
  t.out = .line text start stop :: s.out ∧ t.isl.deUntil = stop

/-- An authentic, current HALT for this device in a datagram, with its counter fresh (03 R164). -/
def FreshHalt (s : State) (b : Bytes) (q : SessIx) : Prop :=
  s.dev ≠ .boot ∧ dgramForm b = true ∧ q = Fin.ofNat 4 (dgramOf b).session ∧
    (∃ key, s.acm.keys[q] = some key ∧ dgramTagOk key b = true) ∧ (dgramOf b).epoch = s.acm.epoch ∧
    s.haltMine (dgramOf b) = true ∧ (s.acm.sess[q]).haltCount < (dgramOf b).seq

/-- An authentic, current HALT for this device in a datagram, with a counter that is not fresh (03 R168). -/
def StaleHalt (s : State) (b : Bytes) (q : SessIx) : Prop :=
  s.dev ≠ .boot ∧ dgramForm b = true ∧ q = Fin.ofNat 4 (dgramOf b).session ∧
    (∃ key, s.acm.keys[q] = some key ∧ dgramTagOk key b = true) ∧ (dgramOf b).epoch = s.acm.epoch ∧
    s.haltMine (dgramOf b) = true ∧ (dgramOf b).seq ≤ (s.acm.sess[q]).haltCount

/-- A HALT is kept for its reply; the session's counter moves only with a fresh one (03 R164, R165, R168). -/
def HaltKept (s t : State) (b : Bytes) (q : SessIx) (dst : Option ReplyTo) (acted : Bool) : Prop :=
  t.acm.halts = s.acm.halts ++ [⟨q, (dgramOf b).mailbox, (dgramOf b).seq, be16 (dgramOf b).body 0, dst, acted⟩] ∧
    (t.acm.sess[q]).haltCount = (if acted then (dgramOf b).seq else (s.acm.sess[q]).haltCount) ∧
    t.acm.accepted = s.acm.accepted ∧ t.acm.hellos = s.acm.hellos ∧ ∀ r : SessIx, r ≠ q → t.acm.sess[r] = s.acm.sess[r]

/-- What a fresh HALT leaves where the Anchor has latched none (03 R166; 17 R791, R793): the Anchor's HALT latched, every channel
blank, SAFE with cause HALT from the states that may enter it, and from HOLD when HOLD ends. -/
def HaltActed (s t : State) : Prop :=
  t.anc.halt = true ∧ (∀ c : ChanIx, (t.em[c]).en = none) ∧
    (s.dev = .standby ∨ s.dev = .armed ∨ s.dev = .lit → t.dev = .safe ∧ t.flt.safeCause = causeHalt) ∧
    (s.dev = .hold → t.dev = .hold ∧ (s.pwr.holdSafe = 0 → t.pwr.holdSafe = causeHalt)) ∧ (s.dev = .safe → t.dev = .safe)

/-- The rows a PARAM_SET message falls under, each with its command. -/
def setRows : List (Instr × SetRow) :=
  [(.paramSet, .plain), (.anchorSeal, .seal), (.emtFltclr, .fltClear), (.tchRelearn, .relearn), (.lmpFltclr, .lampClear),
    (.lmpLevels, .levels), (.clkLockSettings, .lock), (.compress, .job 0), (.decompress, .job 1), (.verify, .job 2)]

/-- A PARAM_SET of a row whose one entry `e` passes every check; `u` is the state with the entry written. -/
def SetAccepted (s u : State) (m : Msg) (r : SetRow) (e : Entry) : Prop :=
  s.chosen = some m ∧ m.typ = typParamSet ∧ rowOf m.body = r ∧ s.setAll m.session m.body = .ok (u, [e])

/-- A SURFACE_ALLOC body of a kind that breaks no rule of its fields (05 R281 to R284, Tables 5-7 and 5-8). -/
def AllocForm (b : Bytes) (k : SurfKind) : Prop :=
  b.length = 16 ∧ surfKindOf (u8 b 0) = some k ∧ bits (u8 b 1) 7 3 = 0 ∧ be16 b 6 = 0 ∧
    surfBytes k (be16 b 2) (be16 b 4) (be32 b 8) (be32 b 12) ≤ 268435456 ∧
    (k = .bytes → be16 b 2 = 0 ∧ be16 b 4 = 0 ∧ be32 b 8 = 0) ∧
    (k ≠ .bytes → 16 ≤ be16 b 2 ∧ be16 b 2 ≤ 4096 ∧ 16 ≤ be16 b 4 ∧ be16 b 4 ≤ 4096) ∧
    (k = .planar → fmtOk (be32 b 8) = true ∧ fmtPacking (be32 b 8) = 0 ∧ fmtEven (be32 b 8) (be16 b 2) (be16 b 4) = true ∧
      be32 b 12 = 0) ∧
    (k = .packed → formatBytes (be32 b 8) ≠ 0 ∧ be32 b 12 = 0) ∧
    (k = .atc → atcFormat (be32 b 8) = true)

/-- `ix` is the lowest free index of the surface table (05 R279). -/
def LowestFree (s : State) (ix : Nat) : Prop :=
  1 ≤ ix ∧ ix ≤ 2047 ∧ assocGet ix s.surf.tbl = none ∧ ∀ j, 1 ≤ j → j < ix → assocGet j s.surf.tbl ≠ none

/-- The session may open one more transfer on a window of `len` bytes at `off` of surface `x` (05 R299 to R302). -/
def OpenFits (s : State) (q : SessIx) (x : Surf) (off len : Nat) : Prop :=
  off % 4 = 0 ∧ len % 4 = 0 ∧ 4 ≤ len ∧ len ≤ 16777216 ∧ off + len ≤ x.size ∧ s.transfersOf q < 16

/-- A surface datagram of the right form and tag, of the current epoch and an OPEN session `q` (04 R226, R227). -/
def SurfaceAuthentic (s : State) (d : Bytes) (q : SessIx) : Prop :=
  s.dev ≠ .boot ∧ d.length = 40 + be16 d 16 ∧ be16 d 0 = 0x4153 ∧ u8 d 2 = 3 ∧ u8 d 3 < 4 ∧ q = Fin.ofNat 4 (u8 d 3) ∧
    4 ≤ be16 d 16 ∧ be16 d 16 ≤ 8192 ∧ be16 d 16 % 4 = 0 ∧ be32 d 12 % 4 = 0 ∧ be32 d 20 = s.acm.epoch ∧
    (∃ key, s.acm.keys[q] = some key ∧ tagOf key (d.take (24 + be16 d 16)) = d.drop (24 + be16 d 16)) ∧
    (s.acm.sess[q]).open_ = true

/-- A control beat of a plane link, the same block on every lane, is among what has left (09 R489, R491). -/
def ControlSent (new : List Out) (h : HeadIx) (block : Nat) : Prop :=
  ∃ sent, Out.beat h headerControl (List.replicate 32 (BitVec.ofNat 64 block)) sent ∈ new

/-- A surface datagram that begins with its header and a session's number (04 R226). -/
def SurfaceHeader (d : Bytes) (q : SessIx) : Prop :=
  40 ≤ d.length ∧ be16 d 0 = 0x4153 ∧ u8 d 2 = 3 ∧ u8 d 3 < 4 ∧ q = Fin.ofNat 4 (u8 d 3)

/-- The open transfer whose window holds the data of a surface datagram (04 R202, R228; 05 R301). -/
def SurfaceTaken (s : State) (d : Bytes) (q : SessIx) (ix : Nat) (x : Surf) (w : Transfer) : Prop :=
  s.surface (be32 d 4) = some (ix, x) ∧ x.writer = some w ∧ w.session = q ∧ w.writeId = be32 d 8 ∧
    be32 d 12 + be16 d 16 ≤ w.len ∧ s.inRing (be32 d 4) = false

/-- A write of `data` at `a` of a region has landed: the copies of the region hold it where their controller stands, and no
other byte of any copy has changed. -/
def Landed (s t : State) (pool : Bool) (a : Nat) (data : Bytes) : Prop :=
  ∀ (c : Copy) (b : Nat),
    if (c = .normal ↔ pool = false) ∧ a ≤ b ∧ b < a + data.length ∧ s.burstFailed c (b / 64) = false
    then memGet (t.mem.cells c) b = data.getD (b - a) 0#8
    else memGet (t.mem.cells c) b = memGet (s.mem.cells c) b

/-- A copy of a request's burst is good: its controller stands, no word of it is poisoned, and the array returns nothing
uncorrectable (05 R253, R262). -/
def CopyGood (s : State) (c : Copy) (r : MemReq) : Prop :=
  s.burstFailed c (r.addr / 64) = false ∧ s.burstPoisoned c (r.addr / 64) = false ∧
    ∀ w, (if c = .mirror then r.errMirror else r.err) ≠ .uncorrectable w

/-- The gate of the interlocks, the device state and the Anchor's latches (11 R569). -/
def gateOpen (s : State) : Bool :=
  s.dev == .lit && s.anc.pinA && s.anc.pinB && !s.anc.discrepancy && !s.anc.power && !s.anc.halt

/-- No channel's enable is asserted unless the gate is open. -/
def EmissionGated (s : State) : Prop := ∀ c : ChanIx, (s.em[c]).en.isSome = true → gateOpen s = true

/-- The audit trail holds no more than 4,096 records (15 R715). -/
def AuditBounded (s : State) : Prop := s.isl.audit.length ≤ 4096

/-- Every memory of the device is in its canonical form. -/
def MemoryCanonical (s : State) : Prop := s.mem.wf = true

end Sys2Proof.Machine
end

