-- ==== Sys2Proof/WellFormed.lean ====
section
/-! DEFINITION. Which commands the outside can send: the ranges that the spec's converters, signals and frames give a
command's operands. A meaning is total all the same: it runs on an ill-formed command too. -/

namespace Sys2Proof

/-- What can be wrong with a command's operands. -/
inductive Ill where
  /-- a MAC frame with its 14 bytes of header and its FCS (04 R179 to R181) -/
  | frameLength
  /-- a Traverse frame holds its 16-byte header and, except VIDEO, its 16-byte tag, and at most 9,198 bytes in its Ethernet frame (16 R739, Table 16-1) -/
  | traverseLength
  /-- a 12-bit modulation code, the smallest no larger than the largest and their mean between them (11 Table 11-1) -/
  | apertureCode
  /-- the reading is of the kind its input gives (20 Table 20-1) -/
  | thermalKind
  /-- the ratio of an NTC input is a U0.24 code (20 R885) -/
  | ntcRatio
  /-- a loop's input is S1.30 (12 Table 12-2) -/
  | loopRange
  /-- an emission sample of at most 8,192, and one reading of each receiver in each half of a chip (10 Table 10-1; 14 R668) -/
  | sampleOfLine
  /-- a bridge code is a 24-bit signed number (15 R699) -/
  | bridgeCode
  /-- a request lies in one 64-byte burst and reads or writes, not both (05 R239) -/
  | burst
  /-- a position among the 64 requests of a channel's queue (05 R239) -/
  | queuePosition
  /-- a key of 32 bytes, or none (19 R872) -/
  | keyLength
  /-- a commit record copy of 68 bytes, and an image no larger than a bank's 15 MB (19 R864, Table 19-9) -/
  | flashLength
  /-- a surface index is 1 to 2,047 (05 R278) -/
  | surfaceIndex
  /-- an event sequence of 32 bits (03 R161) -/
  | eventSequence
  /-- a level that U16 millivolts hold (19 Table 19-4) -/
  | railLevel
  /-- an array has at most 32 blocks (09 Table 9-1) -/
  | blockNumber
  /-- sealed parameters with a resolution, a range and a rate (15 Table 15-1) -/
  | metrology
  deriving DecidableEq, Repr

/-- One check: its name when it fails. -/
def illWhen (bad : Bool) (i : Ill) : List Ill := if bad then [i] else []

/-- A Traverse frame that is too short for its header and what follows it, or too long. -/
def illTrav (least : Nat) (f : Bytes) : List Ill := illWhen (Nat.blt f.length least || Nat.blt 9198 f.length) .traverseLength

/-- A memory request of no legal form. -/
def MemReq.ill (r : MemReq) : Bool :=
  let n := r.data.length + r.len
  n == 0 || (r.data.length != 0 && r.len != 0) || Nat.blt 64 (r.addr % 64 + n)

/-- An S1.30 number. -/
def inS30 (v : Int) : Bool := decide (-2147483648 ≤ v) && decide (v ≤ 2147483647)

def HeadSense.ill (h : HeadSense) : Bool := !(inS30 h.slow && inS30 h.i && inS30 h.q)

def Metro.ill (m : Metro) : Bool := m.e == 0 || m.rate == 0 || m.avg == 0 || m.max == 0 || m.baud == 0

/-- The checks a command fails. -/
def illFormed : Instr → List Ill
  | .ethFrameRx _ _ _ f => illWhen (Nat.blt f.length 18) .frameLength
  | .halt _ _ => []
  | .haltReply => []
  | .acmRequestRx _ _ => []
  | .helloNew => []
  | .helloResume => []
  | .helloNewCommissioning => []
  | .bye => []
  | .paramSet => []
  | .paramGet => []
  | .stageCommit => []
  | .stageAbort => []
  | .surfaceAlloc => []
  | .surfaceFree => []
  | .surfaceWriteOpen => []
  | .surfaceWriteClose => []
  | .surfaceWriteAbort => []
  | .surfaceStatus => []
  | .surfaceDatagram _ => []
  | .surfaceClearDone n => illWhen (n == 0 || Nat.ble 2048 n) .surfaceIndex
  | .framePlan => []
  | .stateRequestQuery => []
  | .stateRequestStandby => []
  | .stateRequestArmed => []
  | .stateRequestLit => []
  | .stateRequestSafe => []
  | .traceRelease => []
  | .traceArm => []
  | .traceForce => []
  | .traceRead => []
  | .fwBegin => []
  | .fwData => []
  | .fwCommit => []
  | .eventAck => []
  | .eventRetransmit _ _ n => illWhen (Nat.ble 4294967296 n) .eventSequence
  | .islandReadSummary => []
  | .islandReadAudit => []
  | .peek => []
  | .poke => []
  | .resetWarm => []
  | .resetBlock => []
  | .unknownRequest => []
  | .anchorSeal => []
  | .emtFltclr => []
  | .tchRelearn => []
  | .lmpFltclr => []
  | .lmpLevels => []
  | .clkLockSettings => []
  | .compress => []
  | .decompress => []
  | .verify => []
  | .tickEdge _ => []
  | .digestRecomputeDone => []
  | .diagWindowEnd _ => []
  | .solveDeadline _ => []
  | .solveComplete _ => []
  | .tickInEdge _ => []
  | .tickHoldover _ => []
  | .headFrameStart _ _ => []
  | .compositorRowOutput _ _ => []
  | .headFrameComposed _ => []
  | .liveAlarm _ => []
  | .stripeRendered _ _ _ _ => []
  | .planeLoadStart _ => []
  | .syncMiss _ => []
  | .syncInEdge _ _ => []
  | .planeSlotBoundary _ => []
  | .planeBlockLoad _ k => illWhen (Nat.ble 32 k) .blockNumber
  | .planeSlotEmission _ => []
  | .rangePoint _ => []
  | .probeEmit _ => []
  | .plhRdyAssert _ => []
  | .plhRdyStartTimeout _ => []
  | .plhRdyLoss _ => []
  | .scanLineStart _ _ _ => []
  | .scanSample _ (.emit i) => illWhen (Nat.ble 8192 i) .sampleOfLine
  | .scanSample _ (.chip _ ta tb) => illWhen (ta.length != tb.length) .sampleOfLine
  | .fastAxisLocked _ => []
  | .scanFail _ _ _ => []
  | .fastAxisStop _ => []
  | .belayBasePeriod senses => illWhen (senses.toList.any HeadSense.ill) .loopRange
  | .senseSample _ _ _ d =>
    illWhen (Nat.blt 4095 d.maxCode || Nat.blt d.maxCode d.minCode || Nat.blt d.meanCode (65536 * d.minCode) ||
      Nat.blt (65536 * d.maxCode) d.meanCode) .apertureCode
  | .senseRangeChange _ _ => []
  | .driverFault _ => []
  | .emitEnEdge _ _ _ => []
  | .interlockDrop _ => []
  | .discrepancy _ => []
  | .scanMotionInvalid _ => []
  | .scanMotionValid _ => []
  | .supplyWarning _ _ mv => illWhen (Nat.ble 65536 mv) .railLevel
  | .holdEnd _ => []
  | .supplyResetLevel _ _ => []
  | .coldReset _ => []
  | .aonPowerLoss => []
  | .resetNAssert _ => []
  | .resetNRelease _ _ _ => []
  | .warmReset _ _ => []
  | .watchdogExpiry _ => []
  | .bootTimeout _ => []
  | .bootComplete _ _ _ => []
  | .serviceKeyWrite _ key _ => illWhen (key.length != 0 && key.length != 32) .keyLength
  | .pllLossOfLock _ _ => []
  | .pllLock _ _ => []
  | .pllFailed _ _ => []
  | .refclkMissing _ => []
  | .ropeLevelFall _ => []
  | .thermalConversion _ (.die _) (.die _) => []
  | .thermalConversion _ (.die _) _ => [.thermalKind]
  | .thermalConversion _ (.remote _) (.die _) => [.thermalKind]
  | .thermalConversion _ (.remote _) (.diode _ _) => []
  | .thermalConversion _ (.remote _) (.ntc x) => illWhen (Nat.ble 16777216 x) .ntcRatio
  | .ropeFailure _ _ => []
  | .ropeSpareTakeover => []
  | .spareSelfTest _ _ => []
  | .ethAnComplete _ => []
  | .ethTrainingComplete _ => []
  | .ethLinkUp _ => []
  | .ethLinkLoss _ _ => []
  | .qsfpModulePresent _ _ => []
  | .arpRequest _ => []
  | .icmpEcho _ _ => []
  | .igmpQuery _ => []
  | .ptpAnnounce _ _ => []
  | .ptpSync _ _ _ => []
  | .ptpDelayResp _ _ _ => []
  | .ptpHoldover _ => []
  | .videoPacket _ _ => []
  | .rxFrameTimeout _ _ => []
  | .rxSsrcTimeout _ _ => []
  | .memoryRequest (.lpddr _ a p) =>
    illWhen (match a with
      | none => false
      | some r => r.ill) .burst ++
    illWhen (match p with
      | none => false
      | some k => Nat.ble 64 k) .queuePosition
  | .memoryRequest (.qdr _ _ _ _) => []
  | .memoryRequest (.chip _) => []
  | .refresh _ => []
  | .mr4Poll _ _ => []
  | .selfRefreshEntry _ => []
  | .pageIdleClose _ _ => []
  | .patrolScrub _ _ _ => []
  | .qdrScrub _ _ _ => []
  | .mcFailed _ _ _ => []
  | .touchFrameDone _ => []
  | .touchLate _ => []
  | .touchStuck _ _ => []
  | .lampScanFrame => []
  | .lampRowPeriod _ => []
  | .lampUndetermined _ => []
  | .islandStart => []
  | .islandCrystalFail => []
  | .bridgeConversion codes _ => illWhen (codes.toList.any (fun c => decide (c < -8388608) || decide (8388607 < c))) .bridgeCode
  | .sealBreakChange _ => []
  | .sealChange (.calibration _ m) => illWhen m.ill .metrology
  | .sealChange (.parameter _ m) => illWhen m.ill .metrology
  | .sealChange (.geometry _ _) => []
  | .sealChange (.imageSlot _ _ _) => []
  | .terminalZero => []
  | .terminalTare => []
  | .terminalClearTare => []
  | .terminalPrint => []
  | .terminalIdentify => []
  | .identifyTimeout => []
  | .islandBufferPost _ => []
  | .legalReadback _ => []
  | .islandGeometryUpdate => []
  | .traverseLinkUp _ => []
  | .traverseLinkLoss _ _ => []
  | .traverseHalt _ _ f => illTrav 32 f
  | .tickFrame _ _ f => illTrav 32 f
  | .commitPrepare _ f => illTrav 32 f
  | .commitGo _ f => illTrav 32 f
  | .commitAbortFrame _ f => illTrav 32 f
  | .vote _ f => illTrav 32 f
  | .linkFrame _ _ f => illTrav 32 f
  | .traverseAcm _ _ f => illTrav 32 f
  | .traverseSurface _ f => illTrav 32 f
  | .seam _ f => illTrav 32 f
  | .traverseVideo _ _ f => illTrav 16 f
  | .masterTakeover _ => []
  | .islandPowerLoss _ => []
  | .refclkSysRestored _ => []
  | .phaseErrorComparison _ _ => []
  | .mcRequestWaitExpiry _ k => illWhen (Nat.ble 64 k) .queuePosition
  | .boundaryScanInstruction _ _ => []
  | .serviceFlashRecovery _ image record => illWhen (Nat.blt 15728640 image.length || record.length != 68) .flashLength

/-- A command whose operands the outside can produce. -/
abbrev WellFormed (i : Instr) : Prop := illFormed i = []

end Sys2Proof
end

