-- ==== Sys2Proof/Certificates/Slice0/Obligations.lean ====
section
/-! DEFINITION. What is claimed of the model: one definition per statement, for the provers. -/

open Sys2Proof Sys2Proof.Machine

/-- One step takes the command at the front of the queue and runs it on the state with the rest of the queue; with no
command waiting the block idles (assumption 2, DESIGN CHOICE). -/
def Obligations.StepRunsFrontCommand : Prop :=
  (∀ (c : Instr) (s : State), step { s with pending := c :: s.pending } = exec c s) ∧
  (∀ (c : Instr) (rest : List Instr) (s : State), s.pending = c :: rest → step s = exec c { s with pending := rest }) ∧
  (∀ s : State, s.pending = [] → step s = .next s)

/-- The reset state: BOOT, the reset values of every parameter, every enable low, no latched fault, no open session, an empty
fault log, memory with nothing listed and an empty queue. The epoch record in flash is the model's
choice (assumption 12, DESIGN CHOICE). -/
def Obligations.ResetValues : Prop :=
  State.reset.dev = .boot ∧ State.reset.pending = [] ∧ State.reset.acm.epoch = 1 ∧ State.reset.flt.log = [] ∧
  State.reset.flt.safeCause = 0 ∧ State.reset.tick.commitAt = none ∧
  (∀ id ix, bankGet State.reset.par.active id ix = resetValue id ix ∧ bankGet State.reset.par.staged id ix = resetValue id ix) ∧
  (∀ c : ChanIx, (State.reset.em[c]).en = none) ∧
  (∀ q : SessIx, (State.reset.acm.sess[q]).open_ = false ∧ (State.reset.acm.sess[q]).helloCount = 0 ∧
    (State.reset.acm.sess[q]).haltCount = 0) ∧
  (∀ r : RopeIx, State.reset.flt.spare[r] = decide (32 ≤ r.1) ∧ State.reset.flt.failed[r] = false) ∧
  (∀ c : Copy, State.reset.mem.cells c = []) ∧ (∀ x : Fin 2, State.reset.mem.qdr[x] = [])

/-- The reset state meets the three invariants below. -/
def Obligations.ResetMeetsInvariants : Prop :=
  EmissionGated State.reset ∧ MemoryCanonical State.reset ∧ AuditBounded State.reset

/-- No command stops the block, and none touches the queue. -/
def Obligations.EveryCommandAnswersNext : Prop :=
  ∀ (c : Instr) (s : State), ∃ t, exec c s = .next t ∧ t.pending = s.pending

/-- The emission gate (11 R569): ECn_EN is asserted only in LIT with both interlock pins high and no Anchor fault latched,
and every step keeps it so. -/
def Obligations.EmissionGateKept : Prop := ∀ s t : State, EmissionGated s → step s = .next t → EmissionGated t

/-- The memories keep their canonical form over every step. -/
def Obligations.MemoryCanonicalKept : Prop := ∀ s t : State, MemoryCanonical s → step s = .next t → MemoryCanonical t

/-- The island's legally relevant data: only a seal change alters the weighing parameters and the image slots, and the audit
trail keeps its records in their places and its bound. -/
def Obligations.IslandRecordsKept : Prop :=
  ∀ (c : Instr) (s t : State), exec c s = .next t →
    (s.isl.audit <+: t.isl.audit) ∧
    (AuditBounded s → AuditBounded t) ∧
    ((∀ x, c ≠ .sealChange x) → t.isl.metro = s.isl.metro ∧ t.isl.slots = s.isl.slots ∧ t.isl.geom = s.isl.geom)

/-- ISLAND_START, ISLAND_CRYSTAL_FAIL, ISLAND_POWER_LOSS and SEAL_BREAK_CHANGE run and do this to the island, on a device
that has one, and nothing else. -/
def Obligations.IslandStartsAndStops : Prop :=
  (∀ s : State, s.isl.run = .off → ∃ t, exec .islandStart s = .next t ∧ t = { s with isl := t.isl } ∧
    (Config.variantNx = true → t = s) ∧
    (Config.variantNx = false →
      (s.isl.bootSlot = none → t.isl.run = .fault) ∧
      (∀ k, s.isl.bootSlot = some k → t.isl.run = .run ∧ t.isl.slot = k.1 ∧ t.isl.zero = s.isl.metro.zCal * 131072) ∧
      t.isl.audit = s.isl.audit ∧ t.isl.metro = s.isl.metro ∧ t.isl.legalOk = false)) ∧
  (∀ s : State, s.isl.run = .run → ∃ t, exec .islandCrystalFail s = .next t ∧ t = { s with isl := t.isl } ∧
    (Config.variantNx = true → t = s) ∧ (Config.variantNx = false → t.isl.run = .fault ∧ t.isl.legalOk = false)) ∧
  (∀ (s : State) (w : Bool), s.isl.run ≠ .off → ∃ t, exec (.islandPowerLoss w) s = .next t ∧ t = { s with isl := t.isl } ∧
    (Config.variantNx = true → t = s) ∧
    (Config.variantNx = false →
      t.isl.run = .off ∧ t.isl.legalOk = false ∧ t.isl.metro = s.isl.metro ∧ t.isl.slots = s.isl.slots ∧
      t.isl.sealOpen = s.isl.sealOpen ∧
      (w = false ∨ s.isl.sealOpen = false → t.isl.audit = s.isl.audit) ∧
      (w = true → s.isl.sealOpen = true → s.isl.audit.length < 4096 → t.isl.audit.length = s.isl.audit.length + 1))) ∧
  (∀ (s : State) (level : Bool), ∃ t, exec (.sealBreakChange level) s = .next t ∧ t = { s with isl := t.isl } ∧
    (Config.variantNx = true → t = s) ∧
    (Config.variantNx = false → t.isl.sealOpen = level ∧ (level = true → t.isl.legalOk = false) ∧
      t.isl.audit = s.isl.audit ∧ t.isl.metro = s.isl.metro))

/-- SEAL_CHANGE: the record of each kind, and the change. -/
def Obligations.SealChangeRecorded : Prop :=
  (∀ (s : State) (x : SealChange), s.isl.run ≠ .off → s.isl.sealOpen = true → s.isl.audit.length < 4096 →
    ∃ t, exec (.sealChange x) s = .next t ∧ t = { s with isl := t.isl, free := t.free } ∧
      (Config.variantNx = false →
        (∀ item m, (x = .calibration item m ∨ x = .parameter item m) → metroOk m = true →
          t.isl.metro = m ∧ ∃ r, t.isl.audit = s.isl.audit ++ [r] ∧ le16 r 0 = (s.isl.audit.length + 1) ∧
            u8 r 2 = (if x = .calibration item m then 1 else 2) ∧ r.length = 16) ∧
        (∀ item w, x = .geometry item w → geometryOk w = true →
          t.isl.geom = w ∧ t.isl.audit.length = s.isl.audit.length + 1) ∧
        (∀ k v i, x = .imageSlot k v i → s.isl.slots[k] = none →
          t.isl.slots[k] = some ⟨v, i⟩ ∧ t.isl.audit.length = s.isl.audit.length + 1) ∧
        (∀ k v i, x = .imageSlot k v i → s.isl.slots[k] ≠ none → t = s))) ∧
  (∀ (s : State) (x : SealChange), s.isl.sealOpen = false ∨ 4096 ≤ s.isl.audit.length →
    exec (.sealChange x) s = .next s)

/-- BRIDGE_CONVERSION: the raw load, its moving average and the record of every update. -/
def Obligations.BridgeConversionWeighs : Prop :=
  (∀ (s : State) (codes : Vector Int 4) (low : BitVec 4), s.isl.run = .run → s.isl.pllOut = false →
    ∃ t, exec (.bridgeConversion codes low) s = .next t ∧ t = { s with isl := t.isl, out := t.out } ∧
      (Config.variantNx = true → t = s) ∧
      (Config.variantNx = false →
        t.isl.raws = (s.isl.rawLoad codes :: s.isl.raws).take s.isl.metro.avg ∧
        t.isl.wf = t.isl.raws.foldl (· + ·) (0 : Int) / ((max t.isl.raws.length 1 : Nat) : Int) ∧
        (s.isl.metro.avg = 1 → t.isl.wf = s.isl.rawLoad codes) ∧
        t.isl.metro = s.isl.metro ∧ t.isl.tare = s.isl.tare ∧ t.isl.net = s.isl.net ∧ t.isl.audit = s.isl.audit ∧
        (s.isl.metro.everyUpdate = true → LineSent s t t.isl.record) ∧
        (s.isl.metro.everyUpdate = false → t.out = s.out))) ∧
  (∀ (s : State) (codes : Vector Int 4) (low : BitVec 4), s.isl.run ≠ .run ∨ s.isl.pllOut = true →
    exec (.bridgeConversion codes low) s = .next s)

/-- The five terminal commands and the end of the identification line. -/
def Obligations.TerminalCommands : Prop :=
  (∀ (s : State) (z0 : Int), s.isl.run = .run → s.isl.deUntil ≤ s.now → s.isl.zeroInit = some z0 → s.isl.stable = true →
    within s.isl.wf z0 (s.isl.percent 2) = true →
    ∃ t, exec .terminalZero s = .next t ∧ t = { s with isl := t.isl, out := t.out } ∧
      (Config.variantNx = false → t.isl.zero = s.isl.wf ∧ t.isl.tare = s.isl.tare ∧ LineSent s t t.isl.record)) ∧
  (∀ s : State, s.isl.run = .run → s.isl.deUntil ≤ s.now →
    (s.isl.stable = false ∨ ∀ z0, s.isl.zeroInit = some z0 → within s.isl.wf z0 (s.isl.percent 2) = false) →
    ∃ t, exec .terminalZero s = .next t ∧ t = { s with isl := { s.isl with deUntil := t.isl.deUntil }, out := t.out } ∧
      (Config.variantNx = false → LineSent s t nakLine)) ∧
  (∀ s : State, s.isl.run = .run → s.isl.deUntil ≤ s.now → s.isl.metro.tareSemi = true → s.isl.stable = true →
    0 < s.isl.gross → s.isl.gross ≤ (s.isl.metro.max : Int) * wOne →
    ∃ t, exec .terminalTare s = .next t ∧ t = { s with isl := t.isl, out := t.out } ∧
      (Config.variantNx = false → t.isl.tare = s.isl.shownGross ∧ t.isl.net = true ∧ t.isl.zero = s.isl.zero ∧
        LineSent s t t.isl.record)) ∧
  (∀ s : State, s.isl.run = .run → s.isl.deUntil ≤ s.now →
    (s.isl.metro.tareSemi = false ∨ s.isl.stable = false ∨ s.isl.gross ≤ 0 ∨ (s.isl.metro.max : Int) * wOne < s.isl.gross) →
    ∃ t, exec .terminalTare s = .next t ∧ t = { s with isl := { s.isl with deUntil := t.isl.deUntil }, out := t.out } ∧
      (Config.variantNx = false → LineSent s t nakLine)) ∧
  (∀ s : State, s.isl.run = .run → s.isl.deUntil ≤ s.now →
    (∃ t, exec .terminalClearTare s = .next t ∧ t = { s with isl := t.isl, out := t.out } ∧
      (Config.variantNx = false → t.isl.tare = 0 ∧ t.isl.net = false ∧ t.isl.zero = s.isl.zero ∧ LineSent s t t.isl.record)) ∧
    (∃ t, exec .terminalPrint s = .next t ∧ t = { s with isl := t.isl, out := t.out } ∧
      (Config.variantNx = false → t.isl.tare = s.isl.tare ∧ t.isl.net = s.isl.net ∧ t.isl.zero = s.isl.zero ∧
        t.isl.wf = s.isl.wf ∧ LineSent s t t.isl.record)) ∧
    (∃ t, exec .terminalIdentify s = .next t ∧ t = { s with isl := t.isl, out := t.out } ∧
      (Config.variantNx = false → t.isl.ident = some (s.now + 5000000000) ∧ t.isl.wf = s.isl.wf ∧ t.isl.tare = s.isl.tare ∧
        LineSent s t t.isl.record))) ∧
  (∀ (s : State) (u : Nat), s.isl.run = .run → s.isl.ident = some u →
    (u ≤ s.latest → ∃ t, exec .identifyTimeout s = .next t ∧ t = { s with isl := t.isl } ∧
      (Config.variantNx = false → t.isl.ident = none ∧ t.isl.wf = s.isl.wf ∧ t.isl.tare = s.isl.tare)) ∧
    (s.latest < u → exec .identifyTimeout s = .next s)) ∧
  (∀ (c : Instr) (s : State), s.now < s.isl.deUntil →
    c ∈ [Instr.terminalZero, Instr.terminalTare, Instr.terminalClearTare, Instr.terminalPrint, Instr.terminalIdentify] →
    exec c s = .next s)

/-- ISLAND_BUFFER_POST, LEGAL_READBACK and ISLAND_GEOMETRY_UPDATE. -/
def Obligations.WindowPostedAndChecked : Prop :=
  (∀ (s : State) (image : Bytes), s.isl.run = .run → s.isl.pllOut = false →
    image.length = 3 * (s.isl.geom[(0 : Fin 4)]).rw * (s.isl.geom[(0 : Fin 4)]).rh →
    ∃ t, exec (.islandBufferPost image) s = .next t ∧ t = { s with isl := t.isl } ∧
      (Config.variantNx = false → t.isl.postedNow = true ∧ t.isl.posted = some ⟨image, (s.isl.geom[(0 : Fin 4)]).rw,
        (s.isl.geom[(0 : Fin 4)]).rh, s.isl.valid && !s.isl.someMismatch⟩)) ∧
  (∀ (s : State) (h : HeadIx) (r : Readback) (rest : List Readback), s.isl.run = .run → (s.isl.heads[h]).queue = r :: rest →
    ∃ t, exec (.legalReadback h) s = .next t ∧ t = { s with isl := t.isl } ∧
      (Config.variantNx = false →
        (t.isl.heads[h]).queue = rest ∧
        (r.composing = false → (t.isl.heads[h]).composing = false ∧ (t.isl.heads[h]).shown = false ∧
          (t.isl.heads[h]).mismatches = (s.isl.heads[h]).mismatches) ∧
        (r.composing = true → r.crc = expectedCrc r.buf (s.isl.geom[h]).rw (s.isl.geom[h]).rh r.zoom →
          (t.isl.heads[h]).bad = 0 ∧ (t.isl.heads[h]).mismatches = (s.isl.heads[h]).mismatches) ∧
        (r.composing = true → r.crc ≠ expectedCrc r.buf (s.isl.geom[h]).rw (s.isl.geom[h]).rh r.zoom →
          (t.isl.heads[h]).good = 0 ∧ (t.isl.heads[h]).mismatches = inc 32 (s.isl.heads[h]).mismatches ∧
          (1 ≤ (s.isl.heads[h]).bad → (t.isl.heads[h]).inMismatch = true ∧ t.isl.legalOk = false)))) ∧
  (∀ s : State, s.isl.run ≠ .off →
    ∃ t, exec .islandGeometryUpdate s = .next t ∧ t = { s with isl := t.isl, lw := t.lw, flt := t.flt } ∧
      (Config.variantNx = false → t.lw.win = s.isl.geom) ∧ (Config.variantNx = true → t = s))

/-- ETH_AN_COMPLETE, ETH_TRAINING_COMPLETE, ETH_LINK_UP, ETH_LINK_LOSS and QSFP_MODULE_PRESENT. -/
def Obligations.LinkBringUp : Prop :=
  (∀ (s : State) (p : PortIx), mediaCopper (s.pN P.ETH_MEDIA p.1) = true → s.pB P.ETH_AN p.1 = true →
    (s.eth.ports[p]).phase = .down →
    ∃ t, exec (.ethAnComplete p) s = .next t ∧ t = { s with eth := t.eth } ∧ (t.eth.ports[p]).phase = .training ∧
      t.eth.ports[1 - p] = s.eth.ports[1 - p] ∧ t.eth.buf = s.eth.buf) ∧
  (∀ (s : State) (p : PortIx), mediaCopper (s.pN P.ETH_MEDIA p.1) = true → (s.eth.ports[p]).phase = .training →
    ∃ t, exec (.ethTrainingComplete p) s = .next t ∧ t = { s with eth := t.eth } ∧ (t.eth.ports[p]).phase = .trained ∧
      t.eth.ports[1 - p] = s.eth.ports[1 - p] ∧ t.eth.buf = s.eth.buf) ∧
  (∀ (s : State) (p : PortIx),
    (mediaCopper (s.pN P.ETH_MEDIA p.1) = true ∧ (s.eth.ports[p]).phase = .trained) ∨
      (s.pN P.ETH_MEDIA p.1 = 2 ∧ s.modulePresent p = true ∧ (s.eth.ports[p]).phase = .down) →
    ∃ t, exec (.ethLinkUp p) s = .next t ∧ t = { s with eth := t.eth, free := t.free, out := t.out } ∧ (t.eth.ports[p]).phase = .up ∧
      t.eth.ports[1 - p] = s.eth.ports[1 - p] ∧ t.eth.buf = s.eth.buf ∧
      (s.pN P.ETH_IPADDR p.1 ≠ 0 → Out.arp p false 0xFFFFFFFFFFFF (s.pN P.ETH_IPADDR p.1) ∈ t.out) ∧
      (s.memberships p ≠ [] → (s.eth.ports[p]).v1Until ≤ s.now → (s.eth.ports[p]).v2Until ≤ s.now →
        Out.igmp p 3 ((s.memberships p).map stateRec) ∈ t.out)) ∧
  (∀ (s : State) (t0 : Nat) (p : PortIx), (s.eth.ports[p]).phase = .up →
    ∃ t, exec (.ethLinkLoss t0 p) s = .next t ∧ t = { s with now := max s.now t0, eth := t.eth, flt := t.flt } ∧
      (t.eth.ports[p]).phase = firstPhase (s.pN P.ETH_MEDIA p.1) (s.pN P.ETH_AN p.1) ∧
      t.eth.ports[1 - p] = s.eth.ports[1 - p] ∧ t.eth.buf = s.eth.buf ∧ t.flt.seq = s.flt.seq + 1 ∧ ∃ e, t.flt.log.head? = some e ∧ e.block = 4 + p.1 ∧ e.code = 1 ∧ e.tick = s.tick.count) ∧
  (∀ (s : State) (g : Fin 16) (level : Bool),
    ∃ t, exec (.qsfpModulePresent g level) s = .next t ∧ t = { s with eth := t.eth } ∧ t.eth.gpio[g] = level ∧
      (∀ k : Fin 16, k ≠ g → t.eth.gpio[k] = s.eth.gpio[k]) ∧ t.eth.buf = s.eth.buf ∧
      (∀ p : PortIx, s.pN P.ETH_MEDIA p.1 = 2 → s.pN P.ETH_MODPRS p.1 = g.1 → level = true →
        (t.eth.ports[p]).phase = .down) ∧
      (∀ p : PortIx, s.pN P.ETH_MEDIA p.1 ≠ 2 ∨ s.pN P.ETH_MODPRS p.1 ≠ g.1 ∨ level = false → t.eth.ports[p] = s.eth.ports[p]))

/-- ETH_FRAME_RX. -/
def Obligations.ClassifierBuffersOrDrops : Prop :=
  let counted (x y : Port) (fec : Fec) : Prop := y.fecCorr = inc 64 x.fecCorr fec.corrected ∧ y.fecUncorr = inc 64 x.fecUncorr fec.uncorrectable
  (∀ (s : State) (t0 : Nat) (p : PortIx) (fec : Fec) (f : Bytes),
    (s.eth.ports[p]).phase ≠ .up ∨ s.clockLost (serdesEth p) = true →
    exec (.ethFrameRx t0 p fec f) s = .next { s with now := max s.now t0 }) ∧
  (∀ (s : State) (t0 : Nat) (p : PortIx) (fec : Fec) (f : Bytes) (ty : Nat), (s.eth.ports[p]).phase = .up →
    s.clockLost (serdesEth p) = false → ty = be16 f (if be16 f 12 = 0x8100 then 16 else 12) →
    (fec.touched = true ∨ crc32 (f.take (f.length - 4)) ≠ le32 f (f.length - 4) ∨ 9022 < f.length ∨
      (64 ≤ f.length ∧ ty ≠ 0x8808 ∧ ty ≠ 0x0800 ∧ ty ≠ 0x0806)) →
    ∃ t, exec (.ethFrameRx t0 p fec f) s = .next t ∧ t = { s with now := max s.now t0, eth := t.eth } ∧
      (t.eth.ports[p]).badFrames = inc 32 (s.eth.ports[p]).badFrames ∧ counted s.eth.ports[p] t.eth.ports[p] fec ∧
      t.eth.buf = s.eth.buf ∧ t.eth.halt = s.eth.halt ∧ t.eth.ports[1 - p] = s.eth.ports[1 - p]) ∧
  (∀ (s : State) (t0 : Nat) (p : PortIx) (fec : Fec) (f : Bytes) (k : Nat) (x : Payload), (s.eth.ports[p]).phase = .up →
    s.clockLost (serdesEth p) = false → s.parseFrame p fec.touched f = .keep k x → k ≤ 4 →
    (s.eth.inPool * 100 < poolThreshold k * sharedPool →
      ∃ t, exec (.ethFrameRx t0 p fec f) s = .next t ∧ t = { s with now := max s.now t0, eth := t.eth, cas := t.cas, out := t.out } ∧
        t.eth = { s.eth with ports := t.eth.ports, buf := s.eth.buf ++ [⟨p, k, f.length, max s.now t0, x⟩] } ∧
        counted s.eth.ports[p] t.eth.ports[p] fec ∧ (t.eth.ports[p]).drops = (s.eth.ports[p]).drops) ∧
    (poolThreshold k * sharedPool ≤ s.eth.inPool * 100 →
      ∃ t, exec (.ethFrameRx t0 p fec f) s = .next t ∧ t = { s with now := max s.now t0, eth := t.eth, cas := t.cas, out := t.out } ∧
        t.eth.buf = s.eth.buf ∧ counted s.eth.ports[p] t.eth.ports[p] fec ∧
        (t.eth.ports[p]).drops[Fin.ofNat 8 k] = inc 32 (s.eth.ports[p]).drops[Fin.ofNat 8 k])) ∧
  (∀ (s : State) (t0 : Nat) (p : PortIx) (fec : Fec) (f : Bytes) (k : Nat) (x : Payload), (s.eth.ports[p]).phase = .up →
    s.clockLost (serdesEth p) = false → s.dev ≠ .boot → s.parseFrame p fec.touched f = .keep k x → ptpServed x = true →
    5 ≤ k → k ≤ 7 → f.length * 8000 ≤ ((s.eth.ports[p]).refill (max s.now t0)).tokens[Fin.ofNat 3 (k - 5)] →
    s.eth.inClass p k + f.length ≤ reserveOf k →
    ∃ t, exec (.ethFrameRx t0 p fec f) s = .next t ∧ t = { s with now := max s.now t0, eth := t.eth } ∧
      t.eth.buf = s.eth.buf ++ [⟨p, k, f.length, max s.now t0, x⟩] ∧ t.eth.halt = s.eth.halt ∧
      (t.eth.ports[p]).drops = (s.eth.ports[p]).drops ∧ (t.eth.ports[p]).badFrames = (s.eth.ports[p]).badFrames) ∧
  (∀ (s : State) (t0 : Nat) (p : PortIx) (fec : Fec) (f : Bytes) (x : Payload), (s.eth.ports[p]).phase = .up →
    s.clockLost (serdesEth p) = false → s.dev ≠ .boot → s.parseFrame p fec.touched f = .halt x →
    (s.eth.halt[p]).foldl (fun a b => a + b.len) 0 + f.length ≤ haltSlot →
    ∃ t, exec (.ethFrameRx t0 p fec f) s = .next t ∧ t = { s with now := max s.now t0, eth := t.eth } ∧
      t.eth.halt[p] = s.eth.halt[p] ++ [⟨p, 7, f.length, max s.now t0, x⟩] ∧ t.eth.buf = s.eth.buf) ∧
  (∀ (s : State) (t0 : Nat) (p : PortIx) (fec : Fec) (f : Bytes) (k ip port : Nat) (b : Bytes), (s.eth.ports[p]).phase = .up →
    s.clockLost (serdesEth p) = false → s.dev = .boot →
    s.parseFrame p fec.touched f = .keep k (.acm ip port b) ∨ s.parseFrame p fec.touched f = .halt (.acm ip port b) →
    ∃ t, exec (.ethFrameRx t0 p fec f) s = .next t ∧ t = { s with now := max s.now t0, eth := t.eth } ∧
      t.eth.buf = s.eth.buf ∧ t.eth.halt = s.eth.halt)

/-- ARP_REQUEST, ICMP_ECHO and IGMP_QUERY. -/
def Obligations.PortProtocolsAnswered : Prop :=
  (∀ (s u : State) (p : PortIx) (d : Bytes), s.takeFrame p isArp = some (.arp d, u) → s.clockLost (serdesEth p) = false →
    be16 d 0 = 1 → be16 d 2 = 0x0800 → be16 d 6 = 1 → be32 d 24 = s.pN P.ETH_IPADDR p.1 → be32 d 24 ≠ 0 →
    ∃ t, exec (.arpRequest p) s = .next t ∧ t = { s with eth := u.eth, out := t.out } ∧
      t.out = .arp p true (natBE (slice d 8 6)) (be32 d 14) :: s.out) ∧
  (∀ (s u : State) (t0 : Nat) (p : PortIx) (ip : Nat) (d : Bytes),
    ({ s with now := max s.now t0 } : State).takeFrame p isIcmp = some (.icmp ip d, u) → u8 d 0 = 8 → u8 d 1 = 0 →
    s.dev ≠ .boot → s.reachable (.eth p) ip = true →
    ((s.eth.ports[p]).echoes.filter (fun e => decide (max s.now t0 < e + 1000000000))).length < 100 →
    ∃ t, exec (.icmpEcho t0 p) s = .next t ∧ t = { s with now := max s.now t0, eth := t.eth, out := t.out } ∧
      t.eth.buf = u.eth.buf ∧ t.out = .echo p ip (d.drop 4) :: s.out) ∧
  (∀ (s u : State) (p : PortIx) (ip : Nat) (d : Bytes), s.takeFrame p isIgmp = some (.igmp ip d, u) →
    u8 d 0 = 0x11 → be32 d 4 = 0 → s.memberships p ≠ [] → (s.eth.ports[p]).v1Until ≤ s.now →
    (12 ≤ d.length → (s.eth.ports[p]).v2Until ≤ s.now → be16 d 10 = 0 →
      ∃ t, exec (.igmpQuery p) s = .next t ∧ t = { s with eth := u.eth, out := t.out } ∧
        t.out = .igmp p 3 ((s.memberships p).map stateRec) :: s.out) ∧
    (d.length < 12 → u8 d 1 ≠ 0 →
      ∃ t r, exec (.igmpQuery p) s = .next t ∧ t = { s with eth := t.eth, out := t.out } ∧ t.eth.buf = u.eth.buf ∧
        t.out = .igmp p 2 r :: s.out ∧ ∀ g, g ∈ r → ∃ m ∈ s.memberships p, g = (2, m.1, [])))

/-- PTP_ANNOUNCE, PTP_SYNC, PTP_DELAY_RESP and PTP_HOLDOVER. -/
def Obligations.PtpFollowsAndHolds : Prop :=
  (∀ (s u : State) (t0 : Nat) (p : PortIx) (port ip : Nat) (d : Bytes),
    ({ s with now := max s.now t0 } : State).takeFrame p (isPtpOf [ptpTypeAnnounce]) = some (.ptp port ip d, u) →
    s.ptpAccepts p d = true → 64 ≤ d.length →
    ∃ t, exec (.ptpAnnounce t0 p) s = .next t ∧ t = { s with now := max s.now t0, eth := u.eth, ptp := t.ptp } ∧
      ∃ m, m ∈ t.ptp.masters ∧ m.p = p ∧ m.source = ptpSource d ∧ m.gm = natBE (slice d 53 8) ∧
        m.heard.head? = some (max s.now t0)) ∧
  (∀ (s u : State) (t0 : Nat) (p : PortIx) (rx : Int) (port ip : Nat) (d : Bytes),
    ({ s with now := max s.now t0 } : State).takeFrame p (isPtpOf [ptpTypeSync, ptpTypeFollowUp]) = some (.ptp port ip d, u) →
    s.ptpAccepts p d = true → 44 ≤ d.length → s.ptp.sel = some (p, ptpSource d) → u8 d 0 % 16 = ptpTypeSync →
    ∃ t, exec (.ptpSync t0 p rx) s = .next t ∧ t = { s with now := max s.now t0, eth := u.eth, ptp := t.ptp, out := t.out } ∧
      t.ptp.syncAt = max s.now t0 ∧
      (bit (u8 d 6) 1 = true → t.ptp = { s.ptp with
          syncAt := max s.now t0, waiting := some (ptpSeq d, s.stamp rx, ptpCorrection d), syncLog := ptpLogInt d } ∧
        t.out = s.out) ∧
      (bit (u8 d 6) 1 = false → (t.ptp.good = 0 ∨ t.ptp.good = s.ptp.good + 1) ∧
        t.ptp.offset = clampI (-2147483648) 2147483647 (s.stamp rx + s.ptp.ahead - (ptpStamp d + ptpCorrection d) -
          s.ptp.meanDelay - s.pI P.ETH_PTP_ASYM p.1))) ∧
  (∀ (s u : State) (t0 : Nat) (p : PortIx) (rx rx0 c0 : Int) (port ip : Nat) (d : Bytes),
    ({ s with now := max s.now t0 } : State).takeFrame p (isPtpOf [ptpTypeSync, ptpTypeFollowUp]) = some (.ptp port ip d, u) →
    s.ptpAccepts p d = true → 44 ≤ d.length → s.ptp.sel = some (p, ptpSource d) → u8 d 0 % 16 = ptpTypeFollowUp →
    s.ptp.waiting = some (ptpSeq d, rx0, c0) →
    ∃ t, exec (.ptpSync t0 p rx) s = .next t ∧ t = { s with now := max s.now t0, eth := u.eth, ptp := t.ptp, out := t.out } ∧
      t.ptp.waiting = none ∧ (t.ptp.good = 0 ∨ t.ptp.good = s.ptp.good + 1) ∧
      t.ptp.offset = clampI (-2147483648) 2147483647 (rx0 + s.ptp.ahead - (ptpStamp d + (c0 + ptpCorrection d)) -
        s.ptp.meanDelay - s.pI P.ETH_PTP_ASYM p.1)) ∧
  (∀ (s u : State) (t0 : Nat) (p : PortIx) (tx : Int) (port ip : Nat) (d : Bytes),
    ({ s with now := max s.now t0 } : State).takeFrame p (isPtpOf [ptpTypeDelayResp]) = some (.ptp port ip d, u) →
    s.ptpAccepts p d = true → 54 ≤ d.length → s.ptp.sel = some (p, ptpSource d) → ptpSeq d = s.ptp.reqSeq →
    ∃ t, exec (.ptpDelayResp t0 p tx) s = .next t ∧ t = { s with now := max s.now t0, eth := u.eth, ptp := t.ptp } ∧
      (natBE (slice d 44 10) ≠ (Config.ptpIdentity p).toNat → t.ptp = s.ptp) ∧
      (natBE (slice d 44 10) = (Config.ptpIdentity p).toNat →
        t.ptp = { s.ptp with meanDelay :=
          (clampI 0 4294967295 (((s.ptp.t2 - s.ptp.t1) + (ptpStamp d - s.stamp tx - ptpCorrection d)) / 2)).toNat })) ∧
  (∀ (s : State) (t0 : Nat) (p : PortIx) (src : Nat), s.ptp.sel = some (p, src) →
    (∀ m ∈ s.ptp.masters, m.p = p ∧ m.source = src) →
    s.ptp.syncAt + 8 * intervalNs s.ptp.syncLog ≤ max s.now t0 →
    ∃ t, exec (.ptpHoldover t0) s = .next t ∧ t = { s with now := max s.now t0, ptp := t.ptp } ∧
      t.ptp.state = .holdover ∧ t.ptp.sel = none ∧ t.ptp.masters = [] ∧ t.ptp.ahead = s.ptp.ahead)

/-- VIDEO_PACKET, RX_FRAME_TIMEOUT and RX_SSRC_TIMEOUT. -/
def Obligations.SessionTakesPackets : Prop :=
  let free (s : State) (t0 : Nat) : Prop := (s.tickRuns && s.tick.nextEdge == max s.now t0) = false
  let fits (s : State) (v : RxIx) (k : VPacket) : Prop := ((s.rx[v]).ssrc = none ∨ (s.rx[v]).ssrc = some k.ssrc) ∧
    k.srds.length ≠ 0 ∧ k.srds.length ≤ 3 ∧ k.field = false ∧
    k.srds.all (srdOk (s.pN P.ETH_RX_FORMAT v.1) (s.pN P.ETH_RX_WIDTH v.1) (s.pN P.ETH_RX_HEIGHT v.1)) = true
  (∀ (s u : State) (t0 : Nat) (p : PortIx) (v : RxIx) (d : Bytes) (k : VPacket) (n : Nat),
    ({ s with now := max s.now t0 } : State).takeFrame p isVideo = some (.video [v] d, u) → free s t0 → s.dev ≠ .boot →
    s.pathOn v.1 p.1 = true → parseRtp d = some k → k.pt = s.pN P.ETH_RX_PT v.1 → fits s v k →
    n = unwrapNum (s.rx[v]).hi k.num →
    ((∀ hi, (s.rx[v]).hi = some hi → hi ≤ n + 32768) → (s.pN P.ETH_RX_PATHS v.1 ≠ 3 ∨ spanHas n (s.rx[v]).seen = false) →
      ∃ t, exec (.videoPacket t0 p) s = .next t ∧
        t = { s with now := max s.now t0, eth := u.eth, rx := t.rx, surf := t.surf, mem := t.mem, acm := t.acm, out := t.out,
                     free := t.free } ∧
        (t.rx[v]).ssrc = some k.ssrc ∧ (t.rx[v]).lastAt = max s.now t0 ∧
        (t.rx[v]).hi = some (max ((s.rx[v]).hi.getD n) n) ∧ (t.rx[v]).badPkt = (s.rx[v]).badPkt ∧
        ∀ w : RxIx, w ≠ v → t.rx[w] = s.rx[w]) ∧
    ((∀ hi, (s.rx[v]).hi = some hi → hi ≤ n + 32768) → s.pN P.ETH_RX_PATHS v.1 = 3 → spanHas n (s.rx[v]).seen = true →
      ∃ t, exec (.videoPacket t0 p) s = .next t ∧ t = { s with now := max s.now t0, eth := u.eth, rx := t.rx } ∧
        (t.rx[v]).frames = (s.rx[v]).frames ∧ (t.rx[v]).badPkt = (s.rx[v]).badPkt ∧ (t.rx[v]).late = (s.rx[v]).late ∧
        ∀ w : RxIx, w ≠ v → t.rx[w] = s.rx[w]) ∧
    (∀ hi, (s.rx[v]).hi = some hi → n + 32768 < hi →
      exec (.videoPacket t0 p) s = .next { s with
        now := max s.now t0, eth := u.eth
        rx := vmod s.rx v (fun r => { r with
          lastAt := max s.now t0, ssrc := some k.ssrc
          late := if spanHas n (s.rx[v]).wrote then r.late else vmod r.late p (inc 32 ·) }) })) ∧
  (∀ (s u : State) (t0 : Nat) (p : PortIx) (v : RxIx) (d : Bytes),
    ({ s with now := max s.now t0 } : State).takeFrame p isVideo = some (.video [v] d, u) → free s t0 → s.dev ≠ .boot →
    s.pathOn v.1 p.1 = true →
    (parseRtp d = none ∨ (∃ k, parseRtp d = some k ∧ k.pt ≠ s.pN P.ETH_RX_PT v.1) →
      exec (.videoPacket t0 p) s = .next { s with
        now := max s.now t0, eth := u.eth
        rx := vmod s.rx v (fun r => { r with lastAt := max s.now t0, badPkt := vmod r.badPkt p (inc 32 ·) }) }) ∧
    (∀ k, parseRtp d = some k → k.pt = s.pN P.ETH_RX_PT v.1 → ¬ fits s v k →
      exec (.videoPacket t0 p) s = .next { s with
        now := max s.now t0, eth := u.eth
        rx := vmod s.rx v (fun r => { r with
          lastAt := max s.now t0, ssrc := some (r.ssrc.getD k.ssrc), badPkt := vmod r.badPkt p (inc 32 ·) }) })) ∧
  (∀ (s : State) (t0 : Nat) (p : PortIx), s.tickRuns = true → s.tick.nextEdge = max s.now t0 →
    exec (.videoPacket t0 p) s = .next { s with now := max s.now t0 }) ∧
  (∀ (s : State) (t0 : Nat) (v : RxIx) (o : OpenFrame) (a : Nat), (s.rx[v]).frames = [o] →
    (o.markAt = some a ∨ o.laterAt = some a) →
    a + s.pN P.ETH_RX_TIMEOUT v.1 * 1000000 ≤ max s.now t0 →
    ∃ t, exec (.rxFrameTimeout t0 v) s = .next t ∧ t = { s with now := max s.now t0, rx := t.rx, surf := t.surf } ∧
      (t.rx[v]).frames = [] ∧ (t.rx[v]).discards = inc 32 (s.rx[v]).discards ∧ (t.rx[v]).closed.head? = some o.ts ∧
      (∀ ix x, s.surface o.handle = some (ix, x) →
        assocGet ix t.surf.tbl = some { x with st := .ready, valid := false }) ∧
      ∀ w : RxIx, w ≠ v → t.rx[w] = s.rx[w]) ∧
  (∀ (s : State) (t0 : Nat) (v : RxIx) (o : OpenFrame), (s.rx[v]).frames = [o] →
    (∀ a, o.markAt = some a ∨ o.laterAt = some a → max s.now t0 < a + s.pN P.ETH_RX_TIMEOUT v.1 * 1000000) →
    exec (.rxFrameTimeout t0 v) s = .next { s with now := max s.now t0 }) ∧
  (∀ (s : State) (t0 : Nat) (v : RxIx), max s.now t0 < (s.rx[v]).lastAt + 1000000000 →
    exec (.rxSsrcTimeout t0 v) s = .next { s with now := max s.now t0 }) ∧
  (∀ (s : State) (t0 : Nat) (v : RxIx), (s.rx[v]).lastAt + 1000000000 ≤ max s.now t0 →
    ∃ t, exec (.rxSsrcTimeout t0 v) s = .next t ∧ t = { s with now := max s.now t0, rx := t.rx } ∧
      (t.rx[v]).ssrc = none ∧ (t.rx[v]).framesOk = (s.rx[v]).framesOk ∧ ∀ w : RxIx, w ≠ v → t.rx[w] = s.rx[w])

/-- HALT, TRAVERSE_HALT and HALT_REPLY. -/
def Obligations.HaltBlanksAndLatches : Prop :=
  (∀ (s : State) (t0 : Nat) (p : PortIx) (x : Buffered) (rest : List Buffered) (ip port : Nat) (b : Bytes) (q : SessIx),
    s.eth.halt[p] = x :: rest → x.payload = .acm ip port b → FreshHalt s b q →
    ∃ t, exec (.halt t0 p) s = .next t ∧ t.eth = { s.eth with halt := vset s.eth.halt p rest } ∧
      t.out = (if (dgramOf b).device = 0xFF then s.travSend kindHalt 0xFF (withFwd b true) else s).out ∧
      HaltKept s t b q (some ⟨.eth p, ip, port⟩) true ∧
      (s.anc.halt = false → HaltActed s t ∧
        t = { s with now := max s.now t0, dev := t.dev, acm := t.acm, flt := t.flt, pwr := t.pwr, eth := t.eth, em := t.em,
                     anc := t.anc, bly := t.bly, tch := t.tch, out := t.out }) ∧
      (s.anc.halt = true → t = { s with now := max s.now t0, acm := t.acm, eth := t.eth, out := t.out })) ∧
  (∀ (s : State) (t0 : Nat) (p : PortIx) (x : Buffered) (rest : List Buffered) (ip port : Nat) (b : Bytes) (q : SessIx),
    s.eth.halt[p] = x :: rest → x.payload = .acm ip port b → StaleHalt s b q →
    ∃ t, exec (.halt t0 p) s = .next t ∧ t = { s with now := max s.now t0, acm := t.acm, eth := t.eth } ∧
      t.eth = { s.eth with halt := vset s.eth.halt p rest } ∧ HaltKept s t b q (some ⟨.eth p, ip, port⟩) false) ∧
  (∀ (s u : State) (t0 : Nat) (p : PortIx) (frame : Bytes) (f : Trav) (q : SessIx),
    (s.atTime t0).travTake p kindHalt frame = (u, some f) → (dgramOf f.body).typ = typHalt →
    (FreshHalt u f.body q →
      ∃ t, exec (.traverseHalt t0 p frame) s = .next t ∧ HaltKept u t f.body q (u.acm.sess[q]).addr true ∧
        (u.anc.halt = false → HaltActed u t ∧
          t = { u with dev := t.dev, acm := t.acm, flt := t.flt, pwr := t.pwr, em := t.em, anc := t.anc, bly := t.bly,
                       tch := t.tch }) ∧
        (u.anc.halt = true → t = { u with acm := t.acm })) ∧
    (StaleHalt u f.body q →
      ∃ t, exec (.traverseHalt t0 p frame) s = .next t ∧ HaltKept u t f.body q (u.acm.sess[q]).addr false ∧
        t = { u with acm := t.acm })) ∧
  (∀ (s : State) (x : HaltAct) (rest : List HaltAct), s.acm.halts = x :: rest → s.dev ≠ .boot →
    ∃ t, exec .haltReply s = .next t ∧ t = { s with acm := { s.acm with halts := rest }, flt := t.flt, out := t.out } ∧
      (x.acted = true → t.flt.seq = s.flt.seq + 1 ∧
        ∃ e, t.flt.log.head? = some e ∧ e.block = 3 ∧ e.code = 3 ∧ e.data.take 3 = [byteOf x.session.1] ++ toLE 2 x.reason) ∧
      (x.acted = false → t.flt = s.flt) ∧ (x.reply = none → t.out = s.out) ∧
      (∀ dst, x.reply = some dst →
        (s.reachable (s.viaOut dst.via) dst.ip = true → ∃ d,
          t.out = .acm { dst with via := s.viaOut dst.via } (s.pN P.SYS_ACM_PORT) d :: s.out ∧ be16 d 4 = typHalt ∧
          be32 d 12 = x.counter % 2 ^ 32 ∧ be16 d 18 = 0) ∧
        (s.reachable (s.viaOut dst.via) dst.ip = false → t.out = s.out)))

/-- ACM_REQUEST_RX. -/
def Obligations.RequestsAccepted : Prop :=
  (∀ (s u : State) (t0 : Nat) (p : PortIx) (ip port : Nat) (b : Bytes) (q : SessIx),
    ({ s with now := max s.now t0 } : State).takeFrame p isAcm = some (.acm ip port b, u) → AuthenticRequest u ip b q →
    (dgramOf b).epoch = s.acm.epoch → s.refusedDevice (dgramOf b) = false → (dgramOf b).typ ≠ typHello →
    (dgramOf b).typ ≠ typEventAck → (s.acm.sess[q]).open_ = true → (dgramOf b).seq ≠ 0 →
    (dgramOf b).seq = (s.acm.sess[q]).next → s.mailboxFull (dgramOf b).mailbox = false →
    ∃ t, exec (.acmRequestRx t0 p) s = .next t ∧ t = { s with now := max s.now t0, eth := u.eth, acm := t.acm } ∧
      (t.acm.sess[q]).addr = some ⟨.eth p, ip, port⟩ ∧
      ∃ m l, t.acm.accepted = s.acm.accepted ++ m :: l ∧ (t.acm.sess[q]).next = (s.acm.sess[q]).next + 1 + l.length ∧
        ((s.acm.sess[q]).held = [] → l = []) ∧ m.session = q ∧ m.seq = (dgramOf b).seq ∧ m.typ = (dgramOf b).typ ∧
        m.mailbox = (dgramOf b).mailbox ∧ m.body = (dgramOf b).body ∧ m.reply = ⟨.eth p, ip, port⟩) ∧
  (∀ (s u : State) (t0 : Nat) (p : PortIx) (ip port : Nat) (b : Bytes) (q : SessIx) (c : Cached),
    ({ s with now := max s.now t0 } : State).takeFrame p isAcm = some (.acm ip port b, u) → AuthenticRequest u ip b q →
    (dgramOf b).epoch = s.acm.epoch → s.refusedDevice (dgramOf b) = false → (dgramOf b).typ ≠ typHello →
    (dgramOf b).typ ≠ typEventAck → (s.acm.sess[q]).open_ = true → (dgramOf b).seq ≠ 0 →
    (dgramOf b).seq < (s.acm.sess[q]).next → (s.acm.sess[q]).next ≤ (dgramOf b).seq + 256 →
    (s.acm.sess[q]).cache.find? (fun c => c.seq == (dgramOf b).seq) = some c →
    ∃ t, exec (.acmRequestRx t0 p) s = .next t ∧ t = { s with now := max s.now t0, eth := u.eth, acm := t.acm, out := t.out } ∧
      t.acm.accepted = s.acm.accepted ∧ (t.acm.sess[q]).next = (s.acm.sess[q]).next ∧
      (s.reachable (s.viaOut (.eth p)) ip = true → ∃ a d, t.out = .acm a (s.pN P.SYS_ACM_PORT) d :: s.out ∧
        bit (u8 d 3) 5 = true ∧ be32 d 12 = c.seq % 2 ^ 32 ∧ be16 d 18 = c.status % 2 ^ 16)) ∧
  (∀ (s u : State) (t0 : Nat) (p : PortIx) (ip port : Nat) (b : Bytes) (q : SessIx),
    ({ s with now := max s.now t0 } : State).takeFrame p isAcm = some (.acm ip port b, u) → AuthenticRequest u ip b q →
    ((dgramOf b).epoch ≠ s.acm.epoch ∨
      (s.refusedDevice (dgramOf b) = false ∧ (s.acm.sess[q]).open_ = false)) → (dgramOf b).typ ≠ typHello →
    ∃ t, exec (.acmRequestRx t0 p) s = .next t ∧ t = { s with now := max s.now t0, eth := u.eth, acm := t.acm, out := t.out } ∧
      t.acm.accepted = s.acm.accepted ∧ t.acm.acks = s.acm.acks ∧
      (t.acm.sess[q]) = { s.acm.sess[q] with addr := some ⟨.eth p, ip, port⟩ }) ∧
  (∀ (s u : State) (t0 : Nat) (p : PortIx) (ip port : Nat) (b : Bytes) (q : SessIx),
    ({ s with now := max s.now t0 } : State).takeFrame p isAcm = some (.acm ip port b, u) → AuthenticRequest u ip b q →
    s.refusedDevice (dgramOf b) = false → (dgramOf b).typ = typHello →
    ∃ t, exec (.acmRequestRx t0 p) s = .next t ∧ t = { s with now := max s.now t0, eth := u.eth, acm := t.acm } ∧
      t.acm.accepted = s.acm.accepted ∧ ∃ x, t.acm.hellos = s.acm.hellos ++ [x] ∧ x.session = q ∧ x.body = (dgramOf b).body) ∧
  (∀ (s u : State) (t0 : Nat) (p : PortIx) (ip port : Nat) (b : Bytes) (q : SessIx),
    ({ s with now := max s.now t0 } : State).takeFrame p isAcm = some (.acm ip port b, u) → AuthenticRequest u ip b q →
    (dgramOf b).epoch = s.acm.epoch → s.refusedDevice (dgramOf b) = false → (dgramOf b).typ = typEventAck →
    (s.acm.sess[q]).open_ = true →
    ∃ t, exec (.acmRequestRx t0 p) s = .next t ∧ t = { s with now := max s.now t0, eth := u.eth, acm := t.acm } ∧
      t.acm.acks = s.acm.acks ++ [(q, (dgramOf b).irt)]) ∧
  (∀ (s u : State) (t0 : Nat) (p : PortIx) (ip port : Nat) (b key : Bytes),
    ({ s with now := max s.now t0 } : State).takeFrame p isAcm = some (.acm ip port b, u) → s.dev ≠ .boot →
    dgramForm b = true → (dgramOf b).typ ≠ typHalt → s.acmSourceOk ip b = true →
    s.acm.keys[(Fin.ofNat 4 (dgramOf b).session : SessIx)] = some key → dgramTagOk key b = false →
    ∃ t, exec (.acmRequestRx t0 p) s = .next t ∧ t = { s with now := max s.now t0, eth := u.eth, acm := t.acm, out := t.out } ∧
      t.acm.accepted = s.acm.accepted ∧ t.acm.hellos = s.acm.hellos ∧
      (t.acm.sess[(Fin.ofNat 4 (dgramOf b).session : SessIx)]).authFail =
        inc 32 (s.acm.sess[(Fin.ofNat 4 (dgramOf b).session : SessIx)]).authFail)

/-- HELLO_NEW, HELLO_RESUME and HELLO_NEW_COMMISSIONING. -/
def Obligations.HelloOpensSessions : Prop :=
  (∀ (s : State) (x : Hello), s.acm.hellos.find? s.helloReady = some x → x.body.length = 12 → u8 x.body 0 = 0 →
    x.epoch = s.acm.epoch → (s.acm.sess[x.session]).helloCount < be32 x.body 4 →
    ∃ t, exec .helloNew s = .next t ∧ t = { s with acm := t.acm, surf := t.surf, out := t.out } ∧
      t.acm.sess[x.session] = (s.acm.sess[x.session]).fresh false (be32 x.body 4) (be32 x.body 8) ∧
      (∀ q : SessIx, q ≠ x.session → t.acm.sess[q] = s.acm.sess[q]) ∧ t.acm.hellos = s.acm.hellos.erase x ∧
      t.surf.tbl = s.surf.tbl) ∧
  (∀ (s : State) (x : Hello), s.acm.hellos.find? s.helloReady = some x → x.body.length = 12 → u8 x.body 0 = 1 →
    x.epoch = s.acm.epoch → (s.acm.sess[x.session]).helloCount < be32 x.body 4 → (s.acm.sess[x.session]).open_ = true →
    ∃ t, exec .helloResume s = .next t ∧ t = { s with acm := t.acm, out := t.out } ∧
      t.acm.sess[x.session] =
        { s.acm.sess[x.session] with mask := be32 x.body 8, helloCount := be32 x.body 4 } ∧
      (∀ q : SessIx, q ≠ x.session → t.acm.sess[q] = s.acm.sess[q]) ∧ t.acm.hellos = s.acm.hellos.erase x) ∧
  (∀ (s : State) (x : Hello), s.acm.hellos.find? s.helloReady = some x → x.body.length = 12 → u8 x.body 0 = 2 →
    x.epoch = s.acm.epoch → (s.acm.sess[x.session]).helloCount < be32 x.body 4 → s.acm.commKey[x.session] = true →
    ∃ t, exec .helloNewCommissioning s = .next t ∧ t = { s with acm := t.acm, surf := t.surf, out := t.out } ∧
      t.acm.sess[x.session] = (s.acm.sess[x.session]).fresh true (be32 x.body 4) (be32 x.body 8) ∧
      (∀ q : SessIx, q ≠ x.session → t.acm.sess[q] = s.acm.sess[q]) ∧ t.acm.hellos = s.acm.hellos.erase x) ∧
  (∀ (s : State) (x : Hello), s.acm.hellos.find? s.helloReady = some x → x.body.length = 12 →
    ((u8 x.body 0 = 0 ∧ (x.epoch ≠ s.acm.epoch ∨ be32 x.body 4 ≤ (s.acm.sess[x.session]).helloCount)) →
      ∃ t, exec .helloNew s = .next t ∧ t = { s with acm := t.acm, out := t.out } ∧ t.acm.sess = s.acm.sess) ∧
    ((u8 x.body 0 = 1 ∧ (x.epoch ≠ s.acm.epoch ∨ be32 x.body 4 ≤ (s.acm.sess[x.session]).helloCount ∨
        (s.acm.sess[x.session]).open_ = false)) →
      ∃ t, exec .helloResume s = .next t ∧ t = { s with acm := t.acm, out := t.out } ∧ t.acm.sess = s.acm.sess) ∧
    ((u8 x.body 0 = 2 ∧ (x.epoch ≠ s.acm.epoch ∨ be32 x.body 4 ≤ (s.acm.sess[x.session]).helloCount ∨
        s.acm.commKey[x.session] = false)) →
      ∃ t, exec .helloNewCommissioning s = .next t ∧ t = { s with acm := t.acm, out := t.out } ∧ t.acm.sess = s.acm.sess))

/-- BYE, UNKNOWN_REQUEST, EVENT_ACK and EVENT_RETRANSMIT. -/
def Obligations.ByeAndEvents : Prop :=
  (∀ (s : State) (m : Msg), s.chosen = some m → m.typ = typBye → m.body = [] →
    ∃ t, exec .bye s = .next t ∧ t = { s with acm := t.acm, cas := t.cas, out := t.out } ∧
      (t.acm.sess[m.session]).open_ = false ∧ (t.acm.sess[m.session]).lastExec = m.seq ∧
      (t.acm.sess[m.session]).cache = [] ∧ (t.acm.sess[m.session]).held = [] ∧ (t.acm.sess[m.session]).events = [] ∧
      (∀ x ∈ t.acm.accepted, x.session ≠ m.session) ∧
      (∀ q : SessIx, q ≠ m.session → t.acm.sess[q] = s.acm.sess[q])) ∧
  (∀ (s : State) (m : Msg), s.chosen = some m → knownTypes.contains m.typ = false →
    ∃ t, exec .unknownRequest s = .next t ∧ t = { s with acm := t.acm, cas := t.cas, out := t.out } ∧
      Answered s t m .errParam []) ∧
  (∀ (s : State) (q : SessIx) (n : Nat) (rest : List (SessIx × Nat)), s.acm.acks = (q, n) :: rest →
    ∃ t, exec .eventAck s = .next t ∧ t = { s with acm := t.acm } ∧ t.acm.acks = rest ∧
      ((s.acm.sess[q]).events.any (fun e => e.seq == n && e.due.isSome) = true →
        (t.acm.sess[q]).events = (s.acm.sess[q]).events.filter (fun e => Nat.blt n e.seq)) ∧
      ((s.acm.sess[q]).events.any (fun e => e.seq == n && e.due.isSome) = false → t.acm.sess = s.acm.sess) ∧
      t.acm.accepted = s.acm.accepted) ∧
  (∀ (s : State) (t0 : Nat) (q : SessIx) (seq : Nat) (e : QEvent) (d : Nat),
    (s.acm.sess[q]).events.find? (fun e => e.seq == seq) = some e → e.due = some d → d ≤ max s.now t0 → s.dev ≠ .boot →
    (∀ f ∈ (s.acm.sess[q]).events, f.before e = false) →
    ∃ t, exec (.eventRetransmit t0 q seq) s = .next t ∧ t = { s with now := max s.now t0, acm := t.acm, out := t.out } ∧
      (t.acm.sess[q]).events = (s.acm.sess[q]).events.map (fun f =>
        if f.seq = e.seq then { f with due := some (max s.now t0 + s.pN P.SYS_ACM_RETX_MS * 1000000) } else f) ∧
      (t.acm.sess[q]).next = (s.acm.sess[q]).next ∧ (∀ r : SessIx, r ≠ q → t.acm.sess[r] = s.acm.sess[r]) ∧
      (∀ a, (s.acm.sess[q]).addr = some a → s.reachable (s.viaOut a.via) a.ip = true →
        ∃ b g, t.out = .acm b (s.pN P.SYS_ACM_PORT) g :: s.out ∧ be32 g 8 = e.seq % 2 ^ 32))

/-- R148 over the ten commands that PARAM_SET messages fall under: a refusal leaves both banks, the digests and everything but
the sessions, the cascade's routes and what leaves the device as they were; an acceptance leaves the banks of the state with all
entries written. -/
def Obligations.ParamSetAllOrNone : Prop :=
  (∀ (c : Instr) (r : SetRow) (s : State) (m : Msg) (st : Status) (i : Nat), (c, r) ∈ setRows → s.chosen = some m →
    m.typ = typParamSet → rowOf m.body = r → s.setAll m.session m.body = .error (st, i) →
    ∃ t, exec c s = .next t ∧ t = { s with acm := t.acm, cas := t.cas, out := t.out } ∧
      Answered s t m st (toBE 2 i ++ zeros 2 ++ toBE 8 (deviceDigest s.par.accS) ++ toBE 8 (deviceDigest s.par.accA))) ∧
  (∀ (c : Instr) (r : SetRow) (s u : State) (m : Msg) (es : List Entry), (c, r) ∈ setRows → s.chosen = some m →
    m.typ = typParamSet → rowOf m.body = r → s.setAll m.session m.body = .ok (u, es) →
    ∃ t st, exec c s = .next t ∧ t.par.active = u.par.active ∧ t.par.staged = u.par.staged ∧ t.par.accA = u.par.accA ∧
      t.par.accS = u.par.accS ∧ t.par.held = u.par.held ∧ t.par.budgetStaged = budgetOf u.par.staged ∧
      t = { s with par := t.par, acm := t.acm, eth := t.eth, em := t.em, bly := t.bly, tch := t.tch, cas := t.cas, clk := t.clk,
                   lmp := t.lmp, mem := t.mem, surf := t.surf, codec := t.codec, free := t.free, out := t.out } ∧
      ((∀ e ∈ es, e.id ≠ P.ATC_JOB) → st = .ok ∧ t.surf = s.surf ∧ t.codec = s.codec) ∧
      Answered s t m st (toBE 2 0xFFFF ++ zeros 2 ++ toBE 8 (deviceDigest u.par.accS) ++ toBE 8 (deviceDigest u.par.accA))) ∧
  (∀ (s : State) (was : Bool) (q : SessIx) (es : List Entry) (st : Status) (i : Nat),
    s.setEntries was q 0 es = .error (st, i) →
    ∃ u e, s.setEntries was q 0 (es.take i) = .ok u ∧ es[i]? = some e ∧ u.setEntry was q e = .error st)

/-- PARAM_SET and ANCHOR_SEAL on one entry. -/
def Obligations.WritesReachBanks : Prop :=
  (∀ (s u : State) (m : Msg) (e : Entry) (d : ParamDef), SetAccepted s u m .plain e → paramDef e.id = some d →
    ∃ t, exec .paramSet s = .next t ∧
      (d.cls = .tick → bankGet t.par.staged e.id e.ix = valueOf d e.value ∧ t.par.active = s.par.active ∧ t.par.accA = s.par.accA) ∧
      (d.cls = .imm ∨ d.cls = .stby → bankGet t.par.staged e.id e.ix = valueOf d e.value ∧
        bankGet t.par.active e.id e.ix = valueOf d e.value) ∧
      ∀ id ix, pkey id ix ≠ pkey e.id e.ix → bankGet t.par.staged id ix = bankGet s.par.staged id ix ∧
        bankGet t.par.active id ix = bankGet s.par.active id ix) ∧
  (∀ (s u : State) (m : Msg) (e : Entry), SetAccepted s u m .seal e →
    ∃ t, exec .anchorSeal s = .next t ∧ bankGet t.par.active P.ANC_SEAL 0 = .num 1 ∧ bankGet t.par.staged P.ANC_SEAL 0 = .num 1 ∧
      t.pB P.ANC_SEAL = true ∧ (∀ id ix, pkey id ix ≠ pkey P.ANC_SEAL 0 → bankGet t.par.active id ix = bankGet s.par.active id ix) ∧
      t = { s with par := t.par, acm := t.acm, em := t.em, bly := t.bly, tch := t.tch, cas := t.cas, out := t.out }) ∧
  (∀ (c : Instr) (r : SetRow) (s : State) (m : Msg) (e : Entry) (d : ParamDef),
    (c, r) ∈ [(Instr.paramSet, SetRow.plain), (Instr.anchorSeal, SetRow.seal)] → s.chosen = some m → m.typ = typParamSet →
    rowOf m.body = r → messageEntries m.body = .ok [e] → e.id ∈ anchorParams → paramDef e.id = some d → d.ix.has e.ix = true → d.cls ≠ .ro →
    e.value.length = d.len → s.pB P.ANC_SEAL = true →
    ∃ t, exec c s = .next t ∧ t = { s with acm := t.acm, cas := t.cas, out := t.out } ∧
      Answered s t m .errAnchorLocked (toBE 2 0 ++ zeros 2 ++ toBE 8 (deviceDigest s.par.accS) ++ toBE 8 (deviceDigest s.par.accA)))

/-- EMT_FLTCLR, TCH_RELEARN, LMP_FLTCLR, LMP_LEVELS and CLK_LOCK_SETTINGS. -/
def Obligations.ClearingWrites : Prop :=
  (∀ (s u : State) (m : Msg) (e : Entry), SetAccepted s u m .fltClear e →
    ∃ t, exec .emtFltclr s = .next t ∧
      t = { s with par := t.par, acm := t.acm, em := t.em, bly := t.bly, tch := t.tch, cas := t.cas, out := t.out } ∧
      ∀ c : ChanIx,
        (bit (natBE e.value) c.1 = true → (t.em[c]).openF = false ∧ (t.em[c]).shortF = false ∧ (t.em[c]).driverF = false ∧
          (t.em[c]).winQ = [] ∧ (t.em[c]).evaluated = false) ∧
        (bit (natBE e.value) c.1 = false → (t.em[c]).openF = (s.em[c]).openF ∧ (t.em[c]).shortF = (s.em[c]).shortF ∧
          (t.em[c]).driverF = (s.em[c]).driverF)) ∧
  (∀ (s u : State) (m : Msg) (e : Entry), SetAccepted s u m .relearn e →
    ∃ t, exec .tchRelearn s = .next t ∧
      t = { s with par := t.par, acm := t.acm, em := t.em, bly := t.bly, tch := t.tch, cas := t.cas, out := t.out } ∧
      ∀ h : HeadIx, bit (natBE e.value) h.1 = true → (t.tch[h]).contacts = [] ∧ (t.tch[h]).ready = [] ∧
        (t.tch[h]).stage = .restart ∧ (t.tch[h]).announce = true) ∧
  (∀ (s u : State) (m : Msg) (e : Entry), SetAccepted s u m .lampClear e →
    ∃ t, exec .lmpFltclr s = .next t ∧
      t = { s with par := t.par, acm := t.acm, em := t.em, bly := t.bly, tch := t.tch, cas := t.cas, lmp := t.lmp, out := t.out } ∧
      ∀ n : Fin 256,
        (bit (u8 e.value (n.1 / 8)) (n.1 % 8) = true → (t.lmp.lamps[n]).fault = 0) ∧
        (bit (u8 e.value (n.1 / 8)) (n.1 % 8) = false → t.lmp.lamps[n] = s.lmp.lamps[n])) ∧
  (∀ (s u : State) (m : Msg) (e : Entry), SetAccepted s u m .levels e →
    ∃ t, exec .lmpLevels s = .next t ∧
      t = { s with par := t.par, acm := t.acm, em := t.em, bly := t.bly, tch := t.tch, cas := t.cas, lmp := t.lmp, out := t.out } ∧
      t.lmp.back = some e.value ∧ t.lmp.front = s.lmp.front ∧ t.lmp.lamps = s.lmp.lamps) ∧
  (∀ (s u : State) (m : Msg) (e : Entry), SetAccepted s u m .lock e → e.ix < 20 →
    ∃ t, exec .clkLockSettings s = .next t ∧
      t = { s with par := t.par, acm := t.acm, em := t.em, bly := t.bly, tch := t.tch, cas := t.cas, clk := t.clk, out := t.out } ∧
      (t.clk.pll[(Fin.ofNat 20 e.ix : PllIx)]).inRun = 0 ∧ (t.clk.pll[(Fin.ofNat 20 e.ix : PllIx)]).outRun = 0 ∧
      (t.clk.pll[(Fin.ofNat 20 e.ix : PllIx)]).st = (s.clk.pll[(Fin.ofNat 20 e.ix : PllIx)]).st ∧
      ∀ k : PllIx, k ≠ Fin.ofNat 20 e.ix → t.clk.pll[k] = s.clk.pll[k])

/-- COMPRESS, DECOMPRESS and VERIFY. -/
def Obligations.CodecJobsReport : Prop :=
  ∀ (c : Instr) (r : SetRow) (s u : State) (m : Msg) (e : Entry),
    (c, r) ∈ [(Instr.compress, SetRow.job 0), (Instr.decompress, SetRow.job 1), (Instr.verify, SetRow.job 2)] →
    SetAccepted s u m r e →
    ∃ t j, exec c s = .next t ∧ jobOf e.value = some j ∧
      (let w := ({ u with par := { u.par with budgetStaged := budgetOf u.par.staged } } : State).settle.runJob e.value m.seq
       t.mem = w.1.mem ∧ t.surf = w.1.surf ∧ t.codec = w.1.codec ∧ le16 t.codec.result 0 = w.2.code ∧
       Answered s t m w.2 (toBE 2 0xFFFF ++ zeros 2 ++ toBE 8 (deviceDigest u.par.accS) ++ toBE 8 (deviceDigest u.par.accA))) ∧
      t = { s with free := t.free, par := t.par, acm := t.acm, mem := t.mem, surf := t.surf, codec := t.codec, em := t.em,
                   bly := t.bly, tch := t.tch, cas := t.cas, out := t.out } ∧
      t.codec.jobs = inc 64 s.codec.jobs ∧ le32 t.codec.result 4 = m.seq % 2 ^ 32 ∧
      t.par.active = u.par.active ∧ t.par.staged = u.par.staged ∧
      (c = .verify → ∀ a, memGet t.mem.normal a = memGet s.mem.normal a)

/-- PARAM_GET of one entry. -/
def Obligations.ParamGetAnswers : Prop :=
  (∀ (s : State) (m : Msg) (d : ParamDef), s.chosen = some m → m.typ = typParamGet → m.body.length = 12 → be16 m.body 0 = 1 →
    paramDef (be16 m.body 4) = some d → d.ix.has (be16 m.body 6) = true →
    (entryBytes d.id (be16 m.body 6) (s.readParam d (be16 m.body 6) (bit (u8 m.body 8) 0))).length ≤ 8188 →
    ∃ t, exec .paramGet s = .next t ∧ t = { s with acm := t.acm, cas := t.cas, out := t.out } ∧
      Answered s t m .ok (toBE 2 1 ++ zeros 2 ++ entryBytes d.id (be16 m.body 6) (valueBytes d
        (if d.cls = .ro then s.readRo d.id (be16 m.body 6)
         else bankGet (if bit (u8 m.body 8) 0 = true then s.par.staged else s.par.active) d.id (be16 m.body 6))))) ∧
  (∀ (s : State) (m : Msg), s.chosen = some m → m.typ = typParamGet → m.body.length = 12 → be16 m.body 0 = 1 →
    (paramDef (be16 m.body 4) = none ∨ ∃ d, paramDef (be16 m.body 4) = some d ∧ d.ix.has (be16 m.body 6) = false) →
    ∃ t, exec .paramGet s = .next t ∧ t = { s with acm := t.acm, cas := t.cas, out := t.out } ∧
      Answered s t m .errParam (toBE 2 0))

/-- STAGE_COMMIT and STAGE_ABORT on a device that commits alone. -/
def Obligations.CommitAndAbort : Prop :=
  (∀ (s : State) (m : Msg) (n : Nat), s.chosen = some m → m.typ = typCommit → m.body.length = 8 →
    n = (if be64 m.body 0 = 0 then s.tick.count + 2 else be64 m.body 0) → s.commitState = false → s.cas.role = .alone →
    s.tick.count + 2 ≤ n → n ≤ s.tick.count + 65536 → s.commitRefusal s.par.staged = none →
    ∃ t, exec .stageCommit s = .next t ∧ t.tick = { s.tick with commitAt := some n } ∧ t.par = s.par ∧
      t = { s with tick := t.tick, acm := t.acm, col := t.col, stores := t.stores, cas := t.cas, out := t.out } ∧
      Answered s t m .ok (toBE 8 n ++ toBE 8 (deviceDigest s.par.accS) ++ toBE 8 s.par.budgetStaged)) ∧
  (∀ (s : State) (m : Msg), s.chosen = some m → m.typ = typCommit → m.body.length = 8 → s.cas.role = .alone →
    (s.tick.commitAt ≠ none → ∃ t, exec .stageCommit s = .next t ∧ t.tick = s.tick ∧ t.par = s.par ∧
      Answered s t m .errState []) ∧
    (s.commitState = false → be64 m.body 0 ≠ 0 → be64 m.body 0 < s.tick.count + 2 →
      ∃ t, exec .stageCommit s = .next t ∧ t.tick = s.tick ∧ t.par = s.par ∧ Answered s t m .errCommitLate []) ∧
    (s.commitState = false → s.tick.count + 65536 < be64 m.body 0 →
      ∃ t, exec .stageCommit s = .next t ∧ t.tick = s.tick ∧ t.par = s.par ∧ Answered s t m .errRange [])) ∧
  (∀ (s : State) (m : Msg) (n : Nat), s.chosen = some m → m.typ = typAbort → m.body = [] → s.cas.role = .alone →
    s.cas.mine = false → s.tick.commitAt = some n →
    (s.tick.count + 2 ≤ n → ∃ t, exec .stageAbort s = .next t ∧ t.tick = { s.tick with commitAt := none } ∧
      t.par.staged = s.par.active ∧ t.par.active = s.par.active ∧ t.par.accS = s.par.accA ∧ Answered s t m .ok [] ∧
      t = { s with par := t.par, tick := t.tick, acm := t.acm, col := t.col, stores := t.stores, cas := t.cas, out := t.out }) ∧
    (n ≤ s.tick.count + 1 → ∃ t, exec .stageAbort s = .next t ∧ t.tick = s.tick ∧ t.par = s.par ∧
      Answered s t m .errCommitLate [])) ∧
  (∀ (s : State) (m : Msg), s.chosen = some m → m.typ = typAbort → m.body = [] → s.tick.commitAt = none →
    ∃ t, exec .stageAbort s = .next t ∧ t.par.staged = s.par.active ∧ t.par.active = s.par.active ∧
      t.par.accS = s.par.accA ∧ t.tick = s.tick ∧ Answered s t m .ok [] ∧
      t = { s with par := t.par, acm := t.acm, cas := t.cas, out := t.out })

/-- SURFACE_ALLOC: the index and the generation (05 R279). -/
def Obligations.AllocTakesLowestIndex : Prop :=
  ∀ (s : State) (m : Msg) (k : SurfKind) (ix off : Nat), s.chosen = some m → m.typ = typAlloc → s.dev ≠ .hold →
    AllocForm m.body k → LowestFree s ix →
    s.place (bit (u8 m.body 1) 0) (surfBytes k (be16 m.body 2) (be16 m.body 4) (be32 m.body 8) (be32 m.body 12)) = some off →
    ∃ t x, exec .surfaceAlloc s = .next t ∧ assocGet ix t.surf.tbl = some x ∧ x.off = off ∧ x.kind = k ∧
      ((assocGet ix s.surf.gens).getD 0 < 255 → x.gen = (assocGet ix s.surf.gens).getD 0 + 1) ∧
      ((assocGet ix s.surf.gens).getD 0 = 255 → x.gen = 1) ∧
      assocGet ix t.surf.gens = some x.gen ∧
      (∀ j, j ≠ ix → assocGet j t.surf.tbl = assocGet j s.surf.tbl ∧ assocGet j t.surf.gens = assocGet j s.surf.gens) ∧
      t = { s with surf := { s.surf with tbl := t.surf.tbl, gens := t.surf.gens }, acm := t.acm, cas := t.cas, out := t.out } ∧
      ∃ planes, planes.length = 24 ∧ Answered s t m .ok
        (toBE 4 (x.gen * 16777216 + ix) ++ toBE 4 x.size ++ planes)

/-- Lowest-offset first fit on 4 KB boundaries (05 R971), for the normal region and for the mirror pool. -/
def Obligations.AllocationsDoNotOverlap : Prop :=
  ∀ (s : State) (pool : Bool) (n : Nat),
    let limit := if pool then s.poolSize else s.capacity
    let fits (o : Nat) : Prop := o + n ≤ limit ∧ ∀ a k, (a, k) ∈ s.allocs pool → a + k ≤ o ∨ o + n ≤ a
    (∀ off, s.place pool n = some off → off % 4096 = 0 ∧ fits off ∧ ∀ o, o % 4096 = 0 → o < off → ¬ fits o) ∧
    (s.place pool n = none → ∀ o, o % 4096 = 0 → ¬ fits o)

/-- SURFACE_FREE, SURFACE_STATUS, SURFACE_WRITE OPEN and ABORT, and a CLOSE that meets an uncorrectable error, whose payload is the
model's choice (assumption 100). -/
def Obligations.SurfacesChangeState : Prop :=
  (∀ (s : State) (m : Msg) (ix : Nat) (x : Surf), s.chosen = some m → m.typ = typFree → m.body.length = 4 →
    s.surface (be32 m.body 0) = some (ix, x) → s.inRing (be32 m.body 0) = false →
    ∃ t, exec .surfaceFree s = .next t ∧
      t = { s with surf := { s.surf with tbl := t.surf.tbl }, acm := t.acm, cas := t.cas, out := t.out } ∧
      (x.st = .ready ∨ x.st = .filling → t.surf.tbl = assocDel ix s.surf.tbl ∧ Answered s t m .ok [0#8, 0#8, 0#8, 0#8]) ∧
      (x.st = .inUse → t.surf.tbl = assocSet ix { x with st := .freePending } s.surf.tbl ∧
        Answered s t m .ok [4#8, 0#8, 0#8, 0#8]) ∧
      (x.st = .freePending → t.surf.tbl = s.surf.tbl ∧ Answered s t m .ok [4#8, 0#8, 0#8, 0#8])) ∧
  (∀ (s : State) (m : Msg) (ix : Nat) (x : Surf), s.chosen = some m → m.typ = typStatus → m.body.length = 4 →
    s.surface (be32 m.body 0) = some (ix, x) →
    ∃ t flags, exec .surfaceStatus s = .next t ∧ t = { s with acm := t.acm, cas := t.cas, out := t.out } ∧
      bit flags 0 = x.valid ∧ bit flags 1 = x.pool ∧ bit flags 2 = x.writer.isSome ∧ bit flags 3 = s.inRing (be32 m.body 0) ∧
      Answered s t m .ok ([byteOf x.st.code, byteOf flags] ++ zeros 2 ++ toBE 4 x.size ++
        toBE 4 ((x.writer.map (·.writeId)).getD 0) ++ toBE 4 x.uncorr ++ toBE 8 x.lastTick)) ∧
  (∀ (s : State) (m : Msg) (ix : Nat) (x : Surf), s.chosen = some m → m.typ = typWrite → s.dev ≠ .hold →
    m.body.length = 16 → u8 m.body 4 = 0 → s.surface (be32 m.body 0) = some (ix, x) →
    (x.st = .ready → s.inRing (be32 m.body 0) = false → OpenFits s m.session x (be32 m.body 8) (be32 m.body 12) →
      ∃ t, exec .surfaceWriteOpen s = .next t ∧
        t.surf = { s.surf with tbl := assocSet ix { x with
          st := .filling, valid := false, writer := some ⟨m.session, m.seq, be32 m.body 8, be32 m.body 12⟩ } s.surf.tbl } ∧
        t = { s with surf := t.surf, acm := t.acm, cas := t.cas, out := t.out } ∧
        Answered s t m .ok (zeros 8)) ∧
    (x.st ≠ .ready ∨ s.inRing (be32 m.body 0) = true →
      ∃ t, exec .surfaceWriteOpen s = .next t ∧ t.surf.tbl = s.surf.tbl ∧
        (m.session.1, m.seq, be32 m.body 0) ∈ t.surf.refused ∧
        t = { s with acm := t.acm, cas := t.cas, out := t.out, surf := { s.surf with refused := t.surf.refused } } ∧
        Answered s t m .errSurfaceBusy [])) ∧
  (∀ (s : State) (m : Msg) (ix : Nat) (x : Surf) (w : Transfer), s.chosen = some m → m.typ = typWrite → s.dev ≠ .hold →
    m.body.length = 16 → u8 m.body 4 = 2 → be32 m.body 12 = 0 → s.surface (be32 m.body 0) = some (ix, x) →
    x.writer = some w → w.session = m.session → w.writeId = be32 m.body 8 →
    ∃ t, exec .surfaceWriteAbort s = .next t ∧
      t.surf = { s.surf with tbl := assocSet ix { x with st := .ready, valid := false, writer := none } s.surf.tbl } ∧
      t = { s with surf := t.surf, acm := t.acm, cas := t.cas, out := t.out } ∧
      Answered s t m .ok (zeros 8)) ∧
  (∀ (s u : State) (m : Msg) (ix : Nat) (x : Surf) (w : Transfer) (d : Bytes) (bad : Nat), s.chosen = some m →
    m.typ = typWrite → s.dev ≠ .hold → m.body.length = 16 → u8 m.body 4 = 1 → s.surface (be32 m.body 0) = some (ix, x) →
    x.writer = some w → w.session = m.session → w.writeId = be32 m.body 8 →
    s.readMem x.pool (x.off + w.off) w.len .supervisor = (u, d, bad) → bad ≠ 0 →
    ∃ t, exec .surfaceWriteClose s = .next t ∧ t = { u with acm := t.acm, cas := t.cas, out := t.out } ∧
      (assocGet ix t.surf.tbl).map (fun y => (y.st, y.valid, y.writer)) = some (x.st, x.valid, some w) ∧
      Answered s t m .errUncorr (zeros 8)) ∧
  (∀ (c : Instr) (s : State) (m : Msg), s.chosen = some m → s.dev ≠ .hold → s.surface (be32 m.body 0) = none →
    (c, m.typ, m.body.length) ∈ [(Instr.surfaceFree, typFree, 4), (Instr.surfaceStatus, typStatus, 4)] ∨
      (m.typ = typWrite ∧ m.body.length = 16 ∧
        (c, u8 m.body 4) ∈ [(Instr.surfaceWriteOpen, 0), (Instr.surfaceWriteClose, 1), (Instr.surfaceWriteAbort, 2)]) →
    ∃ t, exec c s = .next t ∧ t = { s with acm := t.acm, cas := t.cas, out := t.out } ∧ Answered s t m .errStaleHandle [])

/-- SURFACE_WRITE CLOSE (05 R304). -/
def Obligations.CloseChecksTheWindow : Prop :=
  ∀ (s u : State) (m : Msg) (ix : Nat) (x : Surf) (w : Transfer) (d : Bytes), s.chosen = some m → m.typ = typWrite →
    s.dev ≠ .hold → m.body.length = 16 → u8 m.body 4 = 1 → s.surface (be32 m.body 0) = some (ix, x) → x.writer = some w →
    w.session = m.session → w.writeId = be32 m.body 8 →
    s.readMem x.pool (x.off + w.off) w.len .supervisor = (u, d, 0) →
    ∃ t, exec .surfaceWriteClose s = .next t ∧
      t = { s with free := t.free, mem := t.mem, surf := t.surf, acm := t.acm, cas := t.cas, out := t.out } ∧
      (∀ j, j ≠ ix → assocGet j t.surf.tbl = assocGet j s.surf.tbl) ∧
      (crc32 d = be32 m.body 12 →
        assocGet ix t.surf.tbl = some { x with st := .ready, valid := true, writer := none } ∧
        Answered s t m .ok (zeros 4 ++ toBE 4 (crc32 d))) ∧
      (crc32 d ≠ be32 m.body 12 → assocGet ix t.surf.tbl = some x ∧
        Answered s t m .ok ([1#8, 0#8, 0#8, 0#8] ++ toBE 4 (crc32 d)))

/-- SURFACE_DATAGRAM and SURFACE_CLEAR_DONE. -/
def Obligations.SurfaceDataLands : Prop :=
  let states (s : State) (j : Nat) := (assocGet j s.surf.tbl).map (fun y => (y.st, y.valid, y.writer))
  (∀ (s u : State) (p : PortIx) (ip : Nat) (d : Bytes), s.takeFrame p isSurface = some (.surface ip d, u) →
    (∀ r, u.routeOf d = some r →
      exec (.surfaceDatagram p) s = .next { s with eth := u.eth, out := (s.travSend kindSurface r.device d).out }) ∧
    (u.routeOf d = none → (∀ q, ¬ SurfaceHeader d q) → exec (.surfaceDatagram p) s = .next { s with eth := u.eth }) ∧
    (u.routeOf d = none → ∀ q : SessIx, SurfaceHeader d q →
      (∀ ix x w, SurfaceAuthentic s d q → s.surf.refused.contains (q.1, be32 d 8, be32 d 4) = false →
        SurfaceTaken s d q ix x w →
        ∃ t, exec (.surfaceDatagram p) s = .next t ∧
          t = { s with eth := u.eth, free := t.free, mem := t.mem, surf := t.surf, acm := t.acm, out := t.out } ∧
          Landed s t x.pool (x.off + w.off + be32 d 12) (slice d 24 (be16 d 16)) ∧
          t.surf.drops = s.surf.drops ∧ t.surf.busy = s.surf.busy ∧ ∀ j, states t j = states s j) ∧
      (SurfaceAuthentic s d q → s.surf.refused.contains (q.1, be32 d 8, be32 d 4) = true →
        exec (.surfaceDatagram p) s = .next { s with
          eth := u.eth, surf := { s.surf with busy := vmod s.surf.busy q (inc 32 ·) } }) ∧
      (¬ SurfaceAuthentic s d q ∨ (s.surf.refused.contains (q.1, be32 d 8, be32 d 4) = false ∧
          ∀ ix x w, ¬ SurfaceTaken s d q ix x w) →
        exec (.surfaceDatagram p) s = .next { s with
          eth := u.eth, surf := { s.surf with drops := vmod s.surf.drops q (inc 32 ·) } }))) ∧
  (∀ (s : State) (ix : Nat) (x : Surf), s.dev ≠ .boot → assocGet ix s.surf.tbl = some x → x.clearing = true →
    ∃ t y, exec (.surfaceClearDone ix) s = .next t ∧
      t = { s with free := t.free, mem := t.mem, surf := t.surf, acm := t.acm, out := t.out } ∧
      Landed s t x.pool x.off (zeros x.size) ∧ assocGet ix t.surf.tbl = some y ∧
      y = { x with st := .ready, valid := true, clearing := false, uncorr := y.uncorr } ∧
      ∀ j, j ≠ ix → states t j = states s j)

/-- FRAME_PLAN. -/
def Obligations.PlansAreTaken : Prop :=
  ∀ (s : State) (m : Msg) (h : HeadIx) (src : List Nat) (edge : Nat), s.chosen = some m → m.typ = typPlan →
    s.dev ≠ .hold → m.body.length = 80 → u8 m.body 0 = h.1 → bits (u8 m.body 1) 7 1 = 0 → be16 m.body 2 = 0 →
    (bit (u8 m.body 1) 0 = false → be32 m.body 4 = 0) → be64 m.body 8 ≤ s.tick.count + 65536 →
    src = (List.range 16).map (fun j => be32 m.body (16 + 4 * j)) →
    edge = (if be64 m.body 8 = 0 then s.tick.count + 1 else be64 m.body 8) →
    (be64 m.body 8 = 0 ∨ s.tick.count < be64 m.body 8 → 4 ≤ bkN (s.bankAt edge) P.CMP_CLONE h.1 →
      (∀ j < 16, (layerOf (bkT (s.bankAt edge) P.CMP_LAYER (16 * h.1 + j))).enable = true → src.getD j 0 ≠ 0 →
        s.sourceRefusal (s.bankAt edge) (layerOf (bkT (s.bankAt edge) P.CMP_LAYER (16 * h.1 + j))) (src.getD j 0) = none) →
      (bit (u8 m.body 1) 0 = true → s.writebackRefusal (s.bankAt edge) h.1 (be32 m.body 4) src = none) →
      ∃ t, exec .framePlan s = .next t ∧ t = { s with comp := t.comp, acm := t.acm, cas := t.cas, out := t.out } ∧
        t.comp[h] = { s.comp[h] with pend := some ⟨bit (u8 m.body 1) 0, be32 m.body 4, be64 m.body 8, edge, src⟩ } ∧
        (∀ k : HeadIx, k ≠ h → t.comp[k] = s.comp[k]) ∧ Answered s t m .ok (toBE 8 edge ++ [0xFF#8, 0#8, 0#8, 0#8])) ∧
    (be64 m.body 8 ≠ 0 → be64 m.body 8 ≤ s.tick.count →
      ∃ t, exec .framePlan s = .next t ∧ t = { s with acm := t.acm, cas := t.cas, out := t.out } ∧
        Answered s t m .errCommitLate (toBE 8 0 ++ [0xFF#8, 0#8, 0#8, 0#8])) ∧
    (be64 m.body 8 = 0 ∨ s.tick.count < be64 m.body 8 → bkN (s.bankAt edge) P.CMP_CLONE h.1 < 4 →
      ∃ t, exec .framePlan s = .next t ∧ t = { s with acm := t.acm, cas := t.cas, out := t.out } ∧
        Answered s t m .errState (toBE 8 0 ++ [0xFF#8, 0#8, 0#8, 0#8]))

/-- The five STATE_REQUEST rows; the reply carries the state before and the state after. -/
def Obligations.StateTransitions : Prop :=
  let same (s t : State) : Prop := t = { s with acm := t.acm, cas := t.cas, out := t.out }
  let shift (s t : State) : Prop := t = { s with
    dev := t.dev, headsRun := t.headsRun, headsStop := t.headsStop, anc := t.anc, flt := t.flt, em := t.em, tch := t.tch,
    bly := t.bly, acm := t.acm, cas := t.cas, out := t.out }
  let codes (s t : State) : Bytes := [byteOf s.dev.code, byteOf t.dev.code]
  ∀ (s : State) (m : Msg), s.chosen = some m → m.typ = typState → m.body.length = 1 →
    (u8 m.body 0 = 0 → ∃ t, exec .stateRequestQuery s = .next t ∧ same s t ∧ Answered s t m .ok (codes s s)) ∧
    (u8 m.body 0 = 4 ∨ 5 < u8 m.body 0 →
      ∃ t, exec .stateRequestQuery s = .next t ∧ same s t ∧ Answered s t m .errRange (codes s s)) ∧
    (∀ (c : Instr) (k : Nat), (c, k) ∈ [(Instr.stateRequestStandby, 1), (Instr.stateRequestArmed, 2),
        (Instr.stateRequestLit, 3), (Instr.stateRequestSafe, 5)] → u8 m.body 0 = k →
      (k = s.dev.code → ∃ t, exec c s = .next t ∧ same s t ∧ Answered s t m .ok (codes s s)) ∧
      (s.dev = .hold ∨ (s.dev = .standby ∧ k = 3) ∨ (s.dev = .safe ∧ (k = 2 ∨ k = 3)) →
        ∃ t, exec c s = .next t ∧ same s t ∧ Answered s t m .errState (codes s s))) ∧
    (u8 m.body 0 = 2 → s.dev = .standby →
      (s.pB P.ANC_SEAL = false → ∃ t, exec .stateRequestArmed s = .next t ∧ same s t ∧ Answered s t m .errState (codes s s)) ∧
      (s.pB P.ANC_SEAL = true → s.admits s.par.active = false ∨ s.composeFits s.par.active = false →
        ∃ t, exec .stateRequestArmed s = .next t ∧ same s t ∧ Answered s t m .errBudget (codes s s)) ∧
      (s.pB P.ANC_SEAL = true → s.admits s.par.active = true → s.composeFits s.par.active = true →
        ∃ t, exec .stateRequestArmed s = .next t ∧ shift s t ∧ t.dev = .armed ∧ t.headsRun = true ∧ t.anc = s.anc ∧
          t.flt = s.flt ∧ Answered s t m .ok (codes s t))) ∧
    (u8 m.body 0 = 3 → s.dev = .armed → s.anc.pinA = true → s.anc.pinB = true →
      ∃ t, exec .stateRequestLit s = .next t ∧ shift s t ∧ t.dev = .lit ∧ t.headsRun = s.headsRun ∧ t.anc = s.anc ∧
        t.flt = s.flt ∧ Answered s t m .ok (codes s t)) ∧
    (u8 m.body 0 = 3 → s.dev = .armed → s.anc.pinA = false ∨ s.anc.pinB = false →
      ∃ t, exec .stateRequestLit s = .next t ∧ same s t ∧ Answered s t m .ok (codes s s)) ∧
    (u8 m.body 0 = 2 → s.dev = .lit →
      ∃ t, exec .stateRequestArmed s = .next t ∧ shift s t ∧ t.dev = .armed ∧ t.headsRun = s.headsRun ∧
        t.headsStop = s.headsStop ∧ t.anc = s.anc ∧ t.flt = s.flt ∧ (∀ c : ChanIx, (t.em[c]).en = none) ∧
        Answered s t m .ok (codes s t)) ∧
    (u8 m.body 0 = 1 → s.dev = .armed ∨ s.dev = .lit →
      ∃ t, exec .stateRequestStandby s = .next t ∧ shift s t ∧ t.dev = .standby ∧ t.headsRun = false ∧ t.headsStop = true ∧
        t.anc = s.anc ∧ t.flt = s.flt ∧ (∀ c : ChanIx, (t.em[c]).en = none) ∧ Answered s t m .ok (codes s t)) ∧
    (u8 m.body 0 = 5 → s.dev = .standby ∨ s.dev = .armed ∨ s.dev = .lit →
      ∃ t, exec .stateRequestSafe s = .next t ∧ shift s t ∧ t.dev = .safe ∧ t.flt.safeCause = causeHost ∧
        t.flt.seq = s.flt.seq + 1 ∧ t.anc = s.anc ∧ (∀ c : ChanIx, (t.em[c]).en = none) ∧ Answered s t m .ok (codes s t)) ∧
    (u8 m.body 0 = 1 → s.dev = .safe →
      (s.mayClear = false →
        ∃ t, exec .stateRequestStandby s = .next t ∧ same s t ∧ Answered s t m .errState (codes s s)) ∧
      (s.mayClear = true →
        ∃ t, exec .stateRequestStandby s = .next t ∧ shift s t ∧ t.dev = .standby ∧ t.headsStop = true ∧
          t.flt.safeCause = 0 ∧ t.flt.seq = s.flt.seq + 1 ∧ t.anc.discrepancy = false ∧ t.anc.power = false ∧
          t.anc.halt = false ∧ t.anc.pinA = s.anc.pinA ∧ t.anc.pinB = s.anc.pinB ∧
          (∀ c : ChanIx, (t.em[c]).openF = (s.em[c]).openF ∧ (t.em[c]).shortF = (s.em[c]).shortF) ∧
          Answered s t m .ok (codes s t)))

/-- TRACE_ARM with its three OPs, and TRACE_READ. -/
def Obligations.TracesCapture : Prop :=
  (∀ (c : Instr) (force : Bool) (s : State) (m : Msg), (c, force) ∈ [(Instr.traceArm, false), (Instr.traceForce, true)] →
    s.chosen = some m → m.typ = typTraceArm → m.body.length = 44 → u8 m.body 0 = (if force then 2 else 1) →
    armOk m.body = true → ((assocGet traceKey s.surf.extra).isSome = true ∨ (s.place true traceBytes).isSome = true) →
    ∃ t, exec c s = .next t ∧
      t = { s with surf := { s.surf with extra := t.surf.extra }, bly := { s.bly with trace := t.bly.trace }, acm := t.acm,
                   cas := t.cas, out := t.out } ∧
      (assocGet traceKey t.surf.extra).isSome = true ∧
      ((assocGet traceKey s.surf.extra).isSome = true → t.surf.extra = s.surf.extra) ∧
      t.bly.trace.st = (if force then .triggered else .armed) ∧ t.bly.trace.trig = u8 m.body 1 ∧
      t.bly.trace.pre = be16 m.body 2 ∧ t.bly.trace.trigCh = u8 m.body 4 ∧
      (force = true → t.bly.trace.trigBase = s.bly.base ∧ t.bly.trace.trigTick = s.tick.count) ∧
      (∀ k : Fin 8, (t.bly.trace.ch[k]).pre = [] ∧ (t.bly.trace.ch[k]).post = []) ∧ Answered s t m .ok []) ∧
  (∀ (s : State) (m : Msg), s.chosen = some m → m.typ = typTraceArm → m.body.length = 44 → u8 m.body 0 = 0 →
    ∃ t, exec .traceRelease s = .next t ∧
      t = { s with surf := { s.surf with extra := assocDel traceKey s.surf.extra }, bly := { s.bly with trace := Trace.reset },
                   acm := t.acm, cas := t.cas, out := t.out } ∧
      Answered s t m .ok []) ∧
  (∀ (s : State) (m : Msg) (k : Fin 8) (lo : Nat) (l : List Int), s.chosen = some m → m.typ = typTraceRead →
    m.body.length = 6 → u8 m.body 0 = k.1 → s.bly.trace.samples k = (lo, l) → 1 ≤ be16 m.body 4 → be16 m.body 4 ≤ 2000 →
    lo ≤ be16 m.body 2 → be16 m.body 2 + be16 m.body 4 ≤ lo + l.length →
    ∃ t, exec .traceRead s = .next t ∧ t = { s with acm := t.acm, cas := t.cas, out := t.out } ∧
      Answered s t m .ok ([byteOf (traceCode s.bly.trace.st), byteOf k.1] ++ toBE 2 (be16 m.body 4) ++ zeros 4 ++
        toBE 8 s.bly.trace.trigBase ++ toBE 8 s.bly.trace.trigTick ++
        ((l.drop (be16 m.body 2 - lo)).take (be16 m.body 4)).flatMap (toSBE 4)))

/-- FW_BEGIN, FW_DATA and FW_COMMIT. -/
def Obligations.FirmwareUpdates : Prop :=
  (∀ (s : State) (m : Msg), s.chosen = some m → m.typ = typFwBegin → s.dev ≠ .hold → m.body.length = 8 → s.fw.fw = .idle →
    16 ≤ be32 m.body 0 → be32 m.body 0 ≤ 15728640 → be32 m.body 0 % 4 = 0 →
    ∃ t, exec .fwBegin s = .next t ∧ t = { s with fw := t.fw, acm := t.acm, cas := t.cas, out := t.out } ∧
      t.fw = { s.fw with fw := .opened, fwBankB := s.fw.inactiveB, fwLen := be32 m.body 0, fwDone := 0 } ∧
      Answered s t m .ok [byteOf (b2n s.fw.inactiveB), 0#8, 0#8, 0#8]) ∧
  (∀ (s : State) (m : Msg) (d : Bytes), s.chosen = some m → m.typ = typFwData → s.dev ≠ .hold → s.fw.fw = .opened →
    d = m.body.drop 4 → m.body.length = 4 + d.length → 4 ≤ d.length → d.length ≤ 4096 → d.length % 4 = 0 →
    be32 m.body 0 = s.fw.fwDone → s.fw.fwDone + d.length ≤ s.fw.fwLen →
    (d.length = 4096 ∨ s.fw.fwDone + d.length = s.fw.fwLen) →
    ∃ t, exec .fwData s = .next t ∧ t = { s with fw := t.fw, acm := t.acm, cas := t.cas, out := t.out } ∧
      t.fw = { s.fw with banks := t.fw.banks, recs := t.fw.recs, fwDone := s.fw.fwDone + d.length } ∧
      (s.fw.fwDone ≤ (s.fw.banks[bankIx s.fw.fwBankB]).length →
        slice (t.fw.banks[bankIx s.fw.fwBankB]) s.fw.fwDone d.length = d ∧
        (t.fw.banks[bankIx s.fw.fwBankB]).take s.fw.fwDone = (s.fw.banks[bankIx s.fw.fwBankB]).take s.fw.fwDone) ∧
      t.fw.banks[bankIx (!s.fw.fwBankB)] = s.fw.banks[bankIx (!s.fw.fwBankB)] ∧
      (∀ k : Fin 2, (s.fw.fwDone ≠ 0 ∨ k ≠ s.fw.spareCopy) → t.fw.recs[k] = s.fw.recs[k]) ∧
      (s.fw.fwDone = 0 → t.fw.recs[s.fw.spareCopy] = []) ∧ Answered s t m .ok []) ∧
  (∀ (s : State) (m : Msg), s.chosen = some m → m.typ = typFwCommit → s.dev ≠ .hold → m.body = [] → s.fw.fw = .opened →
    s.fw.fwDone = s.fw.fwLen →
    ∃ t, exec .fwCommit s = .next t ∧ t = { s with fw := t.fw, acm := t.acm, cas := t.cas, out := t.out } ∧
      t.fw.banks = s.fw.banks ∧
      (Config.fwSignature (s.fw.banks[bankIx s.fw.fwBankB].take s.fw.fwLen) = true →
        t.fw = { s.fw with fw := .committed, recs := t.fw.recs } ∧
        t.fw.recs[s.fw.spareCopy] = recordBytes (s.fw.commitCount + 1) s.fw.fwBankB s.fw.fwLen
          (sha384 (s.fw.banks[bankIx s.fw.fwBankB].take s.fw.fwLen)) ∧
        (∀ k : Fin 2, k ≠ s.fw.spareCopy → t.fw.recs[k] = s.fw.recs[k]) ∧
        Answered s t m .ok ([byteOf (b2n s.fw.fwBankB), 0#8, 0#8, 0#8] ++ toBE 4 (s.fw.commitCount + 1))) ∧
      (Config.fwSignature (s.fw.banks[bankIx s.fw.fwBankB].take s.fw.fwLen) = false →
        t.fw = { s.fw with fw := .idle, fwLen := 0, fwDone := 0 } ∧ Answered s t m .errRange []))

/-- ISLAND_READ, PEEK, POKE and RESET. -/
def Obligations.ReadingsPokesAndResets : Prop :=
  (∀ (s : State) (m : Msg), s.chosen = some m → m.typ = typIslandRead → m.body.length = 4 → u8 m.body 0 = 0 →
    ∃ t b, exec .islandReadSummary s = .next t ∧ t = { s with acm := t.acm, cas := t.cas, out := t.out } ∧
      Answered s t m .ok ([byteOf s.islState] ++ b) ∧
      (Config.variantNx = false → slice b 0 7 = toBE 2 s.isl.fwVersion ++ toBE 4 s.isl.fwCrc ++ [byteOf s.isl.slot]) ∧
      (Config.variantNx = true → ∀ x ∈ b, x = 0#8)) ∧
  (∀ (s : State) (m : Msg), s.chosen = some m → m.typ = typIslandRead → m.body.length = 4 → u8 m.body 0 = 1 →
    ∃ t, exec .islandReadAudit s = .next t ∧ t = { s with acm := t.acm, cas := t.cas, out := t.out } ∧
      (Config.variantNx = false → be16 m.body 2 < s.isl.audit.length → Answered s t m .ok
        (toBE 2 (min 32 (s.isl.audit.length - be16 m.body 2)) ++ ((s.isl.audit.drop (be16 m.body 2)).take 32).flatten)) ∧
      (Config.variantNx = true ∨ s.isl.audit.length ≤ be16 m.body 2 → Answered s t m .errRange [])) ∧
  (∀ (s : State) (m : Msg), s.chosen = some m → m.typ = typPeek → m.body.length = 10 → peekLenOk (be16 m.body 8) = true →
    ((s.acm.sess[m.session]).commission = true →
      ∃ t u b bad, exec .peek s = .next t ∧ State.peekBytes (be16 m.body 8) (be64 m.body 0) none s = (u, b, bad) ∧
        b.length = be16 m.body 8 ∧ Answered s t m (if bad then .errUncorr else .ok) b ∧
        t = { s with free := t.free, mem := t.mem, surf := t.surf, acm := t.acm, cas := t.cas, out := t.out } ∧
        t.mem = u.mem ∧ t.surf = u.surf ∧ t.free = u.free) ∧
    ((s.acm.sess[m.session]).commission = false →
      ∃ t, exec .peek s = .next t ∧ t = { s with acm := t.acm, cas := t.cas, out := t.out } ∧ Answered s t m .errState [])) ∧
  (∀ (s : State) (m : Msg), s.chosen = some m → m.typ = typPoke → m.body.length = 10 + be16 m.body 8 →
    peekLenOk (be16 m.body 8) = true →
    ((s.acm.sess[m.session]).commission = true → s.dev = .standby →
      ∃ t, exec .poke s = .next t ∧ Answered s t m .ok [] ∧
        (let u := State.pokeBytes (be64 m.body 0) (m.body.drop 10) s
         t.par = u.par ∧ t.internal = u.internal ∧ t.mem = u.mem) ∧ t.par = { s.par with held := t.par.held } ∧
        t = { s with par := t.par, internal := t.internal, mem := t.mem, surf := t.surf, free := t.free, em := t.em, tch := t.tch, bly := t.bly, acm := t.acm, cas := t.cas,
                     out := t.out }) ∧
    ((s.acm.sess[m.session]).commission = false ∨ s.dev ≠ .standby →
      ∃ t, exec .poke s = .next t ∧ t = { s with acm := t.acm, cas := t.cas, out := t.out } ∧ Answered s t m .errState [])) ∧
  (∀ (s : State) (m : Msg), s.chosen = some m → m.typ = typReset → m.body.length = 4 →
    (u8 m.body 0 = 0 → ∃ t, exec .resetWarm s = .next t ∧ Answered s t m .ok [] ∧
      t = { s with pwr := { s.pwr with due := some .reset, dueAt := s.now + 1000000 }, acm := t.acm, cas := t.cas, out := t.out }) ∧
    (u8 m.body 0 = 1 → (s.resetBlock (u8 m.body 1)).isSome = true →
      ∃ v t, exec .resetBlock s = .next t ∧ v = { s with acm := v.acm, cas := v.cas, out := v.out } ∧ Answered s v m .ok [] ∧
        v.resetBlock (u8 m.body 1) = some t ∧ t.acm = v.acm ∧ t.par = s.par ∧ t.dev = s.dev ∧ t.mem = s.mem ∧
        t.surf = s.surf ∧ t.tick = s.tick ∧ t.anc = s.anc) ∧
    (u8 m.body 0 = 1 → s.resetBlock (u8 m.body 1) = none →
      ∃ t, exec .resetBlock s = .next t ∧ Answered s t m .errRange [] ∧
        t = { s with acm := t.acm, cas := t.cas, out := t.out }))

/-- TICK_EDGE: the instant of the edge is the generator's own (assumption 79, DEDUCED). -/
def Obligations.TickEdgeCommits : Prop :=
  (∀ (s : State) (t0 : Nat), s.tickRuns = true → s.tick.nextEdge ≤ max s.now t0 → s.cas.adopt = none →
    ∃ t, exec (.tickEdge t0) s = .next t ∧ t.tick.count = s.tick.count + 1 ∧ t.tick.edgeAt = s.tick.nextEdge ∧
      t.now = max s.now t0 ∧ (∃ a b, t.out = a ++ .tickOut s.tick.nextEdge 10000 :: b) ∧ t.par.staged = s.par.staged ∧
      (∀ c : Copy, t.mem.cells c = s.mem.cells c) ∧ t.acm.accepted = s.acm.accepted ∧
      (s.tick.commitAt = none → t.par.active = s.par.active ∧ t.tick.commitAt = none) ∧
      (∀ n, s.tick.commitAt = some n → s.tick.count + 1 < n → s.cas.mine = false →
        t.par.active = s.par.active ∧ t.tick.commitAt = some n) ∧
      (∀ n, s.tick.commitAt = some n → n ≤ s.tick.count + 1 → s.dev ≠ .hold → s.cas.go = true →
        t.par.active = s.par.staged ∧ t.tick.commitAt = none ∧
        (s.par.recomp = none ∨ (s.tick.count + 1) % 256 ≠ 0 → t.par.accA = s.par.accS)) ∧
      (∀ n, s.tick.commitAt = some n → n ≤ s.tick.count + 1 → (s.dev = .hold ∨ s.cas.go = false) →
        t.par.active = s.par.active ∧ t.tick.commitAt = none ∧
        (s.par.recomp = none ∨ (s.tick.count + 1) % 256 ≠ 0 → t.par.accA = s.par.accA))) ∧
  (∀ (s : State) (t0 n : Nat), s.tickRuns = true → s.tick.nextEdge ≤ max s.now t0 → s.cas.adopt = some n →
    ∃ t, exec (.tickEdge t0) s = .next t ∧ t.tick.count = n ∧ t.tick.commitAt = none ∧ t.par.active = s.par.active ∧
      t.par.staged = s.par.staged) ∧
  (∀ (s : State) (t0 : Nat), s.tickRuns = false ∨ max s.now t0 < s.tick.nextEdge →
    exec (.tickEdge t0) s = .next { s with now := max s.now t0 })

/-- DIGEST_RECOMPUTE_DONE, SOLVE_DEADLINE, SOLVE_COMPLETE and DIAG_WINDOW_END. -/
def Obligations.TickTasksEnd : Prop :=
  (∀ (s : State) (r : Recomp), s.par.recomp = some r →
    ∃ t, exec .digestRecomputeDone s = .next t ∧ t = { s with par := t.par, flt := t.flt, acm := t.acm, out := t.out } ∧
      t.par = { s.par with
        recomp := none, recompAt := r.start, accA := t.par.accA, accS := t.par.accS, adopted := t.par.adopted } ∧
      (∀ i : Fin 19, r.written.contains (i.1 + 1) = true → t.par.accA[i] = s.par.accA[i] ∧ t.par.accS[i] = s.par.accS[i]) ∧
      (∀ i : Fin 19, r.written.contains (i.1 + 1) = false →
        t.par.accA[i] = s.heldDelta (i.1 + 1) ∧ t.par.accS[i] = s.stagedDelta (i.1 + 1)) ∧
      (t.par.accA = s.par.accA → t.par.accS = s.par.accS → t.flt = s.flt ∧ t.acm = s.acm ∧ t.out = s.out)) ∧
  (∀ s : State, s.par.recomp = none → exec .digestRecomputeDone s = .next s) ∧
  (∀ (s : State) (t0 : Nat), s.sol.deadline = false → s.tick.edgeAt + s.tick.period * 85 / 100 ≤ max s.now t0 →
    ∃ t, exec (.solveDeadline t0) s = .next t ∧ t.sol.deadline = true ∧
      t = { s with now := max s.now t0, sol := t.sol, tick := { s.tick with overruns := t.tick.overruns }, acm := t.acm,
                   out := t.out } ∧
      (∀ h : HeadIx, bit t.sol.held h.1 =
        ((s.head[h]).on && tracks (s.bankAt (s.tick.count + 1)) h.1 && !((s.col[h]).next matches .ok _))) ∧
      (t.sol.held = 0 → t.tick.overruns = s.tick.overruns ∧ t.acm = s.acm ∧ t.out = s.out) ∧
      (t.sol.held ≠ 0 → t.tick.overruns = inc 32 s.tick.overruns)) ∧
  (∀ (s : State) (t0 : Nat), s.sol.deadline = true ∨ max s.now t0 < s.tick.edgeAt + s.tick.period * 85 / 100 →
    exec (.solveDeadline t0) s = .next { s with now := max s.now t0 }) ∧
  (∀ (s : State) (t0 : Nat), s.sol.done = false → s.solveBare = false →
    ∃ t, exec (.solveComplete t0) s = .next t ∧ t.sol.done = true ∧
      t = { s with now := max s.now t0, sol := t.sol, tick := { s.tick with overruns := t.tick.overruns, solves := t.tick.solves },
                   col := t.col, flt := t.flt, acm := t.acm, out := t.out } ∧
      t.tick.solves.head? = some (s.tick.count, max s.now t0 - s.tick.edgeAt) ∧
      (s.sol.deadline = true ∨ s.tick.edgeAt + s.tick.period * 85 / 100 < max s.now t0 →
        t.sol.deadline = true ∧ t.col = s.col ∧ t.flt = s.flt) ∧
      (s.sol.deadline = false → max s.now t0 ≤ s.tick.edgeAt + s.tick.period * 85 / 100 →
        t.sol.deadline = false ∧ t.tick.overruns = s.tick.overruns ∧ t.acm = s.acm ∧ t.out = s.out ∧
        ∀ h : HeadIx, (t.col[h]).cur = (s.col[h]).cur ∧
          ((s.head[h]).on = true → tracks (s.bankAt (s.tick.count + 1)) h.1 = true → (t.col[h]).next ≠ .none) ∧
          ((s.head[h]).on = false ∨ tracks (s.bankAt (s.tick.count + 1)) h.1 = false → t.col[h] = s.col[h]))) ∧
  (∀ (s : State) (t0 : Nat), s.sol.done = true ∨ s.solveBare = true →
    exec (.solveComplete t0) s = .next { s with now := max s.now t0 }) ∧
  (∀ (s : State) (c : ChanIx), (s.em[c]).windowOver = true →
    exec (.diagWindowEnd c) s = .next { s with em := vmod s.em c (fun e => { e with windowOver := false, undetermined := true }) })

/-- TICK_IN_EDGE and TICK_HOLDOVER; what an edge measures is the model's reading (assumption 80, DEDUCED). -/
def Obligations.TickInFollowed : Prop :=
  let near (s : State) (now q : Nat) : Prop := (fromNearest now q s.tick.tinPeriod).natAbs * 200 ≤ tickNs s.par.active ∧
    2 * q < 2 * now + tickNs s.par.active
  let taken (s : State) (now p : Nat) : State := { s with now := now, tick := { s.tick with
    tinRise := some now, tinAccepted := some now, tinPredicted := some (now + p), tinPeriod := p } }
  let passed (s : State) (now : Nat) : State := { s with now := now, tick := { s.tick with tinRise := some now } }
  (∀ (s : State) (t0 q a : Nat), s.pN P.TCK_SOURCE = 2 → s.tick.tinPredicted = some q → s.tick.tinAccepted = some a →
    near s (max s.now t0) q →
    exec (.tickInEdge t0) s = .next (taken s (max s.now t0)
      ((max s.now t0 - a) / max 1 (divHalfUp (max s.now t0 - a) (tickNs s.par.active))))) ∧
  (∀ (s : State) (t0 r : Nat), s.pN P.TCK_SOURCE = 2 → s.tick.tinPredicted = none → s.tick.tinRise = some r →
    (((max s.now t0 : Nat) : Int) - r - tickNs s.par.active).natAbs * 200 ≤ tickNs s.par.active →
    exec (.tickInEdge t0) s = .next (taken s (max s.now t0) (max s.now t0 - r))) ∧
  (∀ (s : State) (t0 : Nat),
    (s.pN P.TCK_SOURCE ≠ 2 ∨ (∃ q, s.tick.tinPredicted = some q ∧ ¬ near s (max s.now t0) q) ∨
      (s.tick.tinPredicted = none ∧ ∀ r, s.tick.tinRise = some r →
        tickNs s.par.active < (((max s.now t0 : Nat) : Int) - r - tickNs s.par.active).natAbs * 200)) →
    exec (.tickInEdge t0) s = .next (passed s (max s.now t0))) ∧
  (∀ (s : State) (t0 : Nat), s.cas.role ≠ .slave →
    (s.pN P.TCK_SOURCE = 1 → s.ptp.state ≠ .slave →
      exec (.tickHoldover t0) s = .next { s with now := max s.now t0, tick := { s.tick with status := .holdover } }) ∧
    (s.pN P.TCK_SOURCE = 2 → (∀ a, s.tick.tinAccepted = some a → 2 * a + 3 * tickNs s.par.active ≤ 2 * max s.now t0) →
      exec (.tickHoldover t0) s = .next { s with now := max s.now t0, tick := { s.tick with
        tinPredicted := none, status := .holdover } }) ∧
    (∀ a, s.pN P.TCK_SOURCE = 2 → s.tick.tinAccepted = some a → 2 * max s.now t0 < 2 * a + 3 * tickNs s.par.active →
      exec (.tickHoldover t0) s = .next { s with now := max s.now t0 }) ∧
    (s.pN P.TCK_SOURCE = 0 ∨ (s.pN P.TCK_SOURCE = 1 ∧ s.ptp.state = .slave) →
      exec (.tickHoldover t0) s = .next { s with now := max s.now t0 })) ∧
  (∀ (s : State) (t0 : Nat), s.cas.role = .slave → exec (.tickHoldover t0) s = .next { s with now := max s.now t0 })

/-- HEAD_FRAME_START, COMPOSITOR_ROW_OUTPUT, HEAD_FRAME_COMPOSED and LIVE_ALARM. -/
def Obligations.HeadFramesAreComposed : Prop :=
  (∀ (s : State) (h : HeadIx) (half : Bool), (s.head[h]).on = true → (half = true → multOf s.par.active h.1 = 2) →
    ((s.head[h]).frames = 0 ∨ (s.head[h]).t0 < s.tick.edgeAt + (if half then s.tick.period / 2 else 0)) →
    ∃ t, exec (.headFrameStart h half) s = .next t ∧
      t = { s with now := max s.now (s.tick.edgeAt + (if half then s.tick.period / 2 else 0)), head := t.head, comp := t.comp,
                   pln := t.pln, scn := t.scn, tch := t.tch, out := t.out } ∧ (t.head[h]).blank = (s.atTime (t.head[h]).t0).presentsBlank h ∧
      t.out = .record h s.tick.count half (t.head[h]).blank :: s.out ∧ (t.head[h]).frames = inc 64 (s.head[h]).frames ∧
      (t.head[h]).t0 = s.tick.edgeAt + (if half then s.tick.period / 2 else 0) ∧ (t.head[h]).underNow = false ∧
      (t.comp[h]).busy = true ∧ (t.comp[h]).canvas = [] ∧
      ∀ k : HeadIx, k ≠ h → t.head[k] = s.head[k] ∧ t.comp[k] = s.comp[k] ∧ t.pln[k] = s.pln[k] ∧ t.scn[k] = s.scn[k] ∧
        t.tch[k] = s.tch[k]) ∧
  (∀ (s : State) (h : HeadIx) (rows : Nat), s.running h = true → (s.comp[h]).busy = true →
    ∃ t, exec (.compositorRowOutput h rows) s = .next t ∧
      t = { s with free := t.free, mem := t.mem, surf := t.surf, comp := t.comp, head := t.head, scn := t.scn, cas := t.cas,
                   acm := t.acm, gpio := t.gpio, out := t.out } ∧
      (s.comp[h]).canvas <+: (t.comp[h]).canvas ∧
      (t.comp[h]).canvas.length = (s.comp[h]).canvas.length + min
        (min rows (if s.isScan h then s.pN P.SCN_BAND h.1 + (s.scn[h]).released - (s.comp[h]).canvas.length else rows))
        ((if s.canvasHead h = h then s.canvasH h else (s.comp[s.canvasHead h]).canvas.length) - (s.comp[h]).canvas.length) ∧
      ∀ k : HeadIx, k ≠ h → (t.comp[k]).canvas = (s.comp[k]).canvas ∧ t.head[k] = s.head[k] ∧ t.scn[k] = s.scn[k]) ∧
  (∀ (s : State) (h : HeadIx), s.running h = true → (s.comp[h]).busy = true → s.canvasH h ≤ (s.comp[h]).canvas.length →
    ∃ t, exec (.headFrameComposed h) s = .next t ∧ t = { s with comp := t.comp, head := t.head, isl := t.isl } ∧
      (t.comp[h]).busy = false ∧ (t.comp[h]).canvas = (s.comp[h]).canvas ∧
      (∀ k : Fin 16, (s.regionAt h k.1).mode = 0 → (t.head[h]).regions[k] = (s.head[h]).regions[k]) ∧
      (∀ k : Fin 16, (s.regionAt h k.1).mode = modeLive → ((t.head[h]).regions[k]).alarm = true →
        ((s.head[h]).regions[k]).alarm = true)) ∧
  (∀ (s : State) (r : RegionIx), s.running (Fin.ofNat 4 (r.1 / 16)) = true →
    (s.regionAt (Fin.ofNat 4 (r.1 / 16)) (r.1 % 16)).mode = modeLive →
    ((s.regionAt (Fin.ofNat 4 (r.1 / 16)) (r.1 % 16)).n ≤
        ((s.head[(Fin.ofNat 4 (r.1 / 16) : HeadIx)]).regions[(Fin.ofNat 16 (r.1 % 16) : Fin 16)]).count →
      ∃ t g, exec (.liveAlarm r) s = .next t ∧ t = { s with head := t.head } ∧
        g = (t.head[(Fin.ofNat 4 (r.1 / 16) : HeadIx)]).regions[(Fin.ofNat 16 (r.1 % 16) : Fin 16)] ∧ g.alarm = true ∧
        (((s.head[(Fin.ofNat 4 (r.1 / 16) : HeadIx)]).regions[(Fin.ofNat 16 (r.1 % 16) : Fin 16)]).alarm = false →
          g.changed = true ∧
          g.freezes = inc 32 ((s.head[(Fin.ofNat 4 (r.1 / 16) : HeadIx)]).regions[(Fin.ofNat 16 (r.1 % 16) : Fin 16)]).freezes)) ∧
    (((s.head[(Fin.ofNat 4 (r.1 / 16) : HeadIx)]).regions[(Fin.ofNat 16 (r.1 % 16) : Fin 16)]).count <
        (s.regionAt (Fin.ofNat 4 (r.1 / 16)) (r.1 % 16)).n →
      exec (.liveAlarm r) s = .next s))

/-- PLANE_LOAD_START, SYNC_IN_EDGE, SYNC_MISS, PLANE_BLOCK_LOAD, PLANE_SLOT_BOUNDARY and PLANE_SLOT_EMISSION. -/
def Obligations.PlaneFramesLoad : Prop :=
  let begins (t : State) (h : HeadIx) (coming : PlaneFrame) (deltaPs : Nat) : Prop :=
    (t.pln[h]).begun = true ∧ (t.pln[h]).waiting = false ∧ (t.pln[h]).loadSlot = some 0 ∧ (t.pln[h]).loadBlk = 0 ∧
      (t.pln[h]).loading = coming ∧ (t.pln[h]).lambdaPs = 420000000 + 2500 * tCycle t.par.active h.1 + deltaPs
  let others (s t : State) (h : HeadIx) : Prop := ∀ k : HeadIx, k ≠ h → t.head[k] = s.head[k] ∧ t.pln[k] = s.pln[k]
  (∀ (s : State) (h : HeadIx), (s.head[h]).on = true → s.isPlane h = true → (s.pln[h]).begun = false →
    (s.pln[h]).waiting = false → (s.head[h]).rdyWait = false → (s.head[h]).frames ≠ 0 →
    (s.syncMode h = false ∨ (s.head[h]).syncEdge = true →
      ∃ t, exec (.planeLoadStart h) s = .next t ∧ t = { s with head := t.head, pln := t.pln, gpio := t.gpio, out := t.out } ∧
        begins t h (s.pln[h]).coming 0 ∧ (t.pln[h]).slot = (s.pln[h]).slot ∧ (t.pln[h]).shown = (s.pln[h]).shown ∧ others s t h) ∧
    (s.syncMode h = true → (s.head[h]).syncEdge = false →
      exec (.planeLoadStart h) s = .next { s with pln := vmod s.pln h (fun p => { p with waiting := true }) })) ∧
  (∀ (s : State) (h : HeadIx) (dt : Nat), s.isPlane h = true → s.syncMode h = true → (s.head[h]).on = true →
    (dt ≤ 420000 → ∃ t, exec (.syncInEdge h dt) s = .next t ∧ t = { s with head := t.head } ∧
      t.head[h] = { s.head[h] with rdyWait := false, starting := false, syncEdge := true } ∧
      ∀ k : HeadIx, k ≠ h → t.head[k] = s.head[k]) ∧
    (420000 < dt → (s.pln[h]).waiting = true → 1000 * (dt - 420000) ≤ syncSlackPs s.par.active h.1 →
      ∃ t, exec (.syncInEdge h dt) s = .next t ∧ t = { s with head := t.head, pln := t.pln, gpio := t.gpio, out := t.out } ∧
        begins t h (s.pln[h]).coming (1000 * (dt - 420000)) ∧
        (t.head[h]).syncDelta = dt - 420000 ∧ (t.head[h]).syncRun = 0 ∧ (t.head[h]).rdyWait = false ∧ others s t h)) ∧
  (∀ (s : State) (h : HeadIx), (s.pln[h]).waiting = true →
    ∃ t, exec (.syncMiss h) s = .next t ∧ t = { s with head := t.head, pln := t.pln, flt := t.flt, gpio := t.gpio, out := t.out } ∧
      (t.head[h]).syncMiss = inc 32 (s.head[h]).syncMiss ∧ (t.head[h]).syncRun = (s.head[h]).syncRun + 1 ∧
      (t.head[h]).syncAt = false ∧ begins t h (s.pln[h]).coming (syncSlackPs s.par.active h.1) ∧ others s t h ∧
      ((s.head[h]).syncRun = 15 → t.flt.seq = s.flt.seq + 1) ∧ ((s.head[h]).syncRun ≠ 15 → t.flt = s.flt)) ∧
  (∀ (s : State) (h : HeadIx) (q block : Nat), (s.pln[h]).loadSlot = some q → block = (s.pln[h]).loadBlk →
    block < s.pN P.PLN_BLOCKS h.1 →
    ∃ t new, exec (.planeBlockLoad h block) s = .next t ∧ t.out = new ++ s.out ∧ ControlSent new h (phaseStrobe block q) ∧
      t = { s with free := t.free, mem := t.mem, surf := t.surf, acm := t.acm, pln := t.pln, flt := t.flt, out := t.out } ∧
      (t.pln[h]).loadBlk = block + 1 ∧ (t.pln[h]).loadSlot = some q ∧ (t.pln[h]).strobes = (s.pln[h]).strobes ++ [block] ∧
      (∀ k : HeadIx, k ≠ h → t.pln[k] = s.pln[k]) ∧ (∀ a, memGet t.mem.normal a = memGet s.mem.normal a) ∧
      (((slotsOf (s.pln[h]).loading.sched).getD q ⟨true, 0, 0, 0⟩).dark = true → t.mem = s.mem ∧ t.flt = s.flt ∧ t.acm = s.acm ∧
        (block = 0 → ControlSent new h (arrayClear q))) ∧
      (((slotsOf (s.pln[h]).loading.sched).getD q ⟨true, 0, 0, 0⟩).dark = false →
        ControlSent new h (blockLoad block q (blockRow s.par.active h.1 block)
          (blockRow s.par.active h.1 (block + 1) - blockRow s.par.active h.1 block)))) ∧
  (∀ (s : State) (h : HeadIx) (q : Nat), (s.pln[h]).loadSlot = some q → s.running h = true →
    s.pN P.PLN_BLOCKS h.1 ≤ (s.pln[h]).loadBlk →
    ∃ t, exec (.planeSlotBoundary h) s = .next t ∧
      t = { s with head := t.head, pln := t.pln, em := t.em, tch := t.tch, bly := t.bly, gpio := t.gpio, out := t.out } ∧
      (t.pln[h]).slot = some q ∧ (t.pln[h]).emitted = false ∧ (t.pln[h]).dark = (s.pln[h]).darkNext ∧
      (∀ b ∈ (s.pln[h]).strobes, Out.strobe h b (some ((t.pln[h]).sigmaPs / 2500 + b * s.pN P.PLN_TPHASE h.1)) ∈ t.out) ∧
      (t.pln[h]).strobes = [] ∧
      (q = 0 → (t.pln[h]).shown = (s.pln[h]).loading ∧ (t.pln[h]).sigmaPs = (s.pln[h]).lambdaPs) ∧
      (q ≠ 0 → (t.pln[h]).shown = (s.pln[h]).shown ∧ (t.pln[h]).sigmaPs = (s.pln[h]).sigmaPs + 2500 *
        ((usesOf s.par.active h.1 (s.pln[h]).shown.sched (2 ^ 31)).getD ((s.pln[h]).slot.getD 0) ⟨⟨true, 0, 0, 0⟩, 0, 0, 0, 0⟩).d) ∧
      (q + 1 = (slotsOf (s.pln[h]).loading.sched).length → (t.pln[h]).loadSlot = none ∧
        (t.head[h]).sobNs = (t.pln[h]).sigmaPs / 1000) ∧
      (q + 1 ≠ (slotsOf (s.pln[h]).loading.sched).length → (t.pln[h]).loadSlot = some (q + 1) ∧ (t.pln[h]).loadBlk = 0) ∧
      ((s.pln[h]).losing = true → (t.head[h]).wait = true) ∧ others s t h) ∧
  (∀ (s : State) (h : HeadIx) (q : Nat) (use : Solve), (s.pln[h]).slot = some q → (s.pln[h]).shown.use = some use →
    s.running h = true →
    ((s.pln[h]).emitted = true → exec (.planeSlotEmission h) s = .next s) ∧
    ((s.pln[h]).emitted = false →
      ∃ t, exec (.planeSlotEmission h) s = .next t ∧ t = { s with pln := t.pln, em := t.em, out := t.out } ∧
        t.pln[h] = { s.pln[h] with emitted := true } ∧ (∀ k : HeadIx, k ≠ h → t.pln[k] = s.pln[k]) ∧
        (∀ c : ChanIx, (t.em[c]).en = (s.em[c]).en ∧ ((s.em[c]).en = none → t.em[c] = s.em[c])) ∧
        ((s.pln[h]).shown.blank = true ∨ (s.pln[h]).dark = true → t.em = s.em ∧ t.out = s.out) ∧
        ∀ (u : SlotUse) (g n : Nat), (usesOf s.par.active h.1 (s.pln[h]).shown.sched use.dt)[q]? = some u →
          fieldOf s.par.active h.1 ((slotsOf (s.pln[h]).shown.sched).getD q ⟨true, 0, 0, 0⟩).field = some (g, n) →
          (u.slot.dark = true → t.em = s.em ∧ t.out = s.out) ∧
          (∀ c : ChanIx, c ∉ chansOf s.par.active h.1 g → t.em[c] = s.em[c]) ∧
          ∀ (c : ChanIx) (cu : ChanUse) (at_ : Nat), c ∈ chansOf s.par.active h.1 g → use.chan c.1 = some cu →
            (s.em[c]).en = some at_ → 0 < u.emit → u.slot.dark = false → (s.pln[h]).dark = false → (s.pln[h]).shown.blank = false →
            (t.em[c]).core = (s.em[c]).core + 1 ∧
            (t.em[c]).cores[(s.em[c]).core + 1] =
              (if tooEarly at_ (s.pln[h]).boundaryPs (100 * tX s.par.active h.1) = true then 0
               else min (slotCode cu.peak u.amp) (s.pN P.EMT_MAXCODE c.1))))

/-- STRIPE_RENDERED. -/
def Obligations.StripesAreRendered : Prop :=
  ∀ (s : State) (h : HeadIx) (stripe : Nat) (rope : RopeIx), s.running h = true → s.isPlane h = true →
    stripe < stripesOf s.par.active h.1 →
    ((s.pln[h]).bufs[(Fin.ofNat 3 (s.head[h]).frames : Fin 3)]).done.contains stripe = false →
    ((s.pln[h]).bufs[(Fin.ofNat 3 (s.head[h]).frames : Fin 3)]).frame = (s.head[h]).frames →
    s.stripeNeeds h stripe ≤ (s.comp[h]).canvas.length → s.entryBare 0 h.1 = false → s.flt.failed[rope] = false →
    (∃ t, exec (.stripeRendered h stripe rope true) s = .next t ∧
      t = { s with free := t.free, mem := t.mem, surf := t.surf, acm := t.acm, head := t.head, pln := t.pln, gpio := t.gpio,
                   out := t.out } ∧
      (t.pln[h]).second = !(s.pln[h]).second ∧
      (∃ x, (t.pln[h]).stripes[(if (s.pln[h]).second then 1 else 0 : Fin 2)] = some x ∧ x.frame = (s.head[h]).frames ∧
        x.stripe = stripe ∧ x.codes.length = min 16 (s.pN P.PLN_ROWS h.1 - 16 * stripe)) ∧
      ((t.pln[h]).bufs[(Fin.ofNat 3 (s.head[h]).frames : Fin 3)]).done =
        stripe :: ((s.pln[h]).bufs[(Fin.ofNat 3 (s.head[h]).frames : Fin 3)]).done ∧
      (∀ a, memGet t.mem.normal a = memGet s.mem.normal a) ∧
      (∀ k : HeadIx, k ≠ h → t.head[k] = s.head[k] ∧ t.pln[k] = s.pln[k])) ∧
    (∃ t, exec (.stripeRendered h stripe rope false) s = .next t ∧ t = { s with head := t.head, flt := t.flt } ∧
      (t.head[h]).shadowErr = inc 32 (s.head[h]).shadowErr ∧ (s.flt.removed[rope] = false → t.flt.failed[rope] = true) ∧
      (∀ r : RopeIx, r ≠ rope → t.flt.failed[r] = s.flt.failed[r]) ∧
      (∀ k : HeadIx, k ≠ h → t.head[k] = s.head[k]))

/-- PLH_RDY_ASSERT, PLH_RDY_START_TIMEOUT, PLH_RDY_LOSS, RANGE_POINT and PROBE_EMIT. -/
def Obligations.ReadySignalsAndProbes : Prop :=
  (∀ (s : State) (h : HeadIx),
    (s.syncMode h = false → exec (.plhRdyAssert h) s = .next { s with
      pln := vmod s.pln h (fun p => { p with rdy := true }), head := vmod s.head h (fun x => { x with
        rdyWait := false, starting := false }) }) ∧
    (s.syncMode h = true → exec (.plhRdyAssert h) s = .next { s with pln := vmod s.pln h (fun p => { p with rdy := true }) })) ∧
  (∀ (s : State) (h : HeadIx), (s.head[h]).on = true → s.isPlane h = true → (s.head[h]).starting = true →
    (s.head[h]).late = false →
    ∃ t, exec (.plhRdyStartTimeout h) s = .next t ∧
      t = { s with head := vmod s.head h (fun x => { x with late := true, wait := true })
                   pln := vmod s.pln h (fun p => { p with rdyLoss := inc 32 p.rdyLoss })
                   em := t.em, tch := t.tch, bly := t.bly, flt := t.flt } ∧ t.flt.seq = s.flt.seq + 1 ∧
      exec (.plhRdyStartTimeout h) t = .next t) ∧
  (∀ (s : State) (h : HeadIx), (s.head[h]).on = true → s.isPlane h = true → s.syncMode h = false →
    (s.head[h]).rdyWait = false →
    ∃ t, exec (.plhRdyLoss h) s = .next t ∧
      t = { s with head := vmod s.head h (fun x => { x with rdyWait := true })
                   pln := vmod s.pln h (fun p => { p with rdy := false, losing := true, rdyLoss := inc 32 p.rdyLoss })
                   flt := t.flt } ∧ t.flt.seq = s.flt.seq + 1) ∧
  (∀ (s : State) (h : HeadIx), s.running h = true → s.isScan h = true ∨ (s.isPlane h = true ∧ (s.head[h]).second = false) →
    ∃ t, exec (.rangePoint h) s = .next t ∧ t = { s with em := t.em } ∧
      (∀ c : ChanIx, c ∉ boundTo s.par.active h.1 → t.em[c] = s.em[c]) ∧
      (∀ c : ChanIx, c ∈ chansOf s.par.active h.1 roleTouch → (t.em[c]).range = s.pN P.TCH_RANGE h.1) ∧
      ∀ (c : ChanIx) (x : Solve) (u : ChanUse), c ∈ boundTo s.par.active h.1 → c ∉ chansOf s.par.active h.1 roleTouch →
        (s.col[h]).cur = some x → x.chan c.1 = some u → (t.em[c]).range = u.range) ∧
  (∀ (s : State) (c : ChanIx) (h : HeadIx) (role : Nat), s.boundHead c = some (h, role) →
    ((s.em[c]).probeDue = false ∨ (s.em[c]).steady = false → exec (.probeEmit c) s = .next s) ∧
    ((s.em[c]).probeDue = true → (s.em[c]).steady = true → s.permitted c = true → s.blankNow h = false → s.isPlane h = true →
      (s.pln[h]).shown.first = true → (s.pln[h]).slot.isSome = true →
      (s.pln[h]).slot = probeSlot (slotsOf (s.pln[h]).shown.sched) →
      ∃ t, exec (.probeEmit c) s = .next t ∧ t = { s with em := t.em, out := t.out } ∧
        (t.em[c]).probes = inc 32 (s.em[c]).probes ∧ (t.em[c]).probeDue = false ∧ (t.em[c]).en = (s.em[c]).en ∧
        (∀ at_, (s.em[c]).en = some at_ → 0 < s.probeCode c →
          tooEarly at_ (1000 * (s.pln[h]).shown.t0 + (s.pln[h]).sigmaPs) (100 * tX s.par.active h.1 + 20000) = false →
          t.out = .pulse c ((s.em[c]).core + 1) (s.probeCode c) (100 * tX s.par.active h.1 + 20000) 80000 :: s.out) ∧
        ∀ d : ChanIx, d ≠ c → t.em[d] = s.em[d]) ∧
    ((s.em[c]).probeDue = true → (s.em[c]).steady = true → s.permitted c = true → s.blankNow h = false → s.isPlane h = false →
      (s.scn[h]).turn = s.probeSide h → (s.scn[h]).turn ≠ 0 → (s.head[h]).second = false →
      ∃ t, exec (.probeEmit c) s = .next t ∧ t = { s with em := t.em, out := t.out } ∧
        (t.em[c]).probes = inc 32 (s.em[c]).probes ∧ (t.em[c]).probeDue = false ∧ (t.em[c]).en = (s.em[c]).en ∧
        ∀ d : ChanIx, d ≠ c → t.em[d] = s.em[d]))

/-- SCAN_LINE_START and SCAN_SAMPLE. -/
def Obligations.ScanLinesAndSamples : Prop :=
  (∀ (s : State) (h : HeadIx) (dt : Nat) (forward : Bool), s.isScan h = true →
    ∃ t, exec (.scanLineStart h dt forward) s = .next t ∧
      t = { s with now := max s.now ((s.head[h]).t0 + dt), free := t.free, head := t.head, scn := t.scn, em := t.em,
                   tch := t.tch, gpio := t.gpio, out := t.out } ∧
      (t.scn[h]).amp = (s.scn[h]).ampNow ∧ (t.scn[h]).freq = (s.scn[h]).freqNow ∧ (t.scn[h]).phase = (s.scn[h]).phaseNow ∧ (t.scn[h]).forward = forward ∧
      (t.scn[h]).lineAt = (s.head[h]).t0 + dt ∧ (t.scn[h]).emitted = 0 ∧ (t.scn[h]).chips = 0 ∧
      (t.scn[h]).st = (s.scn[h]).st ∧
      (s.running h = true → (s.scn[h]).st = .locked → (s.head[h]).frames ≠ 0 →
        (s.scn[h]).begun < s.pN P.SCN_LINES_ACT h.1 → ((s.scn[h]).begun ≠ 0 ∨ 490000 ≤ dt) →
        (t.scn[h]).active = some (s.scn[h]).begun ∧ (t.scn[h]).begun = (s.scn[h]).begun + 1) ∧
      (s.running h = false ∨ (s.scn[h]).st ≠ .locked ∨ (s.head[h]).frames = 0 ∨
          s.pN P.SCN_LINES_ACT h.1 ≤ (s.scn[h]).begun ∨ ((s.scn[h]).begun = 0 ∧ dt < 490000) →
        (t.scn[h]).active = none ∧ (t.scn[h]).begun = (s.scn[h]).begun) ∧
      (∀ c : ChanIx, (t.em[c]).en = (s.em[c]).en) ∧
      ∀ k : HeadIx, k ≠ h → t.scn[k] = s.scn[k] ∧ t.head[k] = s.head[k]) ∧
  (∀ (s : State) (h : HeadIx) (i j : Nat), (s.scn[h]).active = some j →
    ((s.scn[h]).emitted < s.pN P.SCN_SAMPLES h.1 →
      i = (if (s.scn[h]).forward then (s.scn[h]).emitted else s.pN P.SCN_SAMPLES h.1 - 1 - (s.scn[h]).emitted) →
      ∃ t, exec (.scanSample h (.emit i)) s = .next t ∧
        t = { s with free := t.free, mem := t.mem, acm := t.acm, head := t.head, scn := t.scn, em := t.em, gpio := t.gpio,
                     out := t.out } ∧ (∀ c : Copy, t.mem.cells c = s.mem.cells c) ∧ t.mem.qdr = s.mem.qdr ∧
        (t.scn[h]).emitted = (s.scn[h]).emitted + 1 ∧ (t.scn[h]).active = some j ∧
        (∀ c : ChanIx, (t.em[c]).en = (s.em[c]).en) ∧
        (∀ k : HeadIx, k ≠ h → t.scn[k] = s.scn[k] ∧ t.head[k] = s.head[k])) ∧
    ((s.scn[h]).emitted = s.pN P.SCN_SAMPLES h.1 ∨
        i ≠ (if (s.scn[h]).forward then (s.scn[h]).emitted else s.pN P.SCN_SAMPLES h.1 - 1 - (s.scn[h]).emitted) →
      exec (.scanSample h (.emit i)) s = .next s)) ∧
  (∀ (s : State) (h : HeadIx) (j k : Nat) (ta tb : List Nat), (s.scn[h]).active = some j →
    ((s.scn[h]).chips ≤ k → ∃ t, exec (.scanSample h (.chip k ta tb)) s = .next t ∧
      t = { s with free := t.free, scn := t.scn, em := t.em, tch := t.tch, out := t.out } ∧ (t.scn[h]).chips = k + 1 ∧
      (t.scn[h]).emitted = (s.scn[h]).emitted ∧ (∀ c : ChanIx, (t.em[c]).en = (s.em[c]).en)) ∧
    (k < (s.scn[h]).chips → exec (.scanSample h (.chip k ta tb)) s = .next s))

/-- FAST_AXIS_LOCKED, SCAN_FAIL, FAST_AXIS_STOP and BELAY_BASE_PERIOD. -/
def Obligations.AxesAndLoopsRun : Prop :=
  (∀ (s : State) (h : HeadIx),
    ((s.scn[h]).st = .locking → lasted (s.scn[h]).watch.window 256 = true →
      exec (.fastAxisLocked h) s = .next { s with scn := vmod s.scn h (fun x => { x with st := .locked, reached := true }) }) ∧
    ((s.scn[h]).st ≠ .locking ∨ lasted (s.scn[h]).watch.window 256 = false → exec (.fastAxisLocked h) s = .next s)) ∧
  (∀ (s : State) (h : HeadIx) (r : ScanReason) (t0 : Nat) (u : State), s.isScan h = true → u = { s with now := max s.now t0 } →
    (u.failHolds h r = true →
      ∃ t, exec (.scanFail h r t0) s = .next t ∧
        t = { u with scn := t.scn, head := t.head, em := t.em, tch := t.tch, bly := t.bly, flt := t.flt, acm := t.acm, out := t.out } ∧
        t.scn[h] = { s.scn[h] with st := .failed, since := u.latest, fails := inc 32 (s.scn[h]).fails, active := none } ∧
        (s.running h = true → t.head[h] = { s.head[h] with wait := true }) ∧ (s.running h = false → t.head[h] = s.head[h]) ∧
        t.flt.seq = s.flt.seq + 1 ∧ (∃ e, t.flt.log.head? = some e ∧ e.block = 0x18 + h.1 ∧ e.code = 4) ∧
        ∀ k : HeadIx, k ≠ h → t.scn[k] = s.scn[k] ∧ t.head[k] = s.head[k]) ∧
    (u.failHolds h r = false → exec (.scanFail h r t0) s = .next u)) ∧
  (∀ (s : State) (h : HeadIx),
    ((s.scn[h]).st = .failed → (s.scn[h]).since + 10000000 ≤ s.latest →
      exec (.fastAxisStop h) s = .next { s with scn := vmod s.scn h (fun x => { x with st := .stopped, sweepDue := s.isScan h }) }) ∧
    ((s.scn[h]).st ≠ .failed ∨ s.latest < (s.scn[h]).since + 10000000 → exec (.fastAxisStop h) s = .next s)) ∧
  (∀ (s : State) (senses : Vector HeadSense 4), s.dev ≠ .boot →
    ∃ t, exec (.belayBasePeriod senses) s = .next t ∧
      t = { s with now := max s.now s.blyClock.blyNs, free := t.free, bly := t.bly, scn := t.scn, em := t.em } ∧
      t.bly.base = s.bly.base + 1 ∧ (t.bly.guardAt = none ↔ s.onGuard pllSns = false) ∧
      (∀ k : Fin 128, (s.blyDesc k).law ≠ lawOff → s.blyDue k = false → t.bly.slot[k] = s.bly.slot[k]) ∧
      (∀ k : Fin 128, s.blyDue k = true → (s.bly.slot[k]).on = true → (t.bly.slot[k]).u = (s.bly.slot[k]).next ∧
        (t.bly.slot[k]).on = true) ∧
      (∀ k : Fin 128, (s.blyDesc k).law = lawOff → (s.bly.slot[k]).on = true →
        t.bly.slot[k] = { BlySlot.reset with handovers := (s.bly.slot[k]).handovers, swapTick := (s.bly.slot[k]).swapTick }) ∧
      (∀ (k : Fin 128) (h : HeadIx), (s.blyDesc k).law = lawMirror → s.blyDue k = true → h = Fin.ofNat 4 (s.blyDesc k).outIdx →
        (∀ j : Fin 128, j ≠ k → (s.blyDesc j).law = lawMirror → (Fin.ofNat 4 (s.blyDesc j).outIdx : HeadIx) ≠ h) →
        (t.scn[h]).ampNow = (s.bly.slot[k]).y ∧ (t.scn[h]).freqNow = (s.bly.slot[k]).freq))

/-- SENSE_SAMPLE, SENSE_RANGE_CHANGE and DRIVER_FAULT. -/
def Obligations.SensingJudgesChannels : Prop :=
  (∀ (s : State) (c : ChanIx) (rawP rawW : BitVec 16) (d : Aperture),
    ∃ t, exec (.senseSample c rawP rawW d) s = .next t ∧
      (t.em[c]).sums.n = (s.em[c]).sums.n + 1 ∧
      (t.em[c]).sums.q = (s.em[c]).sums.q + normalised rawP.toNat (s.em[c]).pdp.range ∧
      (s.locked pllSns = false ∨ s.watched c = false → t = { s with em := t.em } ∧
        (t.em[c]).mean.length ≤ (s.em[c]).mean.length + 1 ∧ ∀ k : ChanIx, k ≠ c → t.em[k] = s.em[k]) ∧
      (((t.em[c]).mean).foldl (· + ·) 0 ≤ 2000 * s.pN P.EMT_MAXPWR c.1 → t = { s with em := t.em } ∧
        ∀ k : ChanIx, k ≠ c → t.em[k] = s.em[k]) ∧
      (s.locked pllSns = true → s.watched c = true → 2000 * s.pN P.EMT_MAXPWR c.1 < ((t.em[c]).mean).foldl (· + ·) 0 →
        s.anc.power = false → t.anc.power = true ∧ (∀ k : ChanIx, (t.em[k]).en = none) ∧
          (s.dev = .standby ∨ s.dev = .armed ∨ s.dev = .lit → t.dev = .safe ∧ t.flt.safeCause = causePower))) ∧
  (∀ (s : State) (c : ChanIx) (w : Bool) (f g : SenseEnd), f = (if w then (s.em[c]).pdw else (s.em[c]).pdp) →
    (f.overR = true → f.range < 3 → g = { f with range := f.range + 1, low := 0, overR := false, moved := true } →
      exec (.senseRangeChange c w) s = .next { s with em := vmod s.em c (fun e => if w then { e with pdw := g } else { e with pdp := g }) }) ∧
    (f.overR = false → f.low = 64 → 0 < f.range → g = { f with range := f.range - 1, low := 0, overR := false, moved := true } →
      exec (.senseRangeChange c w) s = .next { s with em := vmod s.em c (fun e => if w then { e with pdw := g } else { e with pdp := g }) }) ∧
    ((f.overR = true ∧ 3 ≤ f.range) ∨ (f.overR = false ∧ (f.low ≠ 64 ∨ f.range = 0)) →
      exec (.senseRangeChange c w) s = .next s)) ∧
  (∀ (s : State) (c : ChanIx), (s.boundHead c).isSome = true → s.pN P.EMT_FLT_MODE c.1 ≠ 0 → (s.em[c]).driverF = false →
    ∃ t, exec (.driverFault c) s = .next t ∧ t = { s with em := t.em, bly := { s.bly with trace := t.bly.trace }, flt := t.flt, acm := t.acm, out := t.out } ∧
      (t.em[c]).driverF = true ∧ (t.em[c]).shortF = true ∧ (t.em[c]).faults = inc 32 (s.em[c]).faults ∧ (t.em[c]).en = none ∧
      t.flt.seq = s.flt.seq + 1 ∧ ∀ k : ChanIx, k ≠ c → t.em[k] = s.em[k])

/-- EMIT_EN_EDGE, INTERLOCK_DROP, DISCREPANCY, SCAN_MOTION_INVALID and SCAN_MOTION_VALID. -/
def Obligations.InterlocksBlank : Prop :=
  (∀ (s : State) (t0 : Nat) (pin : EnPin) (level : Bool),
    ∃ t, exec (.emitEnEdge t0 pin level) s = .next t ∧
      t = { s with now := max s.now t0, anc := t.anc, em := t.em, tch := t.tch, bly := t.bly } ∧
      t.anc.pinA = (if pin = .a then level else s.anc.pinA) ∧ t.anc.pinB = (if pin = .b then level else s.anc.pinB) ∧
      (t.anc.differAt = none ↔ t.anc.pinA = t.anc.pinB) ∧
      t.anc = { s.anc with pinA := t.anc.pinA, pinB := t.anc.pinB, differAt := t.anc.differAt } ∧
      (t.anc.pinA = false ∨ t.anc.pinB = false → ∀ c : ChanIx, (t.em[c]).en = none)) ∧
  (∀ (s : State) (pin : EnPin), s.dev = .lit →
    ((if pin = .a then s.anc.pinA else s.anc.pinB) = false →
      ∃ t, exec (.interlockDrop pin) s = .next t ∧
        t = { s with dev := .armed, em := t.em, tch := t.tch, bly := t.bly } ∧ ∀ c : ChanIx, (t.em[c]).en = none) ∧
    ((if pin = .a then s.anc.pinA else s.anc.pinB) = true → exec (.interlockDrop pin) s = .next s)) ∧
  (∀ (s : State) (t0 a : Nat), s.anc.differAt = some a → s.dev ≠ .boot →
    (a + 2000000 < max s.now t0 → s.anc.discrepancy = false →
      ∃ t, exec (.discrepancy t0) s = .next t ∧
        t = { s with now := max s.now t0, dev := t.dev, anc := t.anc, flt := t.flt, pwr := t.pwr, em := t.em, tch := t.tch,
                     bly := t.bly } ∧
        t.anc.discrepancy = true ∧ t.anc.pinA = s.anc.pinA ∧ t.anc.pinB = s.anc.pinB ∧
        (∀ c : ChanIx, (t.em[c]).en = none) ∧
        (s.dev = .standby ∨ s.dev = .armed ∨ s.dev = .lit → t.dev = .safe ∧ t.flt.safeCause = causeDiscrepancy)) ∧
    (max s.now t0 ≤ a + 2000000 → exec (.discrepancy t0) s = .next { s with now := max s.now t0 })) ∧
  (∀ (s : State) (h : HeadIx), s.isScan h = true → s.running h = true →
    (∃ t, exec (.scanMotionInvalid h) s = .next t ∧ t = { s with anc := t.anc, em := t.em, tch := t.tch, bly := t.bly } ∧
      t.anc = { s.anc with motion := vset s.anc.motion h false } ∧
      ∀ (c : ChanIx) (role : Nat), s.boundHead c = some (h, role) → (t.em[c]).en = none) ∧
    (∃ t, exec (.scanMotionValid h) s = .next t ∧ t = { s with anc := t.anc, em := t.em, tch := t.tch, bly := t.bly } ∧
      t.anc = { s.anc with motion := vset s.anc.motion h true }))

/-- PHASE_ERROR_COMPARISON, PLL_LOSS_OF_LOCK, PLL_LOCK, PLL_FAILED, REFCLK_MISSING and REFCLK_SYS_RESTORED. -/
def Obligations.PllsLockAndFail : Prop :=
  (∀ (s : State) (k : PllIx) (e : Int), (s.clk.pll[k]).st ≠ .off → k ≠ pllIsl →
    ∃ t, exec (.phaseErrorComparison k e) s = .next t ∧ t = { s with clk := t.clk, out := t.out } ∧
      (t.clk.pll[k]).st = (s.clk.pll[k]).st ∧ (∀ j : PllIx, j ≠ k → t.clk.pll[j] = s.clk.pll[j]) ∧
      (e.natAbs ≤ s.pN P.CLK_LOCK_WIN k.1 → (t.clk.pll[k]).inRun = min 4096 ((s.clk.pll[k]).inRun + 1) ∧
        (t.clk.pll[k]).outRun = 0 ∧ t.out = s.out) ∧
      (s.pN P.CLK_LOCK_WIN k.1 < e.natAbs → (t.clk.pll[k]).inRun = 0 ∧
        (t.clk.pll[k]).outRun = min 4096 ((s.clk.pll[k]).outRun + 1) ∧
        t.out = (if bit (s.pN P.CLK_LOCK_MASK) k.1 && (s.clk.pll[k]).st != .acquiring then .lock :: s.out else s.out))) ∧
  (∀ (s : State) (t0 : Nat) (k : PllIx), k ≠ pllIsl → (s.clk.pll[k]).st = .locked →
    (s.pN P.CLK_LOCK_M k.1 ≤ (s.clk.pll[k]).outRun ∨ (s.clk.refMissing = true ∧ pllOnSys k = true) →
      ∃ t, exec (.pllLossOfLock t0 k) s = .next t ∧
        t = { s with now := max s.now t0, clk := t.clk, head := t.head, em := t.em, tch := t.tch, bly := t.bly, flt := t.flt,
                     acm := t.acm, out := t.out } ∧
        (t.clk.pll[k]).st = .unlocked ∧ (t.clk.pll[k]).lostAt = max s.now t0 ∧
        (t.clk.pll[k]).unlocks = inc 32 (s.clk.pll[k]).unlocks ∧ (∀ j : PllIx, j ≠ k → t.clk.pll[j] = s.clk.pll[j]) ∧
        (∀ h, pllHead k = some h → s.running h = true → (t.head[h]).wait = true ∧
          ∀ (c : ChanIx) (role : Nat), s.boundHead c = some (h, role) → k = headPll h → (t.em[c]).en = none)) ∧
    ((s.clk.pll[k]).outRun < s.pN P.CLK_LOCK_M k.1 → (s.clk.refMissing = false ∨ pllOnSys k = false) →
      exec (.pllLossOfLock t0 k) s = .next { s with now := max s.now t0 })) ∧
  (∀ (s : State) (t0 : Nat), s.isl.run ≠ .off → (s.clk.pll[pllIsl]).st ≠ .unlocked → (s.clk.pll[pllIsl]).st ≠ .failed →
    ∃ t, exec (.pllLossOfLock t0 pllIsl) s = .next t ∧
      t = { s with now := max s.now t0, clk := t.clk, isl := t.isl, lw := t.lw, flt := t.flt, acm := t.acm, out := t.out } ∧
      (t.clk.pll[pllIsl]).st = .unlocked) ∧
  (∀ (s : State) (t0 : Nat) (k : PllIx), k ≠ pllIsl → (s.clk.pll[k]).st ≠ .off → (s.clk.pll[k]).st ≠ .locked →
    (s.pN P.CLK_LOCK_N k.1 ≤ (s.clk.pll[k]).inRun → (s.clk.refMissing = false ∨ pllOnSys k = false) →
      ∃ t, exec (.pllLock t0 k) s = .next t ∧
        t = { s with now := max s.now t0, mem := { s.mem with ch := t.mem.ch }, clk := t.clk, em := t.em, tch := t.tch, bly := t.bly,
                     flt := t.flt, acm := t.acm, out := t.out } ∧
        (∀ n : LpIx, pllMc k = some (Fin.ofNat 4 (n.1 / 2)) → (t.mem.ch[n]).owed = 0 ∧
          (t.mem.ch[n]).refreshes = (s.mem.ch[n]).refreshes + (s.mem.ch[n]).owed) ∧
        (∀ n : LpIx, pllMc k ≠ some (Fin.ofNat 4 (n.1 / 2)) → t.mem.ch[n] = s.mem.ch[n]) ∧
        (t.clk.pll[k]).st = .locked ∧ (t.clk.pll[k]).lockTick = s.tick.count ∧
        (t.clk.pll[k]).aligned = (pllHead k).isNone ∧
        (t.clk.pll[k]).vco = s.vcoWanted k ∧ (t.clk.pll[k]).target = s.vcoWanted k ∧ (t.clk.pll[k]).unlocks = (s.clk.pll[k]).unlocks ∧
        ∀ j : PllIx, j ≠ k → t.clk.pll[j] = s.clk.pll[j]) ∧
    ((s.clk.pll[k]).inRun < s.pN P.CLK_LOCK_N k.1 → exec (.pllLock t0 k) s = .next { s with now := max s.now t0 })) ∧
  (∀ (s : State) (t0 : Nat), (s.clk.pll[pllIsl]).st ≠ .off → (s.clk.pll[pllIsl]).st ≠ .locked →
    ∃ t, exec (.pllLock t0 pllIsl) s = .next t ∧ (t.clk.pll[pllIsl]).st = .locked ∧ t.par = s.par ∧ t.dev = s.dev) ∧
  (∀ (s : State) (t0 : Nat) (k : PllIx),
    ((s.clk.pll[k]).st = .unlocked → (s.clk.pll[k]).lostAt + 10000000 ≤ max s.now t0 →
      ∃ t, exec (.pllFailed t0 k) s = .next t ∧ (t.clk.pll[k]).st = .failed ∧
        (∀ j : PllIx, j ≠ k → (t.clk.pll[j]).st = (s.clk.pll[j]).st) ∧ t.par = s.par ∧ t.surf = s.surf ∧ t.tick = s.tick ∧
        (pllDevice k = true → s.dev = .standby ∨ s.dev = .armed ∨ s.dev = .lit →
          t.dev = .safe ∧ t.flt.safeCause = causePll ∧ ∀ c : ChanIx, (t.em[c]).en = none) ∧
        (∀ m, pllMc k = some m → t.mem.failed[m] = true) ∧
        (∀ p, pllTrav k = some p → (t.cas.port[p]).link ≠ .up)) ∧
    ((s.clk.pll[k]).st ≠ .unlocked ∨ max s.now t0 < (s.clk.pll[k]).lostAt + 10000000 →
      exec (.pllFailed t0 k) s = .next { s with now := max s.now t0 })) ∧
  (∀ (s : State) (t0 : Nat), s.clk.refMissing = false →
    ∃ t, exec (.refclkMissing t0) s = .next t ∧ t.clk.refMissing = true ∧
      (∀ k : PllIx, pllOnSys k = true → (s.clk.pll[k]).st = .locked → (t.clk.pll[k]).st = .unlocked ∧
        (t.clk.pll[k]).unlocks = inc 32 (s.clk.pll[k]).unlocks) ∧
      (∀ k : PllIx, pllOnSys k = false ∨ (s.clk.pll[k]).st ≠ .locked → t.clk.pll[k] = s.clk.pll[k]) ∧
      t = { s with now := max s.now t0, clk := t.clk, head := t.head, em := t.em, tch := t.tch, bly := t.bly, flt := t.flt,
                   acm := t.acm, out := t.out }) ∧
  (∀ (s : State) (t0 : Nat),
    exec (.refclkSysRestored t0) s = .next { s with now := max s.now t0, clk := { s.clk with refMissing := false } })

/-- SUPPLY_WARNING, HOLD_END, SUPPLY_RESET_LEVEL, RESET_N_ASSERT, WATCHDOG_EXPIRY and BOOT_TIMEOUT. -/
def Obligations.HoldAndResetCauses : Prop :=
  (∀ (s : State) (t0 : Nat) (rail : Rail) (mv : Nat),
    (warnLevel rail ≤ mv → exec (.supplyWarning t0 rail mv) s = .next { s with now := max s.now t0 }) ∧
    (mv < warnLevel rail → s.dev ≠ .boot → s.dev ≠ .hold →
      ∃ t, exec (.supplyWarning t0 rail mv) s = .next t ∧
        t = { s with now := max s.now t0, dev := .hold, pwr := t.pwr, em := t.em, tch := t.tch, bly := t.bly, flt := t.flt,
                     acm := t.acm, out := t.out } ∧
        t.pwr.holdFrom = s.dev ∧ t.pwr.vmin = mv ∧ t.pwr.missed = 0 ∧ t.pwr.holdAt = max s.now t0 ∧
        t.pwr.holds = inc 32 s.pwr.holds ∧ t.pwr.holdCore = (rail == .core) ∧ t.pwr.holdA18 = (rail == .a18) ∧
        t.pwr.holdSafe = 0 ∧ t.flt.seq = s.flt.seq + 1 ∧ ∀ c : ChanIx, (t.em[c]).en = none) ∧
    (mv < warnLevel rail → s.dev = .boot →
      exec (.supplyWarning t0 rail mv) s = .next { s with now := max s.now t0, pwr := s.pwr.lower rail }) ∧
    (mv < warnLevel rail → s.dev = .hold →
      exec (.supplyWarning t0 rail mv) s = .next { s with now := max s.now t0, pwr := (s.pwr.lower rail).dip rail mv })) ∧
  (∀ (s : State) (t0 : Nat),
    (s.dev ≠ .hold → exec (.holdEnd t0) s = .next { s with
      now := max s.now t0, pwr := { s.pwr with coreLow := false, a18Low := false } }) ∧
    (s.dev = .hold →
      ∃ t, exec (.holdEnd t0) s = .next t ∧
        t = { s with now := max s.now t0, dev := t.dev, pwr := t.pwr, head := t.head, pln := t.pln, em := t.em, tch := t.tch,
                     bly := t.bly, flt := t.flt, acm := t.acm, out := t.out } ∧
        t.pwr.coreLow = false ∧ t.pwr.a18Low = false ∧
        (s.pwr.holdSafe = 0 → s.pwr.holdFrom = .lit → s.pwr.holdDrop = true → t.dev = .armed ∧ t.flt.seq = s.flt.seq + 1) ∧
        (s.pwr.holdSafe = 0 → (s.pwr.holdFrom ≠ .lit ∨ s.pwr.holdDrop = false) →
          t.dev = s.pwr.holdFrom ∧ t.flt.safeCause = s.flt.safeCause ∧ t.flt.seq = s.flt.seq + 1) ∧
        (s.pwr.holdSafe ≠ 0 → (s.pwr.holdFrom = .standby ∨ s.pwr.holdFrom = .armed ∨ s.pwr.holdFrom = .lit) →
          t.dev = .safe ∧ t.flt.safeCause = s.pwr.holdSafe ∧ ∀ c : ChanIx, (t.em[c]).en = none) ∧
        ∀ h : HeadIx, (s.head[h]).on = true → (t.head[h]).blank = true)) ∧
  (∀ (s : State) (t0 : Nat) (rail : Rail),
    (s.pwr.due = none ∨ max s.now t0 < s.pwr.dueAt →
      exec (.supplyResetLevel t0 rail) s = .next { s with
        now := max s.now t0, pwr := { s.pwr.lower rail with due := some .brownout, dueAt := max s.now t0 } } ∧
      exec (.resetNAssert t0) s = .next { s with
        now := max s.now t0, pwr := { s.pwr with resetPin := true, due := some .resetN, dueAt := max s.now t0 } } ∧
      (s.dev ≠ .boot → ∃ t, exec (.watchdogExpiry t0) s = .next t ∧ t.flt.seq = s.flt.seq + 1 ∧ t = { s with
        now := max s.now t0, flt := t.flt, pwr := { s.pwr with due := some .watchdog, dueAt := max s.now t0 } })) ∧
    (s.pwr.due.isSome = true → s.pwr.dueAt ≤ max s.now t0 →
      exec (.supplyResetLevel t0 rail) s = .next { s with now := max s.now t0, pwr := s.pwr.lower rail } ∧
      exec (.resetNAssert t0) s = .next { s with now := max s.now t0, pwr := { s.pwr with resetPin := true } } ∧
      (s.dev ≠ .boot → ∃ t, exec (.watchdogExpiry t0) s = .next t ∧ t.flt.seq = s.flt.seq + 1 ∧
        t = { s with now := max s.now t0, flt := t.flt })) ∧
    (s.dev = .boot → exec (.watchdogExpiry t0) s = .next { s with now := max s.now t0 })) ∧
  (∀ (s : State) (t0 : Nat),
    (s.dev = .boot → s.pwr.phase = .booting → s.pwr.bootAt + 5000000000 ≤ max s.now t0 →
      (s.pwr.due = none ∨ max s.now t0 < s.pwr.dueAt → exec (.bootTimeout t0) s = .next { s with
        now := max s.now t0, pwr := { s.pwr with otherBank := true, due := some .bootTimeout, dueAt := max s.now t0 } }) ∧
      (s.pwr.due.isSome = true → s.pwr.dueAt ≤ max s.now t0 → exec (.bootTimeout t0) s = .next { s with
        now := max s.now t0, pwr := { s.pwr with otherBank := true } })) ∧
    (s.dev ≠ .boot ∨ s.pwr.phase ≠ .booting ∨ max s.now t0 < s.pwr.bootAt + 5000000000 →
      exec (.bootTimeout t0) s = .next { s with now := max s.now t0 }))

/-- COLD_RESET, AON_POWER_LOSS and WARM_RESET. -/
def Obligations.ResetsKeepAndClear : Prop :=
  (∀ (s : State) (t0 : Nat),
    ∃ t, exec (.coldReset t0) s = .next t ∧ t.dev = .boot ∧ t.now = max s.now t0 ∧ t.pending = s.pending ∧
      t.par = State.reset.par ∧ (∀ q : SessIx, (t.acm.sess[q]).open_ = false) ∧ t.acm.accepted = [] ∧
      (∀ c : Copy, t.mem.cells c = []) ∧ (∀ c : ChanIx, (t.em[c]).en = none) ∧ t.flt = State.reset.flt ∧
      (∀ k e, s.fw.topEpoch = some (k, e) → e ≠ 0xFFFFFFFF → t.acm.epoch = e + 1) ∧
      (∀ k, s.fw.topEpoch = some (k, 0xFFFFFFFF) →
        t.acm.epoch = 1 ∧ t.fw.cascKey = none ∧ ∀ q : SessIx, t.fw.keys[q] = none) ∧
      (s.fw.topEpoch = none → t.acm.epoch = 1) ∧ t.fw.banks = s.fw.banks ∧ t.fw.recs = s.fw.recs ∧
      t.isl = { s.isl with reported := false } ∧ t.anc.pinA = s.anc.pinA ∧ t.anc.pinB = s.anc.pinB ∧ t.jtag = s.jtag ∧
      t.pwr.resetPin = s.pwr.resetPin ∧ t.eth.gpio = s.eth.gpio ∧ (∀ h : HeadIx, (t.pln[h]).rdy = (s.pln[h]).rdy) ∧
      t.pwr.cause = .powerOn) ∧
  (∀ s : State,
    ∃ t, exec .aonPowerLoss s = .next t ∧ t.dev = .boot ∧ t.pwr.aonUp = false ∧ t.pwr.due = none ∧
      (∀ q : SessIx, t.acm.sess[q] = Session.closed) ∧ t.acm.accepted = [] ∧ t.acm.intent = none ∧
      (∀ c : ChanIx, (t.em[c]).en = none) ∧ t.fw.epochs = s.fw.epochs ∧ t.fw.banks = s.fw.banks ∧
      t.isl = { s.isl with reported := false }) ∧
  (∀ (s : State) (t0 : Nat) (interrupting : Bool),
    (s.pwr.due = none ∨ max s.now t0 < s.pwr.dueAt →
      exec (.warmReset t0 interrupting) s = .next { s with now := max s.now t0 }) ∧
    (∀ cause, s.pwr.due = some cause → s.pwr.dueAt ≤ max s.now t0 →
      ∃ t, exec (.warmReset t0 interrupting) s = .next t ∧ t.dev = .boot ∧ t.now = max s.now t0 ∧ t.pwr.due = none ∧
        t.pwr.cause = cause ∧ t.pending = s.pending ∧
        t.par = { s.par with held := [] } ∧ t.tick = { s.tick with commitAt := none } ∧
        t.acm.epoch = s.acm.epoch ∧
        (∀ q : SessIx, (t.acm.sess[q]).open_ = (s.acm.sess[q]).open_ ∧ (t.acm.sess[q]).next = (s.acm.sess[q]).next ∧
          (t.acm.sess[q]).lastExec = (s.acm.sess[q]).lastExec ∧ (t.acm.sess[q]).cache = (s.acm.sess[q]).cache ∧
          (t.acm.sess[q]).held = []) ∧
        (∀ c : Copy, t.mem.cells c = s.mem.cells c) ∧ (∀ x : Fin 2, t.mem.qdr[x] = []) ∧
        (∀ c : ChanIx, (t.em[c]).en = none ∧ (t.em[c]).openF = (s.em[c]).openF ∧ (t.em[c]).shortF = (s.em[c]).shortF ∧
          (t.em[c]).faults = (s.em[c]).faults) ∧
        t.anc.discrepancy = s.anc.discrepancy ∧ t.anc.power = s.anc.power ∧ t.anc.halt = s.anc.halt ∧ t.isl = s.isl ∧
        t.fw.banks = s.fw.banks ∧ t.fw.recs = s.fw.recs ∧ s.flt.seq + 1 ≤ t.flt.seq))

/-- RESET_N_RELEASE, BOOT_COMPLETE, SERVICE_KEY_WRITE, SERVICE_FLASH_RECOVERY and BOUNDARY_SCAN_INSTRUCTION. -/
def Obligations.BootAndService : Prop :=
  (∀ (s : State) (t0 : Nat) (g r : Bool), s.dev = .boot → s.pwr.phase = .inReset → s.pwr.aonUp = true → s.pwr.due = none →
    (s.pwr.cause = .brownout → s.pwr.coreLow = false ∧ s.pwr.a18Low = false) →
    ∃ t, exec (.resetNRelease t0 g r) s = .next t ∧
      t = { s with now := max s.now t0, tick := t.tick, pwr := t.pwr, flt := t.flt, free := t.free, out := t.out } ∧
      t.tick = (if s.pwr.cause = .powerOn ∨ s.pwr.cause = .restore
        then { s.tick with edgeAt := max s.now t0, nextEdge := max s.now t0 + s.tick.period } else s.tick) ∧
      t.pwr.resetPin = false ∧ t.pwr.bootAt = max s.now t0 ∧ t.pwr.gpio15 = g ∧
      (s.pwr.cause = .powerOn ∨ s.pwr.cause = .restore → t.pwr.cascRole = r) ∧
      (s.pwr.cause ≠ .powerOn → s.pwr.cause ≠ .restore → t.pwr.cascRole = s.pwr.cascRole) ∧
      (g = true → t.pwr.phase = .service ∧ t.flt = (s.coldEntry).flt) ∧
      (g = false → s.fw.bootCopy s.pwr.otherBank s.pwr.bankB = none → t.pwr.phase = .noBank ∧ t.flt = (s.coldEntry).flt) ∧
      (∀ k, g = false → s.fw.bootCopy s.pwr.otherBank s.pwr.bankB = some k →
        t.pwr.phase = .booting ∧ t.pwr.bankB = recBankB s.fw.recs[k] ∧
          ((s.fw.bootOrder s.pwr.otherBank s.pwr.bankB).head? = some k → t.flt = (s.coldEntry).flt) ∧
          ((s.fw.bootOrder s.pwr.otherBank s.pwr.bankB).head? ≠ some k → t.flt.seq = (s.coldEntry).flt.seq + 1))) ∧
  (∀ s : State, (s.pwr.cause = .powerOn ∨ s.pwr.cause = .restore → s.coldEntry.flt.seq = s.flt.seq + 1) ∧
    (s.pwr.cause ≠ .powerOn → s.pwr.cause ≠ .restore → s.coldEntry = s)) ∧
  (∀ (s : State) (t0 : Nat) (g r : Bool),
    (s.dev ≠ .boot ∨ s.pwr.phase ≠ .inReset ∨ s.pwr.aonUp = false ∨ s.pwr.due ≠ none ∨
      (s.pwr.cause = .brownout ∧ (s.pwr.coreLow = true ∨ s.pwr.a18Low = true))) →
    exec (.resetNRelease t0 g r) s = .next { s with now := max s.now t0, pwr := { s.pwr with resetPin := false } }) ∧
  (∀ (s : State) (t0 : Nat) (readable : Bool) (d : Vector (Fin 4) 8), s.dev = .boot → s.pwr.phase = .booting →
    s.pwr.due = none →
    (readable = true → s.storeOk = true →
      ∃ t : State, exec (.bootComplete t0 readable d) s = .next t.replay ∧ t.dev = (if s.flt.safeCause = 0 then .standby else .safe) ∧
        t.acm.keys = s.fw.keys ∧ t.acm.commKey = s.fw.commKey ∧ t.bly.base = 0 ∧ t.bly.startNs = max s.now t0 ∧
        t.pwr.phase = .done ∧ t.par = s.par ∧ (∀ c : Copy, t.mem.cells c = s.mem.cells c) ∧
        (∀ k : Fin 8, t.mem.density ≤ (d[k]).1) ∧
        (∀ r : RopeIx, s.flt.spare[r] = true → t.flt.packs[r] = (planOf s.par.active).map (fun e => (e.task, e.head))) ∧
        (s.acm.intent = none → (∀ m ∈ s.acm.accepted, m.old = false) → t.replay = t) ∧
        t = { s with now := max s.now t0, dev := t.dev, mem := t.mem, flt := t.flt, acm := t.acm, bly := t.bly, pwr := t.pwr,
                     em := t.em, tch := t.tch, cas := t.cas, out := t.out } ∧
        (∀ p : PortIx, (s.cas.port[p]).link = .up → (t.cas.port[p]).link = .up) ∧ t.cas = { s.cas with port := t.cas.port }) ∧
    (readable = false ∨ s.storeOk = false →
      ∃ t, exec (.bootComplete t0 readable d) s = .next t ∧ t.dev = .boot ∧ t.pwr.cause = .restore ∧
        t.pwr.phase = .inReset ∧ t.par = State.reset.par ∧ t.isl = { s.isl with reported := false })) ∧
  (∀ (s : State) (t0 : Nat) (readable : Bool) (d : Vector (Fin 4) 8),
    s.dev ≠ .boot ∨ s.pwr.phase ≠ .booting ∨ s.pwr.due ≠ none →
    exec (.bootComplete t0 readable d) s = .next { s with now := max s.now t0 }) ∧
  (∀ (s : State) (q : SessIx) (key : Bytes) (f : Bool),
    (s.pwr.phase = .service →
      (∃ t, exec (.serviceKeyWrite (.host q) key f) s = .next t ∧ t = { s with fw := t.fw, acm := t.acm } ∧
        t.fw = { s.fw with keys := vset s.fw.keys q (keyOf key), commKey := vset s.fw.commKey q f } ∧
        (t.acm.sess[q]).open_ = false ∧ (t.acm.sess[q]).helloCount = (s.acm.sess[q]).helloCount ∧ (∀ k : SessIx, k ≠ q → t.acm.sess[k] = s.acm.sess[k]) ∧
        ∀ m ∈ t.acm.accepted, m.session ≠ q) ∧
      exec (.serviceKeyWrite .cascade key f) s = .next { s with fw := { s.fw with cascKey := keyOf key } }) ∧
    (s.pwr.phase ≠ .service → ∀ slot, exec (.serviceKeyWrite slot key f) s = .next s)) ∧
  (∀ (s : State) (b : Bool) (image record : Bytes),
    (s.pwr.phase = .service ∨ s.pwr.phase = .noBank → s.fw.bootCopy false false = none →
      exec (.serviceFlashRecovery b image record) s = .next { s with fw := { s.fw with
        banks := vset s.fw.banks (bankIx b) image, recs := vset s.fw.recs s.fw.spareCopy record } }) ∧
    ((s.pwr.phase ≠ .service ∧ s.pwr.phase ≠ .noBank) ∨ s.fw.bootCopy false false ≠ none →
      exec (.serviceFlashRecovery b image record) s = .next s)) ∧
  (∀ (s : State) (op : JtagInstr),
    exec (.boundaryScanInstruction false op) s = .next s ∧
    ((op = .bypass ∨ op = .idcode ∨ s.pwr.resetPin = true) →
      exec (.boundaryScanInstruction true op) s = .next { s with jtag := op }) ∧
    (op ≠ .bypass → op ≠ .idcode → s.pwr.resetPin = false → exec (.boundaryScanInstruction true op) s = .next s))

/-- ROPE_FAILURE, ROPE_SPARE_TAKEOVER and SPARE_SELF_TEST. -/
def Obligations.RopesAreSpared : Prop :=
  (∀ (s : State) (r : RopeIx) (cause : RopeCause), s.dev ≠ .boot → s.flt.failed[r] = false → s.flt.removed[r] = false →
    ∃ t, exec (.ropeFailure r cause) s = .next t ∧ t = { s with head := t.head, flt := t.flt } ∧
      t.flt.failed = vset s.flt.failed r true ∧
      (s.flt.spare[r] = false → t.flt.waiting = s.flt.waiting ++ [⟨r, cause⟩] ∧ t.flt.spare = s.flt.spare ∧
        t.flt.seq = s.flt.seq) ∧
      (s.flt.spare[r] = true → t.flt.waiting = s.flt.waiting ∧ t.flt.spare = vset s.flt.spare r false ∧
        t.flt.seq = s.flt.seq + 1)) ∧
  (∀ (s : State) (r : RopeIx) (cause : RopeCause), s.dev = .boot ∨ s.flt.failed[r] = true →
    exec (.ropeFailure r cause) s = .next s) ∧
  (∀ s : State, s.flt.waiting = [] → exec .ropeSpareTakeover s = .next s) ∧
  (∀ (s : State) (f : RopeFail) (rest : List RopeFail), s.flt.waiting = f :: rest →
    ∃ t, exec .ropeSpareTakeover s = .next t ∧ t = { s with free := t.free, flt := t.flt, acm := t.acm, out := t.out } ∧
      t.flt.waiting = rest ∧ t.flt.seq = s.flt.seq + 1 ∧ t.flt.failed = s.flt.failed ∧
      (∀ sp : RopeIx, s.flt.spare[sp] = true → (∀ r : RopeIx, r.1 < sp.1 → s.flt.spare[r] = false) →
        t.flt.share[sp] = s.flt.share[f.rope] ∧ t.flt.spare = vset s.flt.spare sp false ∧
        t.flt.spared = inc 32 s.flt.spared ∧ (f.rope ≠ sp → t.flt.share[f.rope] = none) ∧
        ∀ r : RopeIx, r ≠ sp → r ≠ f.rope → t.flt.share[r] = s.flt.share[r]) ∧
      ((∀ r : RopeIx, s.flt.spare[r] = false) → t.flt.spared = s.flt.spared ∧ t.flt.spare = s.flt.spare ∧
        ∀ e, s.flt.share[f.rope] = some e → e ∈ t.flt.bare ∨ ∃ r : RopeIx, t.flt.share[r] = some e)) ∧
  (∀ (s : State) (r : RopeIx),
    exec (.spareSelfTest r true) s = .next s ∧
    (s.flt.spare[r] = false → exec (.spareSelfTest r false) s = .next s) ∧
    (s.flt.spare[r] = true → ∃ t, exec (.spareSelfTest r false) s = .next t ∧ t = { s with flt := t.flt } ∧
      t.flt.spare = vset s.flt.spare r false ∧ t.flt.removed = vset s.flt.removed r true ∧ t.flt.seq = s.flt.seq + 1))

/-- THERMAL_CONVERSION and ROPE_LEVEL_FALL. -/
def Obligations.ThermalLevelsFollow : Prop :=
  (∀ (s : State) (t0 : Nat) (i : ThermIn) (d : Fin 24) (c : Int), i = .die d →
    ∃ t low, exec (.thermalConversion t0 i (.die c)) s = .next t ∧ (fitsS16 c = true → low = c) ∧
      t = { s with now := max s.now t0, free := t.free, thm := t.thm, clk := t.clk, flt := t.flt, dev := t.dev, pwr := t.pwr,
                   em := t.em, tch := t.tch, bly := t.bly } ∧
      (t.thm.die[d]).low = low ∧ (t.thm.die[d]).nBad = 0 ∧ t.thm.rem = s.thm.rem ∧
      (t.thm.die[d]).throt = (if (s.thm.die[d]).throt then decide ((s.levels i).throt - (s.levels i).hyst ≤ low)
        else decide ((s.levels i).throt ≤ low) && decide (1 ≤ (s.thm.die[d]).nThrot)) ∧
      (∀ k : Fin 24, k ≠ d → t.thm.die[k] = s.thm.die[k]) ∧
      (12500 ≤ low → s.dev = .standby ∨ s.dev = .armed ∨ s.dev = .lit →
        t.dev = .safe ∧ t.flt.safeCause = causeTemperature ∧ ∀ k : ChanIx, (t.em[k]).en = none) ∧
      (low < 12500 → t.dev = s.dev)) ∧
  (∀ (s : State) (t0 : Nat) (i : ThermIn) (k : Fin 16) (r : ThermReading), i = .remote k →
    (s.readingFits i r = true →
      ∃ t low, exec (.thermalConversion t0 i r) s = .next t ∧
        t = { s with now := max s.now t0, free := t.free, thm := t.thm, flt := t.flt, dev := t.dev, pwr := t.pwr, em := t.em,
                     tch := t.tch, bly := t.bly } ∧
        (t.thm.rem[k]).low = low ∧ t.thm.die = s.thm.die ∧ (∀ j : Fin 16, j ≠ k → t.thm.rem[j] = s.thm.rem[j]) ∧
        (s.remoteBad k r low = true → (t.thm.rem[k]).nBad = min 2 ((s.thm.rem[k]).nBad + 1) ∧
          (1 ≤ (s.thm.rem[k]).nBad → (t.thm.rem[k]).fault = true)) ∧
        (s.remoteBad k r low = false → (t.thm.rem[k]).nBad = 0 ∧ ((s.thm.rem[k]).fault = false → (t.thm.rem[k]).fault = false))) ∧
    (s.readingFits i r = false → exec (.thermalConversion t0 i r) s = .next { s with now := max s.now t0 })) ∧
  (∀ (s : State) (t0 : Nat),
    (s.wantLevel < s.levelSet → (∀ a, s.thm.levelAt = some a → a + 100000000 ≤ max s.now t0) →
      ∃ t, exec (.ropeLevelFall t0) s = .next t ∧ t = { s with now := max s.now t0, clk := t.clk, thm := t.thm, flt := t.flt } ∧
        t.clk = (if s.onGuard 1 then { s.clk with divHeld := some s.wantLevel } else { s.clk with level := s.wantLevel }) ∧
        t.thm.levelAt = some (max s.now t0) ∧ t.flt.seq = s.flt.seq + 1 ∧
        t.thm.die = s.thm.die ∧ t.thm.rem = s.thm.rem) ∧
    (s.levelSet ≤ s.wantLevel ∨ (∃ a, s.thm.levelAt = some a ∧ max s.now t0 < a + 100000000) →
      exec (.ropeLevelFall t0) s = .next { s with now := max s.now t0 }))

/-- MEMORY_REQUEST, REFRESH, MR4_POLL, SELF_REFRESH_ENTRY and PAGE_IDLE_CLOSE. That the stripe stores and the ingress buffer write
no entry is the model's choice (assumption 106). -/
def Obligations.MemoryChannelsServe : Prop :=
  (∀ (s : State) (n : LpIx) (r : MemReq),
    (s.reqFits n r = true → (s.mem.ch[n]).queue.length < 64 →
      ∃ t, exec (.memoryRequest (.lpddr n (some r) none)) s = .next t ∧ t = { s with mem := { s.mem with ch := t.mem.ch } } ∧
        (t.mem.ch[n]).queue.map (·.req) = (s.mem.ch[n]).queue.map (·.req) ++ [r] ∧ (t.mem.ch[n]).selfRef = false ∧
        (t.mem.ch[n]).lastReq = s.now ∧ ∀ k : LpIx, k ≠ n → t.mem.ch[k] = s.mem.ch[k]) ∧
    (s.reqFits n r = false ∨ 64 ≤ (s.mem.ch[n]).queue.length →
      exec (.memoryRequest (.lpddr n (some r) none)) s = .next s) ∧
    (∀ pos, ∃ t, exec (.memoryRequest (.lpddr n (some r) none)) s = .next t ∧
      exec (.memoryRequest (.lpddr n (some r) (some pos))) s = exec (.memoryRequest (.lpddr n none (some pos))) t) ∧
    exec (.memoryRequest (.lpddr n none none)) s = .next s) ∧
  (∀ (s : State) (n : LpIx) (pos : Nat), s.mayServe n pos = false → exec (.memoryRequest (.lpddr n none (some pos))) s = .next s) ∧
  (∀ (s : State) (n : LpIx) (pos : Nat) (q : QReq), s.mayServe n pos = true → (s.mem.ch[n]).queue[pos]? = some q →
    ∃ t, exec (.memoryRequest (.lpddr n none (some pos))) s = .next t ∧
      t = { s with free := t.free, mem := t.mem, surf := t.surf, acm := t.acm, out := t.out } ∧
      (t.mem.ch[n]).queue.map (·.req) = ((s.mem.ch[n]).queue.eraseIdx pos).map (·.req) ∧
      (reqIsRead q.req = false → q.req.addr % 64 + q.req.data.length ≤ 64 →
        Landed s t q.req.pool q.req.addr q.req.data ∧
        (t.mem.ch[n]).resp = (if (if q.req.pool then s.burstFailed .primary (q.req.addr / 64) && s.burstFailed .mirror (q.req.addr / 64)
          else s.burstFailed .normal (q.req.addr / 64)) then some ([], true) else none)) ∧
      (reqIsRead q.req = true → q.req.pool = false → (∀ c : Copy, t.mem.cells c = s.mem.cells c) ∧
        (CopyGood s .normal q.req → (t.mem.ch[n]).resp = some (memRead s.mem.normal q.req.addr q.req.len, false) ∧
          t = { s with mem := { s.mem with ch := t.mem.ch } }) ∧
        (¬ CopyGood s .normal q.req → (t.mem.ch[n]).resp = some (zeros q.req.len, true))) ∧
      (reqIsRead q.req = true → q.req.pool = true →
        (∀ c : Copy, c ≠ .primary → t.mem.cells c = s.mem.cells c) ∧
        (CopyGood s .primary q.req → (t.mem.ch[n]).resp = some (memRead s.mem.primary q.req.addr q.req.len, false) ∧
          t.mem.primary = s.mem.primary) ∧
        (¬ CopyGood s .primary q.req → CopyGood s .mirror q.req →
          (t.mem.ch[n]).resp = some (memRead s.mem.mirror q.req.addr q.req.len, false) ∧
          ∀ a, memGet t.mem.primary a = (if a / 64 = q.req.addr / 64 ∧ s.burstFailed .primary (q.req.addr / 64) = false
            then memGet s.mem.mirror a else memGet s.mem.primary a)) ∧
        (¬ CopyGood s .primary q.req → ¬ CopyGood s .mirror q.req →
          (t.mem.ch[n]).resp = some (zeros q.req.len, true) ∧ t.mem.primary = s.mem.primary))) ∧
  (∀ (s : State) (x : Fin 2) (word : Nat) (d : BitVec 64) (e : EccErr),
    (8 * word + 8 ≤ qdrBytes (s.pN P.MEM_QDR_SIZE x.1) →
      (∃ t, exec (.memoryRequest (.qdr x word (some d) e)) s = .next t ∧
        t = { s with mem := { s.mem with qdr := t.mem.qdr, qpoison := t.mem.qpoison } } ∧
        memRead t.mem.qdr[x] (8 * word) 8 = toLE 8 d.toNat ∧ (t.mem.qpoison[x]).contains word = false ∧
        (∀ a, a < 8 * word ∨ 8 * word + 8 ≤ a → memGet t.mem.qdr[x] a = memGet s.mem.qdr[x] a) ∧
        ∀ y : Fin 2, y ≠ x → t.mem.qdr[y] = s.mem.qdr[y]) ∧
      ∃ t, exec (.memoryRequest (.qdr x word none e)) s = .next t ∧
        t = { s with free := t.free, mem := t.mem, acm := t.acm, out := t.out } ∧ t.mem.qdr = s.mem.qdr ∧
        ((s.mem.qpoison[x]).contains word = true ∨ (∃ w, e = .uncorrectable w) → t.mem.qresp[x] = some (zeros 8, true) ∧
          t.mem.que[x] = inc 32 s.mem.que[x] ∧ t.mem.errCount = s.mem.errCount + 1) ∧
        ((s.mem.qpoison[x]).contains word = false → (∀ w, e ≠ .uncorrectable w) →
          t.mem.qresp[x] = some (memRead s.mem.qdr[x] (8 * word) 8, false) ∧ t.mem.que = s.mem.que ∧
          t.mem.errCount = s.mem.errCount ∧
          t.mem.qce[x] = (if e = .single then inc 32 s.mem.qce[x] else s.mem.qce[x]))) ∧
    (qdrBytes (s.pN P.MEM_QDR_SIZE x.1) < 8 * word + 8 → ∀ w, exec (.memoryRequest (.qdr x word w e)) s = .next s)) ∧
  (∀ (s : State) (r : ChipRegion),
    (r = .supervisor ∨ r = .codec → ∃ t, exec (.memoryRequest (.chip r)) s = .next t ∧ t = { s with flt := t.flt } ∧
      t.flt.seq = s.flt.seq + 1) ∧
    (r = .stripes ∨ r = .ingress → exec (.memoryRequest (.chip r)) s = .next s)) ∧
  (∀ (s : State) (n : LpIx),
    ((s.mem.ch[n]).selfRef = false → s.mcWaits n = false → exec (.refresh n) s = .next { s with mem := { s.mem with
      ch := vmod s.mem.ch n (fun c => { c with refreshes := c.refreshes + 1, openRow := Vector.replicate 16 none }) } }) ∧
    ((s.mem.ch[n]).selfRef = false → s.mcWaits n = true → exec (.refresh n) s = .next { s with mem := { s.mem with
      ch := vmod s.mem.ch n (fun c => { c with owed := c.owed + 1 }) } }) ∧
    ((s.mem.ch[n]).selfRef = true → exec (.refresh n) s = .next s)) ∧
  (∀ (s : State) (n : LpIx),
    ((s.mem.ch[n]).selfRef = false →
      exec (.mr4Poll n .below85) s = .next { s with mem := { s.mem with
        ch := vmod s.mem.ch n (fun c => { c with rate := if (s.mem.ch[n]).below then 0 else (s.mem.ch[n]).rate, below := true, mr4Due := false }) } } ∧
      exec (.mr4Poll n .atLeast85) s = .next { s with mem := { s.mem with
        ch := vmod s.mem.ch n (fun c => { c with rate := 1, below := false, mr4Due := false }) } } ∧
      ∃ t, exec (.mr4Poll n .aboveLimit) s = .next t ∧ t = { s with mem := t.mem, flt := t.flt } ∧ (t.mem.ch[n]).rate = 2 ∧
        (∀ c : Copy, t.mem.cells c = s.mem.cells c) ∧ t.flt.seq = s.flt.seq + 1 ∧ t.mem.errCount = s.mem.errCount + 1) ∧
    ((s.mem.ch[n]).selfRef = true → ∀ r, exec (.mr4Poll n r) s = .next s)) ∧
  (∀ (s : State) (t0 : Nat) (n : LpIx) (bank : Fin 16),
    (s.pB P.MEM_SR_EN = true → (s.mem.ch[n]).queue = [] →
      (s.mem.ch[n]).lastReq + 1000 * s.pN P.MEM_SR_IDLE_US ≤ max s.now t0 →
      exec (.selfRefreshEntry ⟨t0, n⟩) s = .next { s with now := max s.now t0, mem := { s.mem with
        ch := vmod s.mem.ch n (fun c => { c with selfRef := true, openRow := Vector.replicate 16 none }) } }) ∧
    (s.pB P.MEM_SR_EN = false ∨ (s.mem.ch[n]).queue ≠ [] ∨
      max s.now t0 < (s.mem.ch[n]).lastReq + 1000 * s.pN P.MEM_SR_IDLE_US →
      exec (.selfRefreshEntry ⟨t0, n⟩) s = .next { s with now := max s.now t0 }) ∧
    ((s.mem.ch[n]).lastAcc[bank] + s.pN P.MEM_IDLE_NS (n.1 / 2) ≤ max s.now t0 →
      exec (.pageIdleClose ⟨t0, n⟩ bank) s = .next { s with now := max s.now t0, mem := { s.mem with
        ch := vmod s.mem.ch n (fun c => { c with openRow := vset c.openRow bank none }) } }) ∧
    (max s.now t0 < (s.mem.ch[n]).lastAcc[bank] + s.pN P.MEM_IDLE_NS (n.1 / 2) →
      exec (.pageIdleClose ⟨t0, n⟩ bank) s = .next { s with now := max s.now t0 }))

/-- PATROL_SCRUB, QDR_SCRUB, MC_FAILED and MC_REQUEST_WAIT_EXPIRY. -/
def Obligations.MemoryErrorsContained : Prop :=
  (∀ (s : State) (n : LpIx) (addr a : Nat) (c : Copy), s.patrolPlace n addr = some (c, a) → s.burstFailed c (a / 64) = false →
    ((s.mem.poisoned c).contains (a / 8) = false → exec (.patrolScrub n addr .none) s = .next s ∧
      exec (.patrolScrub n addr .single) s = .next { s with mem := { s.mem with
      ch := vmod s.mem.ch n (fun x => { x with ce := inc 32 x.ce }) } }) ∧
    ∀ e, (s.mem.poisoned c).contains (a / 8) = true ∨ (∃ w, e = .uncorrectable w) →
      ∃ t, exec (.patrolScrub n addr e) s = .next t ∧
        t = { s with free := t.free, mem := t.mem, surf := t.surf, acm := t.acm, out := t.out } ∧
        (t.mem.ch[n]).ue = inc 32 (s.mem.ch[n]).ue ∧ t.mem.errCount = s.mem.errCount + 1 ∧
        ∀ k : Copy, t.mem.cells k = s.mem.cells k) ∧
  (∀ (s : State) (n : LpIx) (addr : Nat) (e : EccErr),
    (s.patrolPlace n addr = none ∨ ∃ c a, s.patrolPlace n addr = some (c, a) ∧ s.burstFailed c (a / 64) = true) →
    exec (.patrolScrub n addr e) s = .next s) ∧
  (∀ (s : State) (x : Fin 2) (word : Nat),
    (8 * word + 8 ≤ qdrBytes (s.pN P.MEM_QDR_SIZE x.1) →
      ((s.mem.qpoison[x]).contains word = false → exec (.qdrScrub x word .none) s = .next s ∧
        exec (.qdrScrub x word .single) s = .next { s with mem := { s.mem with qce := vmod s.mem.qce x (fun k => inc 32 k) } }) ∧
      ∀ e, (s.mem.qpoison[x]).contains word = true ∨ (∃ w, e = .uncorrectable w) →
        ∃ t, exec (.qdrScrub x word e) s = .next t ∧ t = { s with free := t.free, mem := t.mem, acm := t.acm, out := t.out } ∧
          t.mem.que[x] = inc 32 s.mem.que[x] ∧ t.mem.errCount = s.mem.errCount + 1 ∧ t.mem.qdr = s.mem.qdr ∧
          (t.mem.qpoison[x]).contains word = true ∧ ∀ k : Copy, t.mem.cells k = s.mem.cells k) ∧
    (qdrBytes (s.pN P.MEM_QDR_SIZE x.1) < 8 * word + 8 → ∀ e, exec (.qdrScrub x word e) s = .next s)) ∧
  (∀ (s : State) (t0 : Nat) (m : Fin 4) (retrain : Bool),
    (retrain = true ∨ 16 < ((s.mem.ueAt[m]).filter (fun q => decide (max s.now t0 < q + 1000000))).length →
      (s.mem.failed[m] = false →
        ∃ t, exec (.mcFailed t0 m retrain) s = .next t ∧
          t = { s with now := max s.now t0, free := t.free, mem := t.mem, flt := t.flt, dev := t.dev, pwr := t.pwr, em := t.em,
                       tch := t.tch, bly := t.bly, acm := t.acm, out := t.out } ∧
          t.mem.failed = vset s.mem.failed m true ∧ (∀ k : Copy, t.mem.cells k = s.mem.cells k) ∧
          t.mem.errCount = s.mem.errCount + 1 ∧
          (pairFailed t.mem.failed = true → s.dev = .standby ∨ s.dev = .armed ∨ s.dev = .lit →
            t.dev = .safe ∧ t.flt.safeCause = causeMemory ∧ ∀ c : ChanIx, (t.em[c]).en = none) ∧
          (pairFailed t.mem.failed = false → t.dev = s.dev)) ∧
      (s.mem.failed[m] = true → exec (.mcFailed t0 m retrain) s = .next { s with now := max s.now t0 })) ∧
    (((s.mem.ueAt[m]).filter (fun q => decide (max s.now t0 < q + 1000000))).length ≤ 16 →
      exec (.mcFailed t0 m false) s = .next { s with now := max s.now t0 })) ∧
  (∀ (s : State) (n : LpIx) (pos : Nat) (q : QReq), (s.mem.ch[n]).queue[pos]? = some q → reqIsRead q.req = true →
    s.locked (Fin.ofNat 20 (10 + n.1 / 2)) = false →
    ∃ t, exec (.mcRequestWaitExpiry n pos) s = .next t ∧
      t = { s with free := t.free, mem := t.mem, surf := t.surf, acm := t.acm, out := t.out } ∧
      (t.mem.ch[n]).queue = (s.mem.ch[n]).queue.eraseIdx pos ∧ t.mem.normal = s.mem.normal ∧ t.mem.mirror = s.mem.mirror ∧
      (q.req.pool = false → (t.mem.ch[n]).resp = some (zeros q.req.len, true)) ∧
      (q.req.pool = true → CopyGood s .mirror q.req →
        (t.mem.ch[n]).resp = some (memRead s.mem.mirror q.req.addr q.req.len, false)) ∧
      (q.req.pool = true → ¬ CopyGood s .mirror q.req → (t.mem.ch[n]).resp = some (zeros q.req.len, true))) ∧
  (∀ (s : State) (n : LpIx) (pos : Nat), s.locked (Fin.ofNat 20 (10 + n.1 / 2)) = true ∨ (s.mem.ch[n]).queue[pos]? = none ∨
    (∃ q, (s.mem.ch[n]).queue[pos]? = some q ∧ reqIsRead q.req = false) → exec (.mcRequestWaitExpiry n pos) s = .next s)

/-- TOUCH_FRAME_DONE, TOUCH_LATE and TOUCH_STUCK. -/
def Obligations.TouchFramesEvaluated : Prop :=
  (∀ (s : State) (h : HeadIx) (f : TouchFrame) (rest : List TouchFrame), (s.tch[h]).ready = f :: rest →
    s.now ≤ f.ended + s.tick.period →
    ∃ t, exec (.touchFrameDone h) s = .next t ∧
      t = { s with free := t.free, tch := t.tch, acm := t.acm, out := t.out, mem := { s.mem with
        qdr := t.mem.qdr, qpoison := t.mem.qpoison, que := t.mem.que, errLog := t.mem.errLog, errCount := t.mem.errCount
        evAt := t.mem.evAt } } ∧
      (t.tch[h]).ready = rest ∧ (t.tch[h]).tick = f.tick ∧ (∀ k : HeadIx, k ≠ h → t.tch[k] = s.tch[k]) ∧
      (f.blank = true ∨ f.lit = false ∨ s.entryBare 2 h.1 = true →
        (t.tch[h]).contacts = [] ∧ (t.tch[h]).unlit = true ∧ t.mem = s.mem ∧ (t.tch[h]).stage = (s.tch[h]).stage) ∧
      (f.blank = false → f.lit = true → s.entryBare 2 h.1 = false → (t.tch[h]).unlit = false ∧
        ((s.tch[h]).stage = .restart → (t.tch[h]).stage = .learn f.cfg.learn ∧ (t.tch[h]).contacts = []) ∧
        (∀ n, (s.tch[h]).stage = .learn n → (t.tch[h]).contacts = [] ∧
          (t.tch[h]).stage = (if n ≤ 1 then .run else .learn (n - 1))) ∧
        ((s.tch[h]).stage = .run → (t.tch[h]).stage = .run ∧ (t.tch[h]).contacts.length ≤ 10))) ∧
  (∀ (s : State) (h : HeadIx) (f : TouchFrame) (rest : List TouchFrame), (s.tch[h]).ready = f :: rest →
    (f.ended + s.tick.period < s.now →
      exec (.touchFrameDone h) s = .next { s with tch := vmod s.tch h (fun t => { t with ready := rest, late := inc 32 t.late }) }) ∧
    (f.ended + s.tick.period ≤ s.latest →
      exec (.touchLate h) s = .next { s with tch := vmod s.tch h (fun t => { t with ready := rest, late := inc 32 t.late }) }) ∧
    (s.latest < f.ended + s.tick.period → exec (.touchLate h) s = .next s)) ∧
  (∀ (s : State) (h : HeadIx), (s.tch[h]).ready = [] →
    exec (.touchFrameDone h) s = .next s ∧ exec (.touchLate h) s = .next s) ∧
  (∀ (s : State) (h : HeadIx) (id : Fin 16),
    ∃ t, exec (.touchStuck h id) s = .next t ∧ t = { s with tch := t.tch } ∧ (∀ k : HeadIx, k ≠ h → t.tch[k] = s.tch[k]) ∧
      (t.tch[h]).contacts.length = (s.tch[h]).contacts.length ∧
      ∀ (j : Nat) (c d : Contact), (s.tch[h]).contacts[j]? = some c → (t.tch[h]).contacts[j]? = some d →
        ((c.id = id.1 ∧ s.pN P.TCH_STUCK h.1 ≠ 0 ∧ s.pN P.TCH_STUCK h.1 < s.tick.count - c.since ∧ c.hidden = false) →
          d = { c with stuck := true }) ∧
        ((c.id ≠ id.1 ∨ s.pN P.TCH_STUCK h.1 = 0 ∨ s.tick.count - c.since ≤ s.pN P.TCH_STUCK h.1 ∨ c.hidden = true) → d = c))

/-- LAMP_SCAN_FRAME, LAMP_ROW_PERIOD and LAMP_UNDETERMINED. -/
def Obligations.LampsAreScanned : Prop :=
  (∀ s : State, s.dev ≠ .boot → (s.lmp.run = false ∨ 16 ≤ s.lmp.row) →
    (s.pB P.LMP_ENABLE = true →
      ∃ t, exec .lampScanFrame s = .next t ∧ t = { s with lmp := t.lmp, out := .lampSync :: s.out } ∧ t.lmp.row = 0 ∧
        t.lmp.cfg = s.lampCfg ∧ t.lmp.run = true ∧ t.lmp.faults = s.lmp.faults ∧
        (s.lmp.run = true → t.lmp.lamps = s.lmp.lamps ∧ t.lmp.frame = s.lmp.frame + 1) ∧
        (s.lmp.run = false → t.lmp.frame = 0 ∧ ∀ n : Fin 256, (t.lmp.lamps[n]).acc = 0 ∧
          (t.lmp.lamps[n]).fault = (s.lmp.lamps[n]).fault) ∧
        (∀ b, s.lmp.back = some b → s.pB P.LMP_MODE = false → t.lmp.front = b ∧ t.lmp.back = none)) ∧
    (s.pB P.LMP_ENABLE = false → ∃ t, exec .lampScanFrame s = .next t ∧ t = { s with lmp := t.lmp } ∧ t.lmp.run = false ∧
      t.lmp.lamps = s.lmp.lamps)) ∧
  (∀ (s : State) (q : Vector LampSense 16), s.lmp.run = true → s.lmp.row < 16 →
    ∃ t, exec (.lampRowPeriod q) s = .next t ∧ t = { s with lmp := t.lmp, flt := t.flt, out := t.out } ∧
      t.lmp.row = s.lmp.row + 1 ∧ t.lmp.cfg = s.lmp.cfg ∧
      (∃ a, t.out = a ++ .lampRow (Fin.ofNat 16 s.lmp.row) (!s.pB P.LMP_ROW_POL) s.lmp.cfg.blankSteps s.lmp.cfg.window :: s.out) ∧
      (∀ n : Fin 256, n.1 / 16 ≠ s.lmp.row → t.lmp.lamps[n] = s.lmp.lamps[n]) ∧
      (∀ n : Fin 256, n.1 / 16 = s.lmp.row → (t.lmp.lamps[n]).acc < 65536 ∧
        ((s.lmp.lamps[n]).fault ≠ 0 → (t.lmp.lamps[n]).fault = (s.lmp.lamps[n]).fault))) ∧
  (∀ (s : State) (q : Vector LampSense 16),
    (s.dev = .boot ∨ (s.lmp.run = true ∧ s.lmp.row < 16) → exec .lampScanFrame s = .next s) ∧
    (s.lmp.run = false ∨ 16 ≤ s.lmp.row → exec (.lampRowPeriod q) s = .next s)) ∧
  (∀ (s : State) (n : Fin 256), s.lmp.run = false ∨ s.lmp.code n.1 = 0 ∨ (s.lmp.lamps[n]).since < 64 →
    exec (.lampUndetermined n) s = .next s) ∧
  (∀ (s : State) (n : Fin 256), s.lmp.run = true → s.lmp.code n.1 ≠ 0 → 64 ≤ (s.lmp.lamps[n]).since →
    exec (.lampUndetermined n) s = .next { s with lmp := { s.lmp with lamps := vset s.lmp.lamps n { s.lmp.lamps[n] with undet := true } } })

/-- TRAVERSE_LINK_UP, TRAVERSE_LINK_LOSS, LINK_FRAME, TICK_FRAME and MASTER_TAKEOVER. -/
def Obligations.CascadeFollowsAMaster : Prop :=
  (∀ (s : State) (p : PortIx), s.dev ≠ .boot → bit (s.pN P.CAS_PORTS) p.1 = true → (s.cas.port[p]).held = false →
    (s.cas.port[p]).link ≠ .up → s.locked (Fin.ofNat 20 (16 + p.1)) = true →
    ∃ t, exec (.traverseLinkUp p) s = .next t ∧ t = { s with cas := t.cas } ∧
      t.cas.port[p] = { s.cas.port[p] with link := .up } ∧ t.cas.port[1 - p] = s.cas.port[1 - p]) ∧
  (∀ (s : State) (p : PortIx), s.dev = .boot ∨ bit (s.pN P.CAS_PORTS) p.1 = false ∨ (s.cas.port[p]).held = true ∨
    (s.cas.port[p]).link = .up ∨ s.locked (Fin.ofNat 20 (16 + p.1)) = false → exec (.traverseLinkUp p) s = .next s) ∧
  (∀ (s : State) (t0 : Nat) (p : PortIx),
    ((s.cas.port[p]).link = .up →
      ∃ t, exec (.traverseLinkLoss t0 p) s = .next t ∧ t = { s with now := max s.now t0, cas := t.cas, flt := t.flt } ∧
        (t.cas.port[p]).link = s.travIdle p ∧ (∀ d : Fin 8, (t.cas.port[p]).hops[d] = none) ∧ t.flt.seq = s.flt.seq + 1 ∧
        t.cas.port[1 - p] = s.cas.port[1 - p]) ∧
    ((s.cas.port[p]).link ≠ .up → exec (.traverseLinkLoss t0 p) s = .next { s with now := max s.now t0 })) ∧
  (∀ (s u : State) (t0 : Nat) (p : PortIx) (frame : Bytes) (f : Trav),
    ({ s with now := max s.now t0 } : State).travTake p kindLink frame = (u, some f) → f.src < 8 →
    ({ s with now := max s.now t0 } : State).duplicate p (travOf frame) = false →
    ∃ t, exec (.linkFrame t0 p frame) s = .next t ∧ t = { s with now := max s.now t0, cas := t.cas, out := t.out } ∧
      ((t.cas.port[p]).hops[(Fin.ofNat 8 f.src : Fin 8)]) = some (8 - f.hops, 0) ∧
      (t.cas.port[p]).link = (s.cas.port[p]).link ∧
      (∀ d : Fin 8, d ≠ Fin.ofNat 8 f.src → (t.cas.port[p]).hops[d] = (s.cas.port[p]).hops[d])) ∧
  (∀ (s : State) (t0 : Nat) (p : PortIx) (frame : Bytes), s.travUp p = true → s.clockLost (serdesTrav p) = false → (travOf frame).kind = kindLink →
    s.travTagOk frame = true → ({ s with now := max s.now t0 } : State).duplicate p (travOf frame) = true →
    ∃ t, exec (.linkFrame t0 p frame) s = .next t ∧ t = { s with now := max s.now t0, cas := t.cas, flt := t.flt } ∧
      (t.cas.port[p]).link = .down ∧ (t.cas.port[p]).held = true ∧ t.flt.seq = s.flt.seq + 1) ∧
  (∀ (s u : State) (t0 : Nat) (p : PortIx) (frame : Bytes) (f : Trav),
    ({ s with now := max s.now t0 } : State).travTake p kindTick frame = (u, some f) → f.src < 8 → u.follows f = true →
    ∃ t, exec (.tickFrame t0 p frame) s = .next t ∧
      t = { s with now := max s.now t0, free := t.free, par := t.par, tick := t.tick, stores := t.stores, col := t.col,
                   cas := t.cas, acm := t.acm, out := t.out } ∧
      t.cas.role = .slave ∧ t.cas.master = some f.src ∧ t.cas.epoch = f.cepoch ∧ t.cas.silent = 0 ∧ t.cas.heard = true ∧
      t.par = s.par ∧ t.tick.count = s.tick.count ∧ t.tick = { s.tick with commitAt := t.tick.commitAt } ∧
      (s.tick.commitAt = none → t.tick.commitAt = none)) ∧
  (∀ (s : State) (t0 : Nat),
    ((s.cas.role = .slave ∨ s.cas.role = .waiting) → s.pwr.cascRole = true → s.patience ≤ s.cas.silent →
      ∃ t, exec (.masterTakeover t0) s = .next t ∧
        t = { s with now := max s.now t0, free := t.free, cas := t.cas, acm := t.acm, out := t.out } ∧
        t.cas.role = .master ∧ t.cas.master = some s.devNum ∧ t.cas.epoch = (s.cas.epoch + 1) % 2 ^ 32 ∧ t.cas.silent = 0) ∧
    ((s.cas.role ≠ .slave ∧ s.cas.role ≠ .waiting) ∨ s.pwr.cascRole = false ∨ s.cas.silent < s.patience →
      exec (.masterTakeover t0) s = .next { s with now := max s.now t0 }))

/-- COMMIT_PREPARE, COMMIT_GO, COMMIT_ABORT_FRAME, VOTE, TRAVERSE_ACM, TRAVERSE_SURFACE, TRAVERSE_VIDEO and SEAM. -/
def Obligations.CascadeCommitsAndForwards : Prop :=
  (∀ (s u : State) (p : PortIx) (frame : Bytes) (f : Trav), s.travTake p kindCommit frame = (u, some f) →
    u.fromMaster f = true →
    (u8 f.body 0 = opPrepare →
      ∃ t, exec (.commitPrepare p frame) s = .next t ∧ t.par = s.par ∧
        t = { s with cas := t.cas, tick := { s.tick with commitAt := t.tick.commitAt }, stores := t.stores, col := t.col,
                     out := t.out } ∧
        t.cas.vote = some (u.voteOn (be64 f.body 12)) ∧
        (u.voteOn (be64 f.body 12) = 0 → t.tick.commitAt = some (be64 f.body 4)) ∧
        (u.voteOn (be64 f.body 12) ≠ 0 → t.tick.commitAt = s.tick.commitAt)) ∧
    (u8 f.body 0 = opGo →
      ∃ t, exec (.commitGo p frame) s = .next t ∧ t = { s with cas := t.cas, out := t.out } ∧ t.cas.vote = none ∧
        (s.tick.commitAt = some (be64 f.body 4) → t.cas.go = true) ∧
        (s.tick.commitAt ≠ some (be64 f.body 4) → t.cas.go = s.cas.go)) ∧
    (u8 f.body 0 = opAbort →
      ∃ t, exec (.commitAbortFrame p frame) s = .next t ∧ t.par = s.par ∧ t.cas.vote = none ∧
        t = { s with cas := t.cas, tick := { s.tick with commitAt := t.tick.commitAt }, stores := t.stores, col := t.col,
                     acm := t.acm, out := t.out } ∧
        (s.tick.commitAt = some (be64 f.body 4) → t.tick.commitAt = none) ∧
        (s.tick.commitAt ≠ some (be64 f.body 4) → t.tick.commitAt = s.tick.commitAt))) ∧
  (∀ (s u : State) (p : PortIx) (frame : Bytes) (f : Trav), s.travTake p kindVote frame = (u, some f) →
    s.cas.mine = true → s.cas.decision = .none → f.src < 8 →
    (u8 f.body 0 ≠ 0 → be64 f.body 2 = u.sharedStaged →
      ∃ t, exec (.vote p frame) s = .next t ∧ t = { s with cas := t.cas, out := t.out } ∧
        t.cas.acks = s.cas.acks ||| 2 ^ f.src ∧ t.cas.mine = true) ∧
    (u8 f.body 0 = 0 ∨ be64 f.body 2 ≠ u.sharedStaged → s.tick.commitAt.isSome = true →
      ∃ t, exec (.vote p frame) s = .next t ∧ t.tick.commitAt = none ∧ t.cas.decision = .abort ∧ t.cas.mine = false ∧
        t.par = s.par ∧ t.cas.lastAbort = f.src * 256 + (if u8 f.body 0 = 0 then u8 f.body 1 else nakDigest))) ∧
  (∀ (s u : State) (t0 : Nat) (p : PortIx) (frame : Bytes) (f : Trav),
    ({ s with now := max s.now t0 } : State).travTake p kindAcm frame = (u, some f) →
    (u8 f.body 0 = 1 → ∃ t, exec (.traverseAcm t0 p frame) s = .next t ∧
      t = { s with now := max s.now t0, cas := t.cas, out := t.out } ∧
      (∀ r ∈ t.cas.routes, ¬ (r.session = u8 f.body 1 ∧ r.device = f.src ∧ r.writeId = be32 f.body 2)) ∧
      ∀ r ∈ s.cas.routes, (r.session = u8 f.body 1 ∧ r.device = f.src ∧ r.writeId = be32 f.body 2) ∨ r ∈ t.cas.routes) ∧
    (u8 f.body 0 ≠ 1 → bit (u8 f.body 11) 7 = true → s.cas.role = .master →
      ∃ t, exec (.traverseAcm t0 p frame) s = .next t ∧ t = { s with now := max s.now t0, cas := t.cas, out := t.out } ∧
        t.out = (if s.reachable (s.viaOut (.eth (Fin.ofNat 2 (u8 f.body 1)))) (be32 f.body 4)
          then .acm ⟨s.viaOut (.eth (Fin.ofNat 2 (u8 f.body 1))), be32 f.body 4, be16 f.body 2⟩ (s.pN P.SYS_ACM_PORT)
            (f.body.drop 8) :: u.out
          else u.out)) ∧
    (u8 f.body 0 ≠ 1 → bit (u8 f.body 11) 7 = true → s.cas.role ≠ .master → exec (.traverseAcm t0 p frame) s = .next u) ∧
    (u8 f.body 0 ≠ 1 → bit (u8 f.body 11) 7 = false →
      ∃ t, exec (.traverseAcm t0 p frame) s = .next t ∧ t = { s with now := max s.now t0, cas := t.cas, acm := t.acm, out := t.out } ∧
        t.acm.keys = s.acm.keys ∧ t.acm.epoch = s.acm.epoch)) ∧
  (∀ (s u : State) (p : PortIx) (frame : Bytes) (f : Trav), s.dev ≠ .boot →
    (s.travTake p kindSurface frame = (u, some f) →
      ∃ t, exec (.traverseSurface p frame) s = .next t ∧
        t = { s with free := t.free, mem := t.mem, surf := t.surf, acm := t.acm, cas := u.cas, out := t.out } ∧
        ∀ (q : SessIx) (ix : Nat) (x : Surf) (w : Transfer), SurfaceAuthentic s f.body q →
          s.surf.refused.contains (q.1, be32 f.body 8, be32 f.body 4) = false → SurfaceTaken s f.body q ix x w →
          Landed s t x.pool (x.off + w.off + be32 f.body 12) (slice f.body 24 (be16 f.body 16))) ∧
    (s.travTake p kindSeam frame = (u, some f) → u8 f.body 0 < 8 → seamOn (s.pT P.CAS_SEAM_RX (u8 f.body 0)) = true →
      u8 (s.pT P.CAS_SEAM_RX (u8 f.body 0)) 1 = f.src →
      ∃ t, exec (.seam p frame) s = .next t ∧
        t = { s with free := t.free, mem := t.mem, surf := t.surf, acm := t.acm, cas := t.cas, out := t.out } ∧
        ∀ (ix next : Nat) (x : Surf) (y0 : Nat), (s.cas.seam[(Fin.ofNat 8 (u8 f.body 0) : Fin 8)]).filling = some (y0, next) →
          be16 f.body 2 = next → next ≠ 0 → s.surface y0 = some (ix, x) → x.kind = .packed → x.width = be16 f.body 4 → x.height = be16 f.body 6 →
          Landed s t x.pool (x.off + next * roundUp (x.width * formatBytes x.format) 64) ((f.body.drop 8).take (8 * x.width)))) ∧
  (∀ (s u : State) (t0 : Nat) (p : PortIx) (frame : Bytes) (f : Trav) (src dst udp : Nat) (d : Bytes),
    ({ s with now := max s.now t0 } : State).travTake p kindVideo frame = (u, some f) →
    udpFields (f.body.drop 1) = some (src, dst, udp, d) →
    ∃ t, exec (.traverseVideo t0 p frame) s = .next t ∧
      t = { s with now := max s.now t0, rx := t.rx, surf := t.surf, mem := t.mem, acm := t.acm, cas := u.cas, out := t.out,
                   free := t.free } ∧
      ∀ v : RxIx, (s.pB P.ETH_RX_ENABLE v.1 = false ∨ s.pN P.CAS_RX_VIA v.1 ≠ 1 ∨
        (s.pN P.ETH_RX_UDP (2 * v.1) ≠ udp ∧ s.pN P.ETH_RX_UDP (2 * v.1 + 1) ≠ udp)) → t.rx[v] = s.rx[v])
end

