-- ==== Sys2Proof/Laws/State.lean ====
section
/-! SUPPORT. What each update of the state leaves of each field: one lemma per field per update, true by `rfl`. -/

namespace Sys2Proof.Machine

/-! ### `State.atTime` -/
@[simp] theorem State.atTime_pending (s : State) (t : Nat) : (s.atTime t).pending = s.pending := rfl
@[simp] theorem State.atTime_now (s : State) (t : Nat) : (s.atTime t).now = max s.now t := rfl
@[simp] theorem State.atTime_free (s : State) (t : Nat) : (s.atTime t).free = s.free := rfl
@[simp] theorem State.atTime_dev (s : State) (t : Nat) : (s.atTime t).dev = s.dev := rfl
@[simp] theorem State.atTime_par (s : State) (t : Nat) : (s.atTime t).par = s.par := rfl
@[simp] theorem State.atTime_tick (s : State) (t : Nat) : (s.atTime t).tick = s.tick := rfl
@[simp] theorem State.atTime_acm (s : State) (t : Nat) : (s.atTime t).acm = s.acm := rfl
@[simp] theorem State.atTime_internal (s : State) (t : Nat) : (s.atTime t).internal = s.internal := rfl
@[simp] theorem State.atTime_flt (s : State) (t : Nat) : (s.atTime t).flt = s.flt := rfl
@[simp] theorem State.atTime_pwr (s : State) (t : Nat) : (s.atTime t).pwr = s.pwr := rfl
@[simp] theorem State.atTime_fw (s : State) (t : Nat) : (s.atTime t).fw = s.fw := rfl
@[simp] theorem State.atTime_eth (s : State) (t : Nat) : (s.atTime t).eth = s.eth := rfl
@[simp] theorem State.atTime_rx (s : State) (t : Nat) : (s.atTime t).rx = s.rx := rfl
@[simp] theorem State.atTime_ptp (s : State) (t : Nat) : (s.atTime t).ptp = s.ptp := rfl
@[simp] theorem State.atTime_mem (s : State) (t : Nat) : (s.atTime t).mem = s.mem := rfl
@[simp] theorem State.atTime_surf (s : State) (t : Nat) : (s.atTime t).surf = s.surf := rfl
@[simp] theorem State.atTime_comp (s : State) (t : Nat) : (s.atTime t).comp = s.comp := rfl
@[simp] theorem State.atTime_codec (s : State) (t : Nat) : (s.atTime t).codec = s.codec := rfl
@[simp] theorem State.atTime_col (s : State) (t : Nat) : (s.atTime t).col = s.col := rfl
@[simp] theorem State.atTime_sol (s : State) (t : Nat) : (s.atTime t).sol = s.sol := rfl
@[simp] theorem State.atTime_pln (s : State) (t : Nat) : (s.atTime t).pln = s.pln := rfl
@[simp] theorem State.atTime_stores (s : State) (t : Nat) : (s.atTime t).stores = s.stores := rfl
@[simp] theorem State.atTime_scn (s : State) (t : Nat) : (s.atTime t).scn = s.scn := rfl
@[simp] theorem State.atTime_em (s : State) (t : Nat) : (s.atTime t).em = s.em := rfl
@[simp] theorem State.atTime_anc (s : State) (t : Nat) : (s.atTime t).anc = s.anc := rfl
@[simp] theorem State.atTime_bly (s : State) (t : Nat) : (s.atTime t).bly = s.bly := rfl
@[simp] theorem State.atTime_head (s : State) (t : Nat) : (s.atTime t).head = s.head := rfl
@[simp] theorem State.atTime_headsRun (s : State) (t : Nat) : (s.atTime t).headsRun = s.headsRun := rfl
@[simp] theorem State.atTime_headsStop (s : State) (t : Nat) : (s.atTime t).headsStop = s.headsStop := rfl
@[simp] theorem State.atTime_gpio (s : State) (t : Nat) : (s.atTime t).gpio = s.gpio := rfl
@[simp] theorem State.atTime_tch (s : State) (t : Nat) : (s.atTime t).tch = s.tch := rfl
@[simp] theorem State.atTime_isl (s : State) (t : Nat) : (s.atTime t).isl = s.isl := rfl
@[simp] theorem State.atTime_lw (s : State) (t : Nat) : (s.atTime t).lw = s.lw := rfl
@[simp] theorem State.atTime_cas (s : State) (t : Nat) : (s.atTime t).cas = s.cas := rfl
@[simp] theorem State.atTime_clk (s : State) (t : Nat) : (s.atTime t).clk = s.clk := rfl
@[simp] theorem State.atTime_thm (s : State) (t : Nat) : (s.atTime t).thm = s.thm := rfl
@[simp] theorem State.atTime_lmp (s : State) (t : Nat) : (s.atTime t).lmp = s.lmp := rfl
@[simp] theorem State.atTime_jtag (s : State) (t : Nat) : (s.atTime t).jtag = s.jtag := rfl
@[simp] theorem State.atTime_out (s : State) (t : Nat) : (s.atTime t).out = s.out := rfl

/-! ### `State.emit` -/
@[simp] theorem State.emit_pending (s : State) (o : Out) : (s.emit o).pending = s.pending := rfl
@[simp] theorem State.emit_now (s : State) (o : Out) : (s.emit o).now = s.now := rfl
@[simp] theorem State.emit_free (s : State) (o : Out) : (s.emit o).free = s.free := rfl
@[simp] theorem State.emit_dev (s : State) (o : Out) : (s.emit o).dev = s.dev := rfl
@[simp] theorem State.emit_par (s : State) (o : Out) : (s.emit o).par = s.par := rfl
@[simp] theorem State.emit_tick (s : State) (o : Out) : (s.emit o).tick = s.tick := rfl
@[simp] theorem State.emit_acm (s : State) (o : Out) : (s.emit o).acm = s.acm := rfl
@[simp] theorem State.emit_internal (s : State) (o : Out) : (s.emit o).internal = s.internal := rfl
@[simp] theorem State.emit_flt (s : State) (o : Out) : (s.emit o).flt = s.flt := rfl
@[simp] theorem State.emit_pwr (s : State) (o : Out) : (s.emit o).pwr = s.pwr := rfl
@[simp] theorem State.emit_fw (s : State) (o : Out) : (s.emit o).fw = s.fw := rfl
@[simp] theorem State.emit_eth (s : State) (o : Out) : (s.emit o).eth = s.eth := rfl
@[simp] theorem State.emit_rx (s : State) (o : Out) : (s.emit o).rx = s.rx := rfl
@[simp] theorem State.emit_ptp (s : State) (o : Out) : (s.emit o).ptp = s.ptp := rfl
@[simp] theorem State.emit_mem (s : State) (o : Out) : (s.emit o).mem = s.mem := rfl
@[simp] theorem State.emit_surf (s : State) (o : Out) : (s.emit o).surf = s.surf := rfl
@[simp] theorem State.emit_comp (s : State) (o : Out) : (s.emit o).comp = s.comp := rfl
@[simp] theorem State.emit_codec (s : State) (o : Out) : (s.emit o).codec = s.codec := rfl
@[simp] theorem State.emit_col (s : State) (o : Out) : (s.emit o).col = s.col := rfl
@[simp] theorem State.emit_sol (s : State) (o : Out) : (s.emit o).sol = s.sol := rfl
@[simp] theorem State.emit_pln (s : State) (o : Out) : (s.emit o).pln = s.pln := rfl
@[simp] theorem State.emit_stores (s : State) (o : Out) : (s.emit o).stores = s.stores := rfl
@[simp] theorem State.emit_scn (s : State) (o : Out) : (s.emit o).scn = s.scn := rfl
@[simp] theorem State.emit_em (s : State) (o : Out) : (s.emit o).em = s.em := rfl
@[simp] theorem State.emit_anc (s : State) (o : Out) : (s.emit o).anc = s.anc := rfl
@[simp] theorem State.emit_bly (s : State) (o : Out) : (s.emit o).bly = s.bly := rfl
@[simp] theorem State.emit_head (s : State) (o : Out) : (s.emit o).head = s.head := rfl
@[simp] theorem State.emit_headsRun (s : State) (o : Out) : (s.emit o).headsRun = s.headsRun := rfl
@[simp] theorem State.emit_headsStop (s : State) (o : Out) : (s.emit o).headsStop = s.headsStop := rfl
@[simp] theorem State.emit_gpio (s : State) (o : Out) : (s.emit o).gpio = s.gpio := rfl
@[simp] theorem State.emit_tch (s : State) (o : Out) : (s.emit o).tch = s.tch := rfl
@[simp] theorem State.emit_isl (s : State) (o : Out) : (s.emit o).isl = s.isl := rfl
@[simp] theorem State.emit_lw (s : State) (o : Out) : (s.emit o).lw = s.lw := rfl
@[simp] theorem State.emit_cas (s : State) (o : Out) : (s.emit o).cas = s.cas := rfl
@[simp] theorem State.emit_clk (s : State) (o : Out) : (s.emit o).clk = s.clk := rfl
@[simp] theorem State.emit_thm (s : State) (o : Out) : (s.emit o).thm = s.thm := rfl
@[simp] theorem State.emit_lmp (s : State) (o : Out) : (s.emit o).lmp = s.lmp := rfl
@[simp] theorem State.emit_jtag (s : State) (o : Out) : (s.emit o).jtag = s.jtag := rfl
@[simp] theorem State.emit_out (s : State) (o : Out) : (s.emit o).out = o :: s.out := rfl

/-! ### `State.draw` -/
@[simp] theorem State.draw_pending (s : State) : (s.draw).pending = s.pending := rfl
@[simp] theorem State.draw_now (s : State) : (s.draw).now = s.now := rfl
@[simp] theorem State.draw_free (s : State) : (s.draw).free = s.free + 1 := rfl
@[simp] theorem State.draw_dev (s : State) : (s.draw).dev = s.dev := rfl
@[simp] theorem State.draw_par (s : State) : (s.draw).par = s.par := rfl
@[simp] theorem State.draw_tick (s : State) : (s.draw).tick = s.tick := rfl
@[simp] theorem State.draw_acm (s : State) : (s.draw).acm = s.acm := rfl
@[simp] theorem State.draw_internal (s : State) : (s.draw).internal = s.internal := rfl
@[simp] theorem State.draw_flt (s : State) : (s.draw).flt = s.flt := rfl
@[simp] theorem State.draw_pwr (s : State) : (s.draw).pwr = s.pwr := rfl
@[simp] theorem State.draw_fw (s : State) : (s.draw).fw = s.fw := rfl
@[simp] theorem State.draw_eth (s : State) : (s.draw).eth = s.eth := rfl
@[simp] theorem State.draw_rx (s : State) : (s.draw).rx = s.rx := rfl
@[simp] theorem State.draw_ptp (s : State) : (s.draw).ptp = s.ptp := rfl
@[simp] theorem State.draw_mem (s : State) : (s.draw).mem = s.mem := rfl
@[simp] theorem State.draw_surf (s : State) : (s.draw).surf = s.surf := rfl
@[simp] theorem State.draw_comp (s : State) : (s.draw).comp = s.comp := rfl
@[simp] theorem State.draw_codec (s : State) : (s.draw).codec = s.codec := rfl
@[simp] theorem State.draw_col (s : State) : (s.draw).col = s.col := rfl
@[simp] theorem State.draw_sol (s : State) : (s.draw).sol = s.sol := rfl
@[simp] theorem State.draw_pln (s : State) : (s.draw).pln = s.pln := rfl
@[simp] theorem State.draw_stores (s : State) : (s.draw).stores = s.stores := rfl
@[simp] theorem State.draw_scn (s : State) : (s.draw).scn = s.scn := rfl
@[simp] theorem State.draw_em (s : State) : (s.draw).em = s.em := rfl
@[simp] theorem State.draw_anc (s : State) : (s.draw).anc = s.anc := rfl
@[simp] theorem State.draw_bly (s : State) : (s.draw).bly = s.bly := rfl
@[simp] theorem State.draw_head (s : State) : (s.draw).head = s.head := rfl
@[simp] theorem State.draw_headsRun (s : State) : (s.draw).headsRun = s.headsRun := rfl
@[simp] theorem State.draw_headsStop (s : State) : (s.draw).headsStop = s.headsStop := rfl
@[simp] theorem State.draw_gpio (s : State) : (s.draw).gpio = s.gpio := rfl
@[simp] theorem State.draw_tch (s : State) : (s.draw).tch = s.tch := rfl
@[simp] theorem State.draw_isl (s : State) : (s.draw).isl = s.isl := rfl
@[simp] theorem State.draw_lw (s : State) : (s.draw).lw = s.lw := rfl
@[simp] theorem State.draw_cas (s : State) : (s.draw).cas = s.cas := rfl
@[simp] theorem State.draw_clk (s : State) : (s.draw).clk = s.clk := rfl
@[simp] theorem State.draw_thm (s : State) : (s.draw).thm = s.thm := rfl
@[simp] theorem State.draw_lmp (s : State) : (s.draw).lmp = s.lmp := rfl
@[simp] theorem State.draw_jtag (s : State) : (s.draw).jtag = s.jtag := rfl
@[simp] theorem State.draw_out (s : State) : (s.draw).out = s.out := rfl

/-! ### `State.modSess` -/
@[simp] theorem State.modSess_pending (s : State) (q : SessIx) (f : Session → Session) : (s.modSess q f).pending = s.pending := rfl
@[simp] theorem State.modSess_now (s : State) (q : SessIx) (f : Session → Session) : (s.modSess q f).now = s.now := rfl
@[simp] theorem State.modSess_free (s : State) (q : SessIx) (f : Session → Session) : (s.modSess q f).free = s.free := rfl
@[simp] theorem State.modSess_dev (s : State) (q : SessIx) (f : Session → Session) : (s.modSess q f).dev = s.dev := rfl
@[simp] theorem State.modSess_par (s : State) (q : SessIx) (f : Session → Session) : (s.modSess q f).par = s.par := rfl
@[simp] theorem State.modSess_tick (s : State) (q : SessIx) (f : Session → Session) : (s.modSess q f).tick = s.tick := rfl
@[simp] theorem State.modSess_acm (s : State) (q : SessIx) (f : Session → Session) : (s.modSess q f).acm = { s.acm with sess := vmod s.acm.sess q f } := rfl
@[simp] theorem State.modSess_internal (s : State) (q : SessIx) (f : Session → Session) : (s.modSess q f).internal = s.internal := rfl
@[simp] theorem State.modSess_flt (s : State) (q : SessIx) (f : Session → Session) : (s.modSess q f).flt = s.flt := rfl
@[simp] theorem State.modSess_pwr (s : State) (q : SessIx) (f : Session → Session) : (s.modSess q f).pwr = s.pwr := rfl
@[simp] theorem State.modSess_fw (s : State) (q : SessIx) (f : Session → Session) : (s.modSess q f).fw = s.fw := rfl
@[simp] theorem State.modSess_eth (s : State) (q : SessIx) (f : Session → Session) : (s.modSess q f).eth = s.eth := rfl
@[simp] theorem State.modSess_rx (s : State) (q : SessIx) (f : Session → Session) : (s.modSess q f).rx = s.rx := rfl
@[simp] theorem State.modSess_ptp (s : State) (q : SessIx) (f : Session → Session) : (s.modSess q f).ptp = s.ptp := rfl
@[simp] theorem State.modSess_mem (s : State) (q : SessIx) (f : Session → Session) : (s.modSess q f).mem = s.mem := rfl
@[simp] theorem State.modSess_surf (s : State) (q : SessIx) (f : Session → Session) : (s.modSess q f).surf = s.surf := rfl
@[simp] theorem State.modSess_comp (s : State) (q : SessIx) (f : Session → Session) : (s.modSess q f).comp = s.comp := rfl
@[simp] theorem State.modSess_codec (s : State) (q : SessIx) (f : Session → Session) : (s.modSess q f).codec = s.codec := rfl
@[simp] theorem State.modSess_col (s : State) (q : SessIx) (f : Session → Session) : (s.modSess q f).col = s.col := rfl
@[simp] theorem State.modSess_sol (s : State) (q : SessIx) (f : Session → Session) : (s.modSess q f).sol = s.sol := rfl
@[simp] theorem State.modSess_pln (s : State) (q : SessIx) (f : Session → Session) : (s.modSess q f).pln = s.pln := rfl
@[simp] theorem State.modSess_stores (s : State) (q : SessIx) (f : Session → Session) : (s.modSess q f).stores = s.stores := rfl
@[simp] theorem State.modSess_scn (s : State) (q : SessIx) (f : Session → Session) : (s.modSess q f).scn = s.scn := rfl
@[simp] theorem State.modSess_em (s : State) (q : SessIx) (f : Session → Session) : (s.modSess q f).em = s.em := rfl
@[simp] theorem State.modSess_anc (s : State) (q : SessIx) (f : Session → Session) : (s.modSess q f).anc = s.anc := rfl
@[simp] theorem State.modSess_bly (s : State) (q : SessIx) (f : Session → Session) : (s.modSess q f).bly = s.bly := rfl
@[simp] theorem State.modSess_head (s : State) (q : SessIx) (f : Session → Session) : (s.modSess q f).head = s.head := rfl
@[simp] theorem State.modSess_headsRun (s : State) (q : SessIx) (f : Session → Session) : (s.modSess q f).headsRun = s.headsRun := rfl
@[simp] theorem State.modSess_headsStop (s : State) (q : SessIx) (f : Session → Session) : (s.modSess q f).headsStop = s.headsStop := rfl
@[simp] theorem State.modSess_gpio (s : State) (q : SessIx) (f : Session → Session) : (s.modSess q f).gpio = s.gpio := rfl
@[simp] theorem State.modSess_tch (s : State) (q : SessIx) (f : Session → Session) : (s.modSess q f).tch = s.tch := rfl
@[simp] theorem State.modSess_isl (s : State) (q : SessIx) (f : Session → Session) : (s.modSess q f).isl = s.isl := rfl
@[simp] theorem State.modSess_lw (s : State) (q : SessIx) (f : Session → Session) : (s.modSess q f).lw = s.lw := rfl
@[simp] theorem State.modSess_cas (s : State) (q : SessIx) (f : Session → Session) : (s.modSess q f).cas = s.cas := rfl
@[simp] theorem State.modSess_clk (s : State) (q : SessIx) (f : Session → Session) : (s.modSess q f).clk = s.clk := rfl
@[simp] theorem State.modSess_thm (s : State) (q : SessIx) (f : Session → Session) : (s.modSess q f).thm = s.thm := rfl
@[simp] theorem State.modSess_lmp (s : State) (q : SessIx) (f : Session → Session) : (s.modSess q f).lmp = s.lmp := rfl
@[simp] theorem State.modSess_jtag (s : State) (q : SessIx) (f : Session → Session) : (s.modSess q f).jtag = s.jtag := rfl
@[simp] theorem State.modSess_out (s : State) (q : SessIx) (f : Session → Session) : (s.modSess q f).out = s.out := rfl

/-! ### `State.modPort` -/
@[simp] theorem State.modPort_pending (s : State) (p : PortIx) (f : Port → Port) : (s.modPort p f).pending = s.pending := rfl
@[simp] theorem State.modPort_now (s : State) (p : PortIx) (f : Port → Port) : (s.modPort p f).now = s.now := rfl
@[simp] theorem State.modPort_free (s : State) (p : PortIx) (f : Port → Port) : (s.modPort p f).free = s.free := rfl
@[simp] theorem State.modPort_dev (s : State) (p : PortIx) (f : Port → Port) : (s.modPort p f).dev = s.dev := rfl
@[simp] theorem State.modPort_par (s : State) (p : PortIx) (f : Port → Port) : (s.modPort p f).par = s.par := rfl
@[simp] theorem State.modPort_tick (s : State) (p : PortIx) (f : Port → Port) : (s.modPort p f).tick = s.tick := rfl
@[simp] theorem State.modPort_acm (s : State) (p : PortIx) (f : Port → Port) : (s.modPort p f).acm = s.acm := rfl
@[simp] theorem State.modPort_internal (s : State) (p : PortIx) (f : Port → Port) : (s.modPort p f).internal = s.internal := rfl
@[simp] theorem State.modPort_flt (s : State) (p : PortIx) (f : Port → Port) : (s.modPort p f).flt = s.flt := rfl
@[simp] theorem State.modPort_pwr (s : State) (p : PortIx) (f : Port → Port) : (s.modPort p f).pwr = s.pwr := rfl
@[simp] theorem State.modPort_fw (s : State) (p : PortIx) (f : Port → Port) : (s.modPort p f).fw = s.fw := rfl
@[simp] theorem State.modPort_eth (s : State) (p : PortIx) (f : Port → Port) : (s.modPort p f).eth = { s.eth with ports := vmod s.eth.ports p f } := rfl
@[simp] theorem State.modPort_rx (s : State) (p : PortIx) (f : Port → Port) : (s.modPort p f).rx = s.rx := rfl
@[simp] theorem State.modPort_ptp (s : State) (p : PortIx) (f : Port → Port) : (s.modPort p f).ptp = s.ptp := rfl
@[simp] theorem State.modPort_mem (s : State) (p : PortIx) (f : Port → Port) : (s.modPort p f).mem = s.mem := rfl
@[simp] theorem State.modPort_surf (s : State) (p : PortIx) (f : Port → Port) : (s.modPort p f).surf = s.surf := rfl
@[simp] theorem State.modPort_comp (s : State) (p : PortIx) (f : Port → Port) : (s.modPort p f).comp = s.comp := rfl
@[simp] theorem State.modPort_codec (s : State) (p : PortIx) (f : Port → Port) : (s.modPort p f).codec = s.codec := rfl
@[simp] theorem State.modPort_col (s : State) (p : PortIx) (f : Port → Port) : (s.modPort p f).col = s.col := rfl
@[simp] theorem State.modPort_sol (s : State) (p : PortIx) (f : Port → Port) : (s.modPort p f).sol = s.sol := rfl
@[simp] theorem State.modPort_pln (s : State) (p : PortIx) (f : Port → Port) : (s.modPort p f).pln = s.pln := rfl
@[simp] theorem State.modPort_stores (s : State) (p : PortIx) (f : Port → Port) : (s.modPort p f).stores = s.stores := rfl
@[simp] theorem State.modPort_scn (s : State) (p : PortIx) (f : Port → Port) : (s.modPort p f).scn = s.scn := rfl
@[simp] theorem State.modPort_em (s : State) (p : PortIx) (f : Port → Port) : (s.modPort p f).em = s.em := rfl
@[simp] theorem State.modPort_anc (s : State) (p : PortIx) (f : Port → Port) : (s.modPort p f).anc = s.anc := rfl
@[simp] theorem State.modPort_bly (s : State) (p : PortIx) (f : Port → Port) : (s.modPort p f).bly = s.bly := rfl
@[simp] theorem State.modPort_head (s : State) (p : PortIx) (f : Port → Port) : (s.modPort p f).head = s.head := rfl
@[simp] theorem State.modPort_headsRun (s : State) (p : PortIx) (f : Port → Port) : (s.modPort p f).headsRun = s.headsRun := rfl
@[simp] theorem State.modPort_headsStop (s : State) (p : PortIx) (f : Port → Port) : (s.modPort p f).headsStop = s.headsStop := rfl
@[simp] theorem State.modPort_gpio (s : State) (p : PortIx) (f : Port → Port) : (s.modPort p f).gpio = s.gpio := rfl
@[simp] theorem State.modPort_tch (s : State) (p : PortIx) (f : Port → Port) : (s.modPort p f).tch = s.tch := rfl
@[simp] theorem State.modPort_isl (s : State) (p : PortIx) (f : Port → Port) : (s.modPort p f).isl = s.isl := rfl
@[simp] theorem State.modPort_lw (s : State) (p : PortIx) (f : Port → Port) : (s.modPort p f).lw = s.lw := rfl
@[simp] theorem State.modPort_cas (s : State) (p : PortIx) (f : Port → Port) : (s.modPort p f).cas = s.cas := rfl
@[simp] theorem State.modPort_clk (s : State) (p : PortIx) (f : Port → Port) : (s.modPort p f).clk = s.clk := rfl
@[simp] theorem State.modPort_thm (s : State) (p : PortIx) (f : Port → Port) : (s.modPort p f).thm = s.thm := rfl
@[simp] theorem State.modPort_lmp (s : State) (p : PortIx) (f : Port → Port) : (s.modPort p f).lmp = s.lmp := rfl
@[simp] theorem State.modPort_jtag (s : State) (p : PortIx) (f : Port → Port) : (s.modPort p f).jtag = s.jtag := rfl
@[simp] theorem State.modPort_out (s : State) (p : PortIx) (f : Port → Port) : (s.modPort p f).out = s.out := rfl

/-! ### `State.modRx` -/
@[simp] theorem State.modRx_pending (s : State) (v : RxIx) (f : Rx → Rx) : (s.modRx v f).pending = s.pending := rfl
@[simp] theorem State.modRx_now (s : State) (v : RxIx) (f : Rx → Rx) : (s.modRx v f).now = s.now := rfl
@[simp] theorem State.modRx_free (s : State) (v : RxIx) (f : Rx → Rx) : (s.modRx v f).free = s.free := rfl
@[simp] theorem State.modRx_dev (s : State) (v : RxIx) (f : Rx → Rx) : (s.modRx v f).dev = s.dev := rfl
@[simp] theorem State.modRx_par (s : State) (v : RxIx) (f : Rx → Rx) : (s.modRx v f).par = s.par := rfl
@[simp] theorem State.modRx_tick (s : State) (v : RxIx) (f : Rx → Rx) : (s.modRx v f).tick = s.tick := rfl
@[simp] theorem State.modRx_acm (s : State) (v : RxIx) (f : Rx → Rx) : (s.modRx v f).acm = s.acm := rfl
@[simp] theorem State.modRx_internal (s : State) (v : RxIx) (f : Rx → Rx) : (s.modRx v f).internal = s.internal := rfl
@[simp] theorem State.modRx_flt (s : State) (v : RxIx) (f : Rx → Rx) : (s.modRx v f).flt = s.flt := rfl
@[simp] theorem State.modRx_pwr (s : State) (v : RxIx) (f : Rx → Rx) : (s.modRx v f).pwr = s.pwr := rfl
@[simp] theorem State.modRx_fw (s : State) (v : RxIx) (f : Rx → Rx) : (s.modRx v f).fw = s.fw := rfl
@[simp] theorem State.modRx_eth (s : State) (v : RxIx) (f : Rx → Rx) : (s.modRx v f).eth = s.eth := rfl
@[simp] theorem State.modRx_rx (s : State) (v : RxIx) (f : Rx → Rx) : (s.modRx v f).rx = vmod s.rx v f := rfl
@[simp] theorem State.modRx_ptp (s : State) (v : RxIx) (f : Rx → Rx) : (s.modRx v f).ptp = s.ptp := rfl
@[simp] theorem State.modRx_mem (s : State) (v : RxIx) (f : Rx → Rx) : (s.modRx v f).mem = s.mem := rfl
@[simp] theorem State.modRx_surf (s : State) (v : RxIx) (f : Rx → Rx) : (s.modRx v f).surf = s.surf := rfl
@[simp] theorem State.modRx_comp (s : State) (v : RxIx) (f : Rx → Rx) : (s.modRx v f).comp = s.comp := rfl
@[simp] theorem State.modRx_codec (s : State) (v : RxIx) (f : Rx → Rx) : (s.modRx v f).codec = s.codec := rfl
@[simp] theorem State.modRx_col (s : State) (v : RxIx) (f : Rx → Rx) : (s.modRx v f).col = s.col := rfl
@[simp] theorem State.modRx_sol (s : State) (v : RxIx) (f : Rx → Rx) : (s.modRx v f).sol = s.sol := rfl
@[simp] theorem State.modRx_pln (s : State) (v : RxIx) (f : Rx → Rx) : (s.modRx v f).pln = s.pln := rfl
@[simp] theorem State.modRx_stores (s : State) (v : RxIx) (f : Rx → Rx) : (s.modRx v f).stores = s.stores := rfl
@[simp] theorem State.modRx_scn (s : State) (v : RxIx) (f : Rx → Rx) : (s.modRx v f).scn = s.scn := rfl
@[simp] theorem State.modRx_em (s : State) (v : RxIx) (f : Rx → Rx) : (s.modRx v f).em = s.em := rfl
@[simp] theorem State.modRx_anc (s : State) (v : RxIx) (f : Rx → Rx) : (s.modRx v f).anc = s.anc := rfl
@[simp] theorem State.modRx_bly (s : State) (v : RxIx) (f : Rx → Rx) : (s.modRx v f).bly = s.bly := rfl
@[simp] theorem State.modRx_head (s : State) (v : RxIx) (f : Rx → Rx) : (s.modRx v f).head = s.head := rfl
@[simp] theorem State.modRx_headsRun (s : State) (v : RxIx) (f : Rx → Rx) : (s.modRx v f).headsRun = s.headsRun := rfl
@[simp] theorem State.modRx_headsStop (s : State) (v : RxIx) (f : Rx → Rx) : (s.modRx v f).headsStop = s.headsStop := rfl
@[simp] theorem State.modRx_gpio (s : State) (v : RxIx) (f : Rx → Rx) : (s.modRx v f).gpio = s.gpio := rfl
@[simp] theorem State.modRx_tch (s : State) (v : RxIx) (f : Rx → Rx) : (s.modRx v f).tch = s.tch := rfl
@[simp] theorem State.modRx_isl (s : State) (v : RxIx) (f : Rx → Rx) : (s.modRx v f).isl = s.isl := rfl
@[simp] theorem State.modRx_lw (s : State) (v : RxIx) (f : Rx → Rx) : (s.modRx v f).lw = s.lw := rfl
@[simp] theorem State.modRx_cas (s : State) (v : RxIx) (f : Rx → Rx) : (s.modRx v f).cas = s.cas := rfl
@[simp] theorem State.modRx_clk (s : State) (v : RxIx) (f : Rx → Rx) : (s.modRx v f).clk = s.clk := rfl
@[simp] theorem State.modRx_thm (s : State) (v : RxIx) (f : Rx → Rx) : (s.modRx v f).thm = s.thm := rfl
@[simp] theorem State.modRx_lmp (s : State) (v : RxIx) (f : Rx → Rx) : (s.modRx v f).lmp = s.lmp := rfl
@[simp] theorem State.modRx_jtag (s : State) (v : RxIx) (f : Rx → Rx) : (s.modRx v f).jtag = s.jtag := rfl
@[simp] theorem State.modRx_out (s : State) (v : RxIx) (f : Rx → Rx) : (s.modRx v f).out = s.out := rfl

/-! ### `State.modCh` -/
@[simp] theorem State.modCh_pending (s : State) (n : LpIx) (f : Chan → Chan) : (s.modCh n f).pending = s.pending := rfl
@[simp] theorem State.modCh_now (s : State) (n : LpIx) (f : Chan → Chan) : (s.modCh n f).now = s.now := rfl
@[simp] theorem State.modCh_free (s : State) (n : LpIx) (f : Chan → Chan) : (s.modCh n f).free = s.free := rfl
@[simp] theorem State.modCh_dev (s : State) (n : LpIx) (f : Chan → Chan) : (s.modCh n f).dev = s.dev := rfl
@[simp] theorem State.modCh_par (s : State) (n : LpIx) (f : Chan → Chan) : (s.modCh n f).par = s.par := rfl
@[simp] theorem State.modCh_tick (s : State) (n : LpIx) (f : Chan → Chan) : (s.modCh n f).tick = s.tick := rfl
@[simp] theorem State.modCh_acm (s : State) (n : LpIx) (f : Chan → Chan) : (s.modCh n f).acm = s.acm := rfl
@[simp] theorem State.modCh_internal (s : State) (n : LpIx) (f : Chan → Chan) : (s.modCh n f).internal = s.internal := rfl
@[simp] theorem State.modCh_flt (s : State) (n : LpIx) (f : Chan → Chan) : (s.modCh n f).flt = s.flt := rfl
@[simp] theorem State.modCh_pwr (s : State) (n : LpIx) (f : Chan → Chan) : (s.modCh n f).pwr = s.pwr := rfl
@[simp] theorem State.modCh_fw (s : State) (n : LpIx) (f : Chan → Chan) : (s.modCh n f).fw = s.fw := rfl
@[simp] theorem State.modCh_eth (s : State) (n : LpIx) (f : Chan → Chan) : (s.modCh n f).eth = s.eth := rfl
@[simp] theorem State.modCh_rx (s : State) (n : LpIx) (f : Chan → Chan) : (s.modCh n f).rx = s.rx := rfl
@[simp] theorem State.modCh_ptp (s : State) (n : LpIx) (f : Chan → Chan) : (s.modCh n f).ptp = s.ptp := rfl
@[simp] theorem State.modCh_mem (s : State) (n : LpIx) (f : Chan → Chan) : (s.modCh n f).mem = { s.mem with ch := vmod s.mem.ch n f } := rfl
@[simp] theorem State.modCh_surf (s : State) (n : LpIx) (f : Chan → Chan) : (s.modCh n f).surf = s.surf := rfl
@[simp] theorem State.modCh_comp (s : State) (n : LpIx) (f : Chan → Chan) : (s.modCh n f).comp = s.comp := rfl
@[simp] theorem State.modCh_codec (s : State) (n : LpIx) (f : Chan → Chan) : (s.modCh n f).codec = s.codec := rfl
@[simp] theorem State.modCh_col (s : State) (n : LpIx) (f : Chan → Chan) : (s.modCh n f).col = s.col := rfl
@[simp] theorem State.modCh_sol (s : State) (n : LpIx) (f : Chan → Chan) : (s.modCh n f).sol = s.sol := rfl
@[simp] theorem State.modCh_pln (s : State) (n : LpIx) (f : Chan → Chan) : (s.modCh n f).pln = s.pln := rfl
@[simp] theorem State.modCh_stores (s : State) (n : LpIx) (f : Chan → Chan) : (s.modCh n f).stores = s.stores := rfl
@[simp] theorem State.modCh_scn (s : State) (n : LpIx) (f : Chan → Chan) : (s.modCh n f).scn = s.scn := rfl
@[simp] theorem State.modCh_em (s : State) (n : LpIx) (f : Chan → Chan) : (s.modCh n f).em = s.em := rfl
@[simp] theorem State.modCh_anc (s : State) (n : LpIx) (f : Chan → Chan) : (s.modCh n f).anc = s.anc := rfl
@[simp] theorem State.modCh_bly (s : State) (n : LpIx) (f : Chan → Chan) : (s.modCh n f).bly = s.bly := rfl
@[simp] theorem State.modCh_head (s : State) (n : LpIx) (f : Chan → Chan) : (s.modCh n f).head = s.head := rfl
@[simp] theorem State.modCh_headsRun (s : State) (n : LpIx) (f : Chan → Chan) : (s.modCh n f).headsRun = s.headsRun := rfl
@[simp] theorem State.modCh_headsStop (s : State) (n : LpIx) (f : Chan → Chan) : (s.modCh n f).headsStop = s.headsStop := rfl
@[simp] theorem State.modCh_gpio (s : State) (n : LpIx) (f : Chan → Chan) : (s.modCh n f).gpio = s.gpio := rfl
@[simp] theorem State.modCh_tch (s : State) (n : LpIx) (f : Chan → Chan) : (s.modCh n f).tch = s.tch := rfl
@[simp] theorem State.modCh_isl (s : State) (n : LpIx) (f : Chan → Chan) : (s.modCh n f).isl = s.isl := rfl
@[simp] theorem State.modCh_lw (s : State) (n : LpIx) (f : Chan → Chan) : (s.modCh n f).lw = s.lw := rfl
@[simp] theorem State.modCh_cas (s : State) (n : LpIx) (f : Chan → Chan) : (s.modCh n f).cas = s.cas := rfl
@[simp] theorem State.modCh_clk (s : State) (n : LpIx) (f : Chan → Chan) : (s.modCh n f).clk = s.clk := rfl
@[simp] theorem State.modCh_thm (s : State) (n : LpIx) (f : Chan → Chan) : (s.modCh n f).thm = s.thm := rfl
@[simp] theorem State.modCh_lmp (s : State) (n : LpIx) (f : Chan → Chan) : (s.modCh n f).lmp = s.lmp := rfl
@[simp] theorem State.modCh_jtag (s : State) (n : LpIx) (f : Chan → Chan) : (s.modCh n f).jtag = s.jtag := rfl
@[simp] theorem State.modCh_out (s : State) (n : LpIx) (f : Chan → Chan) : (s.modCh n f).out = s.out := rfl

/-! ### `State.errLog` -/
@[simp] theorem State.errLog_pending (s : State) (e : Bytes) : (s.errLog e).pending = s.pending := rfl
@[simp] theorem State.errLog_now (s : State) (e : Bytes) : (s.errLog e).now = s.now := rfl
@[simp] theorem State.errLog_free (s : State) (e : Bytes) : (s.errLog e).free = s.free := rfl
@[simp] theorem State.errLog_dev (s : State) (e : Bytes) : (s.errLog e).dev = s.dev := rfl
@[simp] theorem State.errLog_par (s : State) (e : Bytes) : (s.errLog e).par = s.par := rfl
@[simp] theorem State.errLog_tick (s : State) (e : Bytes) : (s.errLog e).tick = s.tick := rfl
@[simp] theorem State.errLog_acm (s : State) (e : Bytes) : (s.errLog e).acm = s.acm := rfl
@[simp] theorem State.errLog_internal (s : State) (e : Bytes) : (s.errLog e).internal = s.internal := rfl
@[simp] theorem State.errLog_flt (s : State) (e : Bytes) : (s.errLog e).flt = s.flt := rfl
@[simp] theorem State.errLog_pwr (s : State) (e : Bytes) : (s.errLog e).pwr = s.pwr := rfl
@[simp] theorem State.errLog_fw (s : State) (e : Bytes) : (s.errLog e).fw = s.fw := rfl
@[simp] theorem State.errLog_eth (s : State) (e : Bytes) : (s.errLog e).eth = s.eth := rfl
@[simp] theorem State.errLog_rx (s : State) (e : Bytes) : (s.errLog e).rx = s.rx := rfl
@[simp] theorem State.errLog_ptp (s : State) (e : Bytes) : (s.errLog e).ptp = s.ptp := rfl
@[simp] theorem State.errLog_mem (s : State) (e : Bytes) : (s.errLog e).mem = { s.mem with errLog := (e :: s.mem.errLog).take 64, errCount := s.mem.errCount + 1 } := rfl
@[simp] theorem State.errLog_surf (s : State) (e : Bytes) : (s.errLog e).surf = s.surf := rfl
@[simp] theorem State.errLog_comp (s : State) (e : Bytes) : (s.errLog e).comp = s.comp := rfl
@[simp] theorem State.errLog_codec (s : State) (e : Bytes) : (s.errLog e).codec = s.codec := rfl
@[simp] theorem State.errLog_col (s : State) (e : Bytes) : (s.errLog e).col = s.col := rfl
@[simp] theorem State.errLog_sol (s : State) (e : Bytes) : (s.errLog e).sol = s.sol := rfl
@[simp] theorem State.errLog_pln (s : State) (e : Bytes) : (s.errLog e).pln = s.pln := rfl
@[simp] theorem State.errLog_stores (s : State) (e : Bytes) : (s.errLog e).stores = s.stores := rfl
@[simp] theorem State.errLog_scn (s : State) (e : Bytes) : (s.errLog e).scn = s.scn := rfl
@[simp] theorem State.errLog_em (s : State) (e : Bytes) : (s.errLog e).em = s.em := rfl
@[simp] theorem State.errLog_anc (s : State) (e : Bytes) : (s.errLog e).anc = s.anc := rfl
@[simp] theorem State.errLog_bly (s : State) (e : Bytes) : (s.errLog e).bly = s.bly := rfl
@[simp] theorem State.errLog_head (s : State) (e : Bytes) : (s.errLog e).head = s.head := rfl
@[simp] theorem State.errLog_headsRun (s : State) (e : Bytes) : (s.errLog e).headsRun = s.headsRun := rfl
@[simp] theorem State.errLog_headsStop (s : State) (e : Bytes) : (s.errLog e).headsStop = s.headsStop := rfl
@[simp] theorem State.errLog_gpio (s : State) (e : Bytes) : (s.errLog e).gpio = s.gpio := rfl
@[simp] theorem State.errLog_tch (s : State) (e : Bytes) : (s.errLog e).tch = s.tch := rfl
@[simp] theorem State.errLog_isl (s : State) (e : Bytes) : (s.errLog e).isl = s.isl := rfl
@[simp] theorem State.errLog_lw (s : State) (e : Bytes) : (s.errLog e).lw = s.lw := rfl
@[simp] theorem State.errLog_cas (s : State) (e : Bytes) : (s.errLog e).cas = s.cas := rfl
@[simp] theorem State.errLog_clk (s : State) (e : Bytes) : (s.errLog e).clk = s.clk := rfl
@[simp] theorem State.errLog_thm (s : State) (e : Bytes) : (s.errLog e).thm = s.thm := rfl
@[simp] theorem State.errLog_lmp (s : State) (e : Bytes) : (s.errLog e).lmp = s.lmp := rfl
@[simp] theorem State.errLog_jtag (s : State) (e : Bytes) : (s.errLog e).jtag = s.jtag := rfl
@[simp] theorem State.errLog_out (s : State) (e : Bytes) : (s.errLog e).out = s.out := rfl

/-! ### `State.modComp` -/
@[simp] theorem State.modComp_pending (s : State) (h : HeadIx) (f : Comp → Comp) : (s.modComp h f).pending = s.pending := rfl
@[simp] theorem State.modComp_now (s : State) (h : HeadIx) (f : Comp → Comp) : (s.modComp h f).now = s.now := rfl
@[simp] theorem State.modComp_free (s : State) (h : HeadIx) (f : Comp → Comp) : (s.modComp h f).free = s.free := rfl
@[simp] theorem State.modComp_dev (s : State) (h : HeadIx) (f : Comp → Comp) : (s.modComp h f).dev = s.dev := rfl
@[simp] theorem State.modComp_par (s : State) (h : HeadIx) (f : Comp → Comp) : (s.modComp h f).par = s.par := rfl
@[simp] theorem State.modComp_tick (s : State) (h : HeadIx) (f : Comp → Comp) : (s.modComp h f).tick = s.tick := rfl
@[simp] theorem State.modComp_acm (s : State) (h : HeadIx) (f : Comp → Comp) : (s.modComp h f).acm = s.acm := rfl
@[simp] theorem State.modComp_internal (s : State) (h : HeadIx) (f : Comp → Comp) : (s.modComp h f).internal = s.internal := rfl
@[simp] theorem State.modComp_flt (s : State) (h : HeadIx) (f : Comp → Comp) : (s.modComp h f).flt = s.flt := rfl
@[simp] theorem State.modComp_pwr (s : State) (h : HeadIx) (f : Comp → Comp) : (s.modComp h f).pwr = s.pwr := rfl
@[simp] theorem State.modComp_fw (s : State) (h : HeadIx) (f : Comp → Comp) : (s.modComp h f).fw = s.fw := rfl
@[simp] theorem State.modComp_eth (s : State) (h : HeadIx) (f : Comp → Comp) : (s.modComp h f).eth = s.eth := rfl
@[simp] theorem State.modComp_rx (s : State) (h : HeadIx) (f : Comp → Comp) : (s.modComp h f).rx = s.rx := rfl
@[simp] theorem State.modComp_ptp (s : State) (h : HeadIx) (f : Comp → Comp) : (s.modComp h f).ptp = s.ptp := rfl
@[simp] theorem State.modComp_mem (s : State) (h : HeadIx) (f : Comp → Comp) : (s.modComp h f).mem = s.mem := rfl
@[simp] theorem State.modComp_surf (s : State) (h : HeadIx) (f : Comp → Comp) : (s.modComp h f).surf = s.surf := rfl
@[simp] theorem State.modComp_comp (s : State) (h : HeadIx) (f : Comp → Comp) : (s.modComp h f).comp = vmod s.comp h f := rfl
@[simp] theorem State.modComp_codec (s : State) (h : HeadIx) (f : Comp → Comp) : (s.modComp h f).codec = s.codec := rfl
@[simp] theorem State.modComp_col (s : State) (h : HeadIx) (f : Comp → Comp) : (s.modComp h f).col = s.col := rfl
@[simp] theorem State.modComp_sol (s : State) (h : HeadIx) (f : Comp → Comp) : (s.modComp h f).sol = s.sol := rfl
@[simp] theorem State.modComp_pln (s : State) (h : HeadIx) (f : Comp → Comp) : (s.modComp h f).pln = s.pln := rfl
@[simp] theorem State.modComp_stores (s : State) (h : HeadIx) (f : Comp → Comp) : (s.modComp h f).stores = s.stores := rfl
@[simp] theorem State.modComp_scn (s : State) (h : HeadIx) (f : Comp → Comp) : (s.modComp h f).scn = s.scn := rfl
@[simp] theorem State.modComp_em (s : State) (h : HeadIx) (f : Comp → Comp) : (s.modComp h f).em = s.em := rfl
@[simp] theorem State.modComp_anc (s : State) (h : HeadIx) (f : Comp → Comp) : (s.modComp h f).anc = s.anc := rfl
@[simp] theorem State.modComp_bly (s : State) (h : HeadIx) (f : Comp → Comp) : (s.modComp h f).bly = s.bly := rfl
@[simp] theorem State.modComp_head (s : State) (h : HeadIx) (f : Comp → Comp) : (s.modComp h f).head = s.head := rfl
@[simp] theorem State.modComp_headsRun (s : State) (h : HeadIx) (f : Comp → Comp) : (s.modComp h f).headsRun = s.headsRun := rfl
@[simp] theorem State.modComp_headsStop (s : State) (h : HeadIx) (f : Comp → Comp) : (s.modComp h f).headsStop = s.headsStop := rfl
@[simp] theorem State.modComp_gpio (s : State) (h : HeadIx) (f : Comp → Comp) : (s.modComp h f).gpio = s.gpio := rfl
@[simp] theorem State.modComp_tch (s : State) (h : HeadIx) (f : Comp → Comp) : (s.modComp h f).tch = s.tch := rfl
@[simp] theorem State.modComp_isl (s : State) (h : HeadIx) (f : Comp → Comp) : (s.modComp h f).isl = s.isl := rfl
@[simp] theorem State.modComp_lw (s : State) (h : HeadIx) (f : Comp → Comp) : (s.modComp h f).lw = s.lw := rfl
@[simp] theorem State.modComp_cas (s : State) (h : HeadIx) (f : Comp → Comp) : (s.modComp h f).cas = s.cas := rfl
@[simp] theorem State.modComp_clk (s : State) (h : HeadIx) (f : Comp → Comp) : (s.modComp h f).clk = s.clk := rfl
@[simp] theorem State.modComp_thm (s : State) (h : HeadIx) (f : Comp → Comp) : (s.modComp h f).thm = s.thm := rfl
@[simp] theorem State.modComp_lmp (s : State) (h : HeadIx) (f : Comp → Comp) : (s.modComp h f).lmp = s.lmp := rfl
@[simp] theorem State.modComp_jtag (s : State) (h : HeadIx) (f : Comp → Comp) : (s.modComp h f).jtag = s.jtag := rfl
@[simp] theorem State.modComp_out (s : State) (h : HeadIx) (f : Comp → Comp) : (s.modComp h f).out = s.out := rfl

/-! ### `State.modCol` -/
@[simp] theorem State.modCol_pending (s : State) (h : HeadIx) (f : Col → Col) : (s.modCol h f).pending = s.pending := rfl
@[simp] theorem State.modCol_now (s : State) (h : HeadIx) (f : Col → Col) : (s.modCol h f).now = s.now := rfl
@[simp] theorem State.modCol_free (s : State) (h : HeadIx) (f : Col → Col) : (s.modCol h f).free = s.free := rfl
@[simp] theorem State.modCol_dev (s : State) (h : HeadIx) (f : Col → Col) : (s.modCol h f).dev = s.dev := rfl
@[simp] theorem State.modCol_par (s : State) (h : HeadIx) (f : Col → Col) : (s.modCol h f).par = s.par := rfl
@[simp] theorem State.modCol_tick (s : State) (h : HeadIx) (f : Col → Col) : (s.modCol h f).tick = s.tick := rfl
@[simp] theorem State.modCol_acm (s : State) (h : HeadIx) (f : Col → Col) : (s.modCol h f).acm = s.acm := rfl
@[simp] theorem State.modCol_internal (s : State) (h : HeadIx) (f : Col → Col) : (s.modCol h f).internal = s.internal := rfl
@[simp] theorem State.modCol_flt (s : State) (h : HeadIx) (f : Col → Col) : (s.modCol h f).flt = s.flt := rfl
@[simp] theorem State.modCol_pwr (s : State) (h : HeadIx) (f : Col → Col) : (s.modCol h f).pwr = s.pwr := rfl
@[simp] theorem State.modCol_fw (s : State) (h : HeadIx) (f : Col → Col) : (s.modCol h f).fw = s.fw := rfl
@[simp] theorem State.modCol_eth (s : State) (h : HeadIx) (f : Col → Col) : (s.modCol h f).eth = s.eth := rfl
@[simp] theorem State.modCol_rx (s : State) (h : HeadIx) (f : Col → Col) : (s.modCol h f).rx = s.rx := rfl
@[simp] theorem State.modCol_ptp (s : State) (h : HeadIx) (f : Col → Col) : (s.modCol h f).ptp = s.ptp := rfl
@[simp] theorem State.modCol_mem (s : State) (h : HeadIx) (f : Col → Col) : (s.modCol h f).mem = s.mem := rfl
@[simp] theorem State.modCol_surf (s : State) (h : HeadIx) (f : Col → Col) : (s.modCol h f).surf = s.surf := rfl
@[simp] theorem State.modCol_comp (s : State) (h : HeadIx) (f : Col → Col) : (s.modCol h f).comp = s.comp := rfl
@[simp] theorem State.modCol_codec (s : State) (h : HeadIx) (f : Col → Col) : (s.modCol h f).codec = s.codec := rfl
@[simp] theorem State.modCol_col (s : State) (h : HeadIx) (f : Col → Col) : (s.modCol h f).col = vmod s.col h f := rfl
@[simp] theorem State.modCol_sol (s : State) (h : HeadIx) (f : Col → Col) : (s.modCol h f).sol = s.sol := rfl
@[simp] theorem State.modCol_pln (s : State) (h : HeadIx) (f : Col → Col) : (s.modCol h f).pln = s.pln := rfl
@[simp] theorem State.modCol_stores (s : State) (h : HeadIx) (f : Col → Col) : (s.modCol h f).stores = s.stores := rfl
@[simp] theorem State.modCol_scn (s : State) (h : HeadIx) (f : Col → Col) : (s.modCol h f).scn = s.scn := rfl
@[simp] theorem State.modCol_em (s : State) (h : HeadIx) (f : Col → Col) : (s.modCol h f).em = s.em := rfl
@[simp] theorem State.modCol_anc (s : State) (h : HeadIx) (f : Col → Col) : (s.modCol h f).anc = s.anc := rfl
@[simp] theorem State.modCol_bly (s : State) (h : HeadIx) (f : Col → Col) : (s.modCol h f).bly = s.bly := rfl
@[simp] theorem State.modCol_head (s : State) (h : HeadIx) (f : Col → Col) : (s.modCol h f).head = s.head := rfl
@[simp] theorem State.modCol_headsRun (s : State) (h : HeadIx) (f : Col → Col) : (s.modCol h f).headsRun = s.headsRun := rfl
@[simp] theorem State.modCol_headsStop (s : State) (h : HeadIx) (f : Col → Col) : (s.modCol h f).headsStop = s.headsStop := rfl
@[simp] theorem State.modCol_gpio (s : State) (h : HeadIx) (f : Col → Col) : (s.modCol h f).gpio = s.gpio := rfl
@[simp] theorem State.modCol_tch (s : State) (h : HeadIx) (f : Col → Col) : (s.modCol h f).tch = s.tch := rfl
@[simp] theorem State.modCol_isl (s : State) (h : HeadIx) (f : Col → Col) : (s.modCol h f).isl = s.isl := rfl
@[simp] theorem State.modCol_lw (s : State) (h : HeadIx) (f : Col → Col) : (s.modCol h f).lw = s.lw := rfl
@[simp] theorem State.modCol_cas (s : State) (h : HeadIx) (f : Col → Col) : (s.modCol h f).cas = s.cas := rfl
@[simp] theorem State.modCol_clk (s : State) (h : HeadIx) (f : Col → Col) : (s.modCol h f).clk = s.clk := rfl
@[simp] theorem State.modCol_thm (s : State) (h : HeadIx) (f : Col → Col) : (s.modCol h f).thm = s.thm := rfl
@[simp] theorem State.modCol_lmp (s : State) (h : HeadIx) (f : Col → Col) : (s.modCol h f).lmp = s.lmp := rfl
@[simp] theorem State.modCol_jtag (s : State) (h : HeadIx) (f : Col → Col) : (s.modCol h f).jtag = s.jtag := rfl
@[simp] theorem State.modCol_out (s : State) (h : HeadIx) (f : Col → Col) : (s.modCol h f).out = s.out := rfl

/-! ### `State.modPln` -/
@[simp] theorem State.modPln_pending (s : State) (h : HeadIx) (f : Pln → Pln) : (s.modPln h f).pending = s.pending := rfl
@[simp] theorem State.modPln_now (s : State) (h : HeadIx) (f : Pln → Pln) : (s.modPln h f).now = s.now := rfl
@[simp] theorem State.modPln_free (s : State) (h : HeadIx) (f : Pln → Pln) : (s.modPln h f).free = s.free := rfl
@[simp] theorem State.modPln_dev (s : State) (h : HeadIx) (f : Pln → Pln) : (s.modPln h f).dev = s.dev := rfl
@[simp] theorem State.modPln_par (s : State) (h : HeadIx) (f : Pln → Pln) : (s.modPln h f).par = s.par := rfl
@[simp] theorem State.modPln_tick (s : State) (h : HeadIx) (f : Pln → Pln) : (s.modPln h f).tick = s.tick := rfl
@[simp] theorem State.modPln_acm (s : State) (h : HeadIx) (f : Pln → Pln) : (s.modPln h f).acm = s.acm := rfl
@[simp] theorem State.modPln_internal (s : State) (h : HeadIx) (f : Pln → Pln) : (s.modPln h f).internal = s.internal := rfl
@[simp] theorem State.modPln_flt (s : State) (h : HeadIx) (f : Pln → Pln) : (s.modPln h f).flt = s.flt := rfl
@[simp] theorem State.modPln_pwr (s : State) (h : HeadIx) (f : Pln → Pln) : (s.modPln h f).pwr = s.pwr := rfl
@[simp] theorem State.modPln_fw (s : State) (h : HeadIx) (f : Pln → Pln) : (s.modPln h f).fw = s.fw := rfl
@[simp] theorem State.modPln_eth (s : State) (h : HeadIx) (f : Pln → Pln) : (s.modPln h f).eth = s.eth := rfl
@[simp] theorem State.modPln_rx (s : State) (h : HeadIx) (f : Pln → Pln) : (s.modPln h f).rx = s.rx := rfl
@[simp] theorem State.modPln_ptp (s : State) (h : HeadIx) (f : Pln → Pln) : (s.modPln h f).ptp = s.ptp := rfl
@[simp] theorem State.modPln_mem (s : State) (h : HeadIx) (f : Pln → Pln) : (s.modPln h f).mem = s.mem := rfl
@[simp] theorem State.modPln_surf (s : State) (h : HeadIx) (f : Pln → Pln) : (s.modPln h f).surf = s.surf := rfl
@[simp] theorem State.modPln_comp (s : State) (h : HeadIx) (f : Pln → Pln) : (s.modPln h f).comp = s.comp := rfl
@[simp] theorem State.modPln_codec (s : State) (h : HeadIx) (f : Pln → Pln) : (s.modPln h f).codec = s.codec := rfl
@[simp] theorem State.modPln_col (s : State) (h : HeadIx) (f : Pln → Pln) : (s.modPln h f).col = s.col := rfl
@[simp] theorem State.modPln_sol (s : State) (h : HeadIx) (f : Pln → Pln) : (s.modPln h f).sol = s.sol := rfl
@[simp] theorem State.modPln_pln (s : State) (h : HeadIx) (f : Pln → Pln) : (s.modPln h f).pln = vmod s.pln h f := rfl
@[simp] theorem State.modPln_stores (s : State) (h : HeadIx) (f : Pln → Pln) : (s.modPln h f).stores = s.stores := rfl
@[simp] theorem State.modPln_scn (s : State) (h : HeadIx) (f : Pln → Pln) : (s.modPln h f).scn = s.scn := rfl
@[simp] theorem State.modPln_em (s : State) (h : HeadIx) (f : Pln → Pln) : (s.modPln h f).em = s.em := rfl
@[simp] theorem State.modPln_anc (s : State) (h : HeadIx) (f : Pln → Pln) : (s.modPln h f).anc = s.anc := rfl
@[simp] theorem State.modPln_bly (s : State) (h : HeadIx) (f : Pln → Pln) : (s.modPln h f).bly = s.bly := rfl
@[simp] theorem State.modPln_head (s : State) (h : HeadIx) (f : Pln → Pln) : (s.modPln h f).head = s.head := rfl
@[simp] theorem State.modPln_headsRun (s : State) (h : HeadIx) (f : Pln → Pln) : (s.modPln h f).headsRun = s.headsRun := rfl
@[simp] theorem State.modPln_headsStop (s : State) (h : HeadIx) (f : Pln → Pln) : (s.modPln h f).headsStop = s.headsStop := rfl
@[simp] theorem State.modPln_gpio (s : State) (h : HeadIx) (f : Pln → Pln) : (s.modPln h f).gpio = s.gpio := rfl
@[simp] theorem State.modPln_tch (s : State) (h : HeadIx) (f : Pln → Pln) : (s.modPln h f).tch = s.tch := rfl
@[simp] theorem State.modPln_isl (s : State) (h : HeadIx) (f : Pln → Pln) : (s.modPln h f).isl = s.isl := rfl
@[simp] theorem State.modPln_lw (s : State) (h : HeadIx) (f : Pln → Pln) : (s.modPln h f).lw = s.lw := rfl
@[simp] theorem State.modPln_cas (s : State) (h : HeadIx) (f : Pln → Pln) : (s.modPln h f).cas = s.cas := rfl
@[simp] theorem State.modPln_clk (s : State) (h : HeadIx) (f : Pln → Pln) : (s.modPln h f).clk = s.clk := rfl
@[simp] theorem State.modPln_thm (s : State) (h : HeadIx) (f : Pln → Pln) : (s.modPln h f).thm = s.thm := rfl
@[simp] theorem State.modPln_lmp (s : State) (h : HeadIx) (f : Pln → Pln) : (s.modPln h f).lmp = s.lmp := rfl
@[simp] theorem State.modPln_jtag (s : State) (h : HeadIx) (f : Pln → Pln) : (s.modPln h f).jtag = s.jtag := rfl
@[simp] theorem State.modPln_out (s : State) (h : HeadIx) (f : Pln → Pln) : (s.modPln h f).out = s.out := rfl

/-! ### `State.modScn` -/
@[simp] theorem State.modScn_pending (s : State) (h : HeadIx) (f : Scn → Scn) : (s.modScn h f).pending = s.pending := rfl
@[simp] theorem State.modScn_now (s : State) (h : HeadIx) (f : Scn → Scn) : (s.modScn h f).now = s.now := rfl
@[simp] theorem State.modScn_free (s : State) (h : HeadIx) (f : Scn → Scn) : (s.modScn h f).free = s.free := rfl
@[simp] theorem State.modScn_dev (s : State) (h : HeadIx) (f : Scn → Scn) : (s.modScn h f).dev = s.dev := rfl
@[simp] theorem State.modScn_par (s : State) (h : HeadIx) (f : Scn → Scn) : (s.modScn h f).par = s.par := rfl
@[simp] theorem State.modScn_tick (s : State) (h : HeadIx) (f : Scn → Scn) : (s.modScn h f).tick = s.tick := rfl
@[simp] theorem State.modScn_acm (s : State) (h : HeadIx) (f : Scn → Scn) : (s.modScn h f).acm = s.acm := rfl
@[simp] theorem State.modScn_internal (s : State) (h : HeadIx) (f : Scn → Scn) : (s.modScn h f).internal = s.internal := rfl
@[simp] theorem State.modScn_flt (s : State) (h : HeadIx) (f : Scn → Scn) : (s.modScn h f).flt = s.flt := rfl
@[simp] theorem State.modScn_pwr (s : State) (h : HeadIx) (f : Scn → Scn) : (s.modScn h f).pwr = s.pwr := rfl
@[simp] theorem State.modScn_fw (s : State) (h : HeadIx) (f : Scn → Scn) : (s.modScn h f).fw = s.fw := rfl
@[simp] theorem State.modScn_eth (s : State) (h : HeadIx) (f : Scn → Scn) : (s.modScn h f).eth = s.eth := rfl
@[simp] theorem State.modScn_rx (s : State) (h : HeadIx) (f : Scn → Scn) : (s.modScn h f).rx = s.rx := rfl
@[simp] theorem State.modScn_ptp (s : State) (h : HeadIx) (f : Scn → Scn) : (s.modScn h f).ptp = s.ptp := rfl
@[simp] theorem State.modScn_mem (s : State) (h : HeadIx) (f : Scn → Scn) : (s.modScn h f).mem = s.mem := rfl
@[simp] theorem State.modScn_surf (s : State) (h : HeadIx) (f : Scn → Scn) : (s.modScn h f).surf = s.surf := rfl
@[simp] theorem State.modScn_comp (s : State) (h : HeadIx) (f : Scn → Scn) : (s.modScn h f).comp = s.comp := rfl
@[simp] theorem State.modScn_codec (s : State) (h : HeadIx) (f : Scn → Scn) : (s.modScn h f).codec = s.codec := rfl
@[simp] theorem State.modScn_col (s : State) (h : HeadIx) (f : Scn → Scn) : (s.modScn h f).col = s.col := rfl
@[simp] theorem State.modScn_sol (s : State) (h : HeadIx) (f : Scn → Scn) : (s.modScn h f).sol = s.sol := rfl
@[simp] theorem State.modScn_pln (s : State) (h : HeadIx) (f : Scn → Scn) : (s.modScn h f).pln = s.pln := rfl
@[simp] theorem State.modScn_stores (s : State) (h : HeadIx) (f : Scn → Scn) : (s.modScn h f).stores = s.stores := rfl
@[simp] theorem State.modScn_scn (s : State) (h : HeadIx) (f : Scn → Scn) : (s.modScn h f).scn = vmod s.scn h f := rfl
@[simp] theorem State.modScn_em (s : State) (h : HeadIx) (f : Scn → Scn) : (s.modScn h f).em = s.em := rfl
@[simp] theorem State.modScn_anc (s : State) (h : HeadIx) (f : Scn → Scn) : (s.modScn h f).anc = s.anc := rfl
@[simp] theorem State.modScn_bly (s : State) (h : HeadIx) (f : Scn → Scn) : (s.modScn h f).bly = s.bly := rfl
@[simp] theorem State.modScn_head (s : State) (h : HeadIx) (f : Scn → Scn) : (s.modScn h f).head = s.head := rfl
@[simp] theorem State.modScn_headsRun (s : State) (h : HeadIx) (f : Scn → Scn) : (s.modScn h f).headsRun = s.headsRun := rfl
@[simp] theorem State.modScn_headsStop (s : State) (h : HeadIx) (f : Scn → Scn) : (s.modScn h f).headsStop = s.headsStop := rfl
@[simp] theorem State.modScn_gpio (s : State) (h : HeadIx) (f : Scn → Scn) : (s.modScn h f).gpio = s.gpio := rfl
@[simp] theorem State.modScn_tch (s : State) (h : HeadIx) (f : Scn → Scn) : (s.modScn h f).tch = s.tch := rfl
@[simp] theorem State.modScn_isl (s : State) (h : HeadIx) (f : Scn → Scn) : (s.modScn h f).isl = s.isl := rfl
@[simp] theorem State.modScn_lw (s : State) (h : HeadIx) (f : Scn → Scn) : (s.modScn h f).lw = s.lw := rfl
@[simp] theorem State.modScn_cas (s : State) (h : HeadIx) (f : Scn → Scn) : (s.modScn h f).cas = s.cas := rfl
@[simp] theorem State.modScn_clk (s : State) (h : HeadIx) (f : Scn → Scn) : (s.modScn h f).clk = s.clk := rfl
@[simp] theorem State.modScn_thm (s : State) (h : HeadIx) (f : Scn → Scn) : (s.modScn h f).thm = s.thm := rfl
@[simp] theorem State.modScn_lmp (s : State) (h : HeadIx) (f : Scn → Scn) : (s.modScn h f).lmp = s.lmp := rfl
@[simp] theorem State.modScn_jtag (s : State) (h : HeadIx) (f : Scn → Scn) : (s.modScn h f).jtag = s.jtag := rfl
@[simp] theorem State.modScn_out (s : State) (h : HeadIx) (f : Scn → Scn) : (s.modScn h f).out = s.out := rfl

/-! ### `State.modEm` -/
@[simp] theorem State.modEm_pending (s : State) (c : ChanIx) (f : Emit → Emit) : (s.modEm c f).pending = s.pending := rfl
@[simp] theorem State.modEm_now (s : State) (c : ChanIx) (f : Emit → Emit) : (s.modEm c f).now = s.now := rfl
@[simp] theorem State.modEm_free (s : State) (c : ChanIx) (f : Emit → Emit) : (s.modEm c f).free = s.free := rfl
@[simp] theorem State.modEm_dev (s : State) (c : ChanIx) (f : Emit → Emit) : (s.modEm c f).dev = s.dev := rfl
@[simp] theorem State.modEm_par (s : State) (c : ChanIx) (f : Emit → Emit) : (s.modEm c f).par = s.par := rfl
@[simp] theorem State.modEm_tick (s : State) (c : ChanIx) (f : Emit → Emit) : (s.modEm c f).tick = s.tick := rfl
@[simp] theorem State.modEm_acm (s : State) (c : ChanIx) (f : Emit → Emit) : (s.modEm c f).acm = s.acm := rfl
@[simp] theorem State.modEm_internal (s : State) (c : ChanIx) (f : Emit → Emit) : (s.modEm c f).internal = s.internal := rfl
@[simp] theorem State.modEm_flt (s : State) (c : ChanIx) (f : Emit → Emit) : (s.modEm c f).flt = s.flt := rfl
@[simp] theorem State.modEm_pwr (s : State) (c : ChanIx) (f : Emit → Emit) : (s.modEm c f).pwr = s.pwr := rfl
@[simp] theorem State.modEm_fw (s : State) (c : ChanIx) (f : Emit → Emit) : (s.modEm c f).fw = s.fw := rfl
@[simp] theorem State.modEm_eth (s : State) (c : ChanIx) (f : Emit → Emit) : (s.modEm c f).eth = s.eth := rfl
@[simp] theorem State.modEm_rx (s : State) (c : ChanIx) (f : Emit → Emit) : (s.modEm c f).rx = s.rx := rfl
@[simp] theorem State.modEm_ptp (s : State) (c : ChanIx) (f : Emit → Emit) : (s.modEm c f).ptp = s.ptp := rfl
@[simp] theorem State.modEm_mem (s : State) (c : ChanIx) (f : Emit → Emit) : (s.modEm c f).mem = s.mem := rfl
@[simp] theorem State.modEm_surf (s : State) (c : ChanIx) (f : Emit → Emit) : (s.modEm c f).surf = s.surf := rfl
@[simp] theorem State.modEm_comp (s : State) (c : ChanIx) (f : Emit → Emit) : (s.modEm c f).comp = s.comp := rfl
@[simp] theorem State.modEm_codec (s : State) (c : ChanIx) (f : Emit → Emit) : (s.modEm c f).codec = s.codec := rfl
@[simp] theorem State.modEm_col (s : State) (c : ChanIx) (f : Emit → Emit) : (s.modEm c f).col = s.col := rfl
@[simp] theorem State.modEm_sol (s : State) (c : ChanIx) (f : Emit → Emit) : (s.modEm c f).sol = s.sol := rfl
@[simp] theorem State.modEm_pln (s : State) (c : ChanIx) (f : Emit → Emit) : (s.modEm c f).pln = s.pln := rfl
@[simp] theorem State.modEm_stores (s : State) (c : ChanIx) (f : Emit → Emit) : (s.modEm c f).stores = s.stores := rfl
@[simp] theorem State.modEm_scn (s : State) (c : ChanIx) (f : Emit → Emit) : (s.modEm c f).scn = s.scn := rfl
@[simp] theorem State.modEm_em (s : State) (c : ChanIx) (f : Emit → Emit) : (s.modEm c f).em = vmod s.em c f := rfl
@[simp] theorem State.modEm_anc (s : State) (c : ChanIx) (f : Emit → Emit) : (s.modEm c f).anc = s.anc := rfl
@[simp] theorem State.modEm_bly (s : State) (c : ChanIx) (f : Emit → Emit) : (s.modEm c f).bly = s.bly := rfl
@[simp] theorem State.modEm_head (s : State) (c : ChanIx) (f : Emit → Emit) : (s.modEm c f).head = s.head := rfl
@[simp] theorem State.modEm_headsRun (s : State) (c : ChanIx) (f : Emit → Emit) : (s.modEm c f).headsRun = s.headsRun := rfl
@[simp] theorem State.modEm_headsStop (s : State) (c : ChanIx) (f : Emit → Emit) : (s.modEm c f).headsStop = s.headsStop := rfl
@[simp] theorem State.modEm_gpio (s : State) (c : ChanIx) (f : Emit → Emit) : (s.modEm c f).gpio = s.gpio := rfl
@[simp] theorem State.modEm_tch (s : State) (c : ChanIx) (f : Emit → Emit) : (s.modEm c f).tch = s.tch := rfl
@[simp] theorem State.modEm_isl (s : State) (c : ChanIx) (f : Emit → Emit) : (s.modEm c f).isl = s.isl := rfl
@[simp] theorem State.modEm_lw (s : State) (c : ChanIx) (f : Emit → Emit) : (s.modEm c f).lw = s.lw := rfl
@[simp] theorem State.modEm_cas (s : State) (c : ChanIx) (f : Emit → Emit) : (s.modEm c f).cas = s.cas := rfl
@[simp] theorem State.modEm_clk (s : State) (c : ChanIx) (f : Emit → Emit) : (s.modEm c f).clk = s.clk := rfl
@[simp] theorem State.modEm_thm (s : State) (c : ChanIx) (f : Emit → Emit) : (s.modEm c f).thm = s.thm := rfl
@[simp] theorem State.modEm_lmp (s : State) (c : ChanIx) (f : Emit → Emit) : (s.modEm c f).lmp = s.lmp := rfl
@[simp] theorem State.modEm_jtag (s : State) (c : ChanIx) (f : Emit → Emit) : (s.modEm c f).jtag = s.jtag := rfl
@[simp] theorem State.modEm_out (s : State) (c : ChanIx) (f : Emit → Emit) : (s.modEm c f).out = s.out := rfl

/-! ### `State.modHead` -/
@[simp] theorem State.modHead_pending (s : State) (h : HeadIx) (f : Head → Head) : (s.modHead h f).pending = s.pending := rfl
@[simp] theorem State.modHead_now (s : State) (h : HeadIx) (f : Head → Head) : (s.modHead h f).now = s.now := rfl
@[simp] theorem State.modHead_free (s : State) (h : HeadIx) (f : Head → Head) : (s.modHead h f).free = s.free := rfl
@[simp] theorem State.modHead_dev (s : State) (h : HeadIx) (f : Head → Head) : (s.modHead h f).dev = s.dev := rfl
@[simp] theorem State.modHead_par (s : State) (h : HeadIx) (f : Head → Head) : (s.modHead h f).par = s.par := rfl
@[simp] theorem State.modHead_tick (s : State) (h : HeadIx) (f : Head → Head) : (s.modHead h f).tick = s.tick := rfl
@[simp] theorem State.modHead_acm (s : State) (h : HeadIx) (f : Head → Head) : (s.modHead h f).acm = s.acm := rfl
@[simp] theorem State.modHead_internal (s : State) (h : HeadIx) (f : Head → Head) : (s.modHead h f).internal = s.internal := rfl
@[simp] theorem State.modHead_flt (s : State) (h : HeadIx) (f : Head → Head) : (s.modHead h f).flt = s.flt := rfl
@[simp] theorem State.modHead_pwr (s : State) (h : HeadIx) (f : Head → Head) : (s.modHead h f).pwr = s.pwr := rfl
@[simp] theorem State.modHead_fw (s : State) (h : HeadIx) (f : Head → Head) : (s.modHead h f).fw = s.fw := rfl
@[simp] theorem State.modHead_eth (s : State) (h : HeadIx) (f : Head → Head) : (s.modHead h f).eth = s.eth := rfl
@[simp] theorem State.modHead_rx (s : State) (h : HeadIx) (f : Head → Head) : (s.modHead h f).rx = s.rx := rfl
@[simp] theorem State.modHead_ptp (s : State) (h : HeadIx) (f : Head → Head) : (s.modHead h f).ptp = s.ptp := rfl
@[simp] theorem State.modHead_mem (s : State) (h : HeadIx) (f : Head → Head) : (s.modHead h f).mem = s.mem := rfl
@[simp] theorem State.modHead_surf (s : State) (h : HeadIx) (f : Head → Head) : (s.modHead h f).surf = s.surf := rfl
@[simp] theorem State.modHead_comp (s : State) (h : HeadIx) (f : Head → Head) : (s.modHead h f).comp = s.comp := rfl
@[simp] theorem State.modHead_codec (s : State) (h : HeadIx) (f : Head → Head) : (s.modHead h f).codec = s.codec := rfl
@[simp] theorem State.modHead_col (s : State) (h : HeadIx) (f : Head → Head) : (s.modHead h f).col = s.col := rfl
@[simp] theorem State.modHead_sol (s : State) (h : HeadIx) (f : Head → Head) : (s.modHead h f).sol = s.sol := rfl
@[simp] theorem State.modHead_pln (s : State) (h : HeadIx) (f : Head → Head) : (s.modHead h f).pln = s.pln := rfl
@[simp] theorem State.modHead_stores (s : State) (h : HeadIx) (f : Head → Head) : (s.modHead h f).stores = s.stores := rfl
@[simp] theorem State.modHead_scn (s : State) (h : HeadIx) (f : Head → Head) : (s.modHead h f).scn = s.scn := rfl
@[simp] theorem State.modHead_em (s : State) (h : HeadIx) (f : Head → Head) : (s.modHead h f).em = s.em := rfl
@[simp] theorem State.modHead_anc (s : State) (h : HeadIx) (f : Head → Head) : (s.modHead h f).anc = s.anc := rfl
@[simp] theorem State.modHead_bly (s : State) (h : HeadIx) (f : Head → Head) : (s.modHead h f).bly = s.bly := rfl
@[simp] theorem State.modHead_head (s : State) (h : HeadIx) (f : Head → Head) : (s.modHead h f).head = vmod s.head h f := rfl
@[simp] theorem State.modHead_headsRun (s : State) (h : HeadIx) (f : Head → Head) : (s.modHead h f).headsRun = s.headsRun := rfl
@[simp] theorem State.modHead_headsStop (s : State) (h : HeadIx) (f : Head → Head) : (s.modHead h f).headsStop = s.headsStop := rfl
@[simp] theorem State.modHead_gpio (s : State) (h : HeadIx) (f : Head → Head) : (s.modHead h f).gpio = s.gpio := rfl
@[simp] theorem State.modHead_tch (s : State) (h : HeadIx) (f : Head → Head) : (s.modHead h f).tch = s.tch := rfl
@[simp] theorem State.modHead_isl (s : State) (h : HeadIx) (f : Head → Head) : (s.modHead h f).isl = s.isl := rfl
@[simp] theorem State.modHead_lw (s : State) (h : HeadIx) (f : Head → Head) : (s.modHead h f).lw = s.lw := rfl
@[simp] theorem State.modHead_cas (s : State) (h : HeadIx) (f : Head → Head) : (s.modHead h f).cas = s.cas := rfl
@[simp] theorem State.modHead_clk (s : State) (h : HeadIx) (f : Head → Head) : (s.modHead h f).clk = s.clk := rfl
@[simp] theorem State.modHead_thm (s : State) (h : HeadIx) (f : Head → Head) : (s.modHead h f).thm = s.thm := rfl
@[simp] theorem State.modHead_lmp (s : State) (h : HeadIx) (f : Head → Head) : (s.modHead h f).lmp = s.lmp := rfl
@[simp] theorem State.modHead_jtag (s : State) (h : HeadIx) (f : Head → Head) : (s.modHead h f).jtag = s.jtag := rfl
@[simp] theorem State.modHead_out (s : State) (h : HeadIx) (f : Head → Head) : (s.modHead h f).out = s.out := rfl

/-! ### `State.modTouch` -/
@[simp] theorem State.modTouch_pending (s : State) (h : HeadIx) (f : Touch → Touch) : (s.modTouch h f).pending = s.pending := rfl
@[simp] theorem State.modTouch_now (s : State) (h : HeadIx) (f : Touch → Touch) : (s.modTouch h f).now = s.now := rfl
@[simp] theorem State.modTouch_free (s : State) (h : HeadIx) (f : Touch → Touch) : (s.modTouch h f).free = s.free := rfl
@[simp] theorem State.modTouch_dev (s : State) (h : HeadIx) (f : Touch → Touch) : (s.modTouch h f).dev = s.dev := rfl
@[simp] theorem State.modTouch_par (s : State) (h : HeadIx) (f : Touch → Touch) : (s.modTouch h f).par = s.par := rfl
@[simp] theorem State.modTouch_tick (s : State) (h : HeadIx) (f : Touch → Touch) : (s.modTouch h f).tick = s.tick := rfl
@[simp] theorem State.modTouch_acm (s : State) (h : HeadIx) (f : Touch → Touch) : (s.modTouch h f).acm = s.acm := rfl
@[simp] theorem State.modTouch_internal (s : State) (h : HeadIx) (f : Touch → Touch) : (s.modTouch h f).internal = s.internal := rfl
@[simp] theorem State.modTouch_flt (s : State) (h : HeadIx) (f : Touch → Touch) : (s.modTouch h f).flt = s.flt := rfl
@[simp] theorem State.modTouch_pwr (s : State) (h : HeadIx) (f : Touch → Touch) : (s.modTouch h f).pwr = s.pwr := rfl
@[simp] theorem State.modTouch_fw (s : State) (h : HeadIx) (f : Touch → Touch) : (s.modTouch h f).fw = s.fw := rfl
@[simp] theorem State.modTouch_eth (s : State) (h : HeadIx) (f : Touch → Touch) : (s.modTouch h f).eth = s.eth := rfl
@[simp] theorem State.modTouch_rx (s : State) (h : HeadIx) (f : Touch → Touch) : (s.modTouch h f).rx = s.rx := rfl
@[simp] theorem State.modTouch_ptp (s : State) (h : HeadIx) (f : Touch → Touch) : (s.modTouch h f).ptp = s.ptp := rfl
@[simp] theorem State.modTouch_mem (s : State) (h : HeadIx) (f : Touch → Touch) : (s.modTouch h f).mem = s.mem := rfl
@[simp] theorem State.modTouch_surf (s : State) (h : HeadIx) (f : Touch → Touch) : (s.modTouch h f).surf = s.surf := rfl
@[simp] theorem State.modTouch_comp (s : State) (h : HeadIx) (f : Touch → Touch) : (s.modTouch h f).comp = s.comp := rfl
@[simp] theorem State.modTouch_codec (s : State) (h : HeadIx) (f : Touch → Touch) : (s.modTouch h f).codec = s.codec := rfl
@[simp] theorem State.modTouch_col (s : State) (h : HeadIx) (f : Touch → Touch) : (s.modTouch h f).col = s.col := rfl
@[simp] theorem State.modTouch_sol (s : State) (h : HeadIx) (f : Touch → Touch) : (s.modTouch h f).sol = s.sol := rfl
@[simp] theorem State.modTouch_pln (s : State) (h : HeadIx) (f : Touch → Touch) : (s.modTouch h f).pln = s.pln := rfl
@[simp] theorem State.modTouch_stores (s : State) (h : HeadIx) (f : Touch → Touch) : (s.modTouch h f).stores = s.stores := rfl
@[simp] theorem State.modTouch_scn (s : State) (h : HeadIx) (f : Touch → Touch) : (s.modTouch h f).scn = s.scn := rfl
@[simp] theorem State.modTouch_em (s : State) (h : HeadIx) (f : Touch → Touch) : (s.modTouch h f).em = s.em := rfl
@[simp] theorem State.modTouch_anc (s : State) (h : HeadIx) (f : Touch → Touch) : (s.modTouch h f).anc = s.anc := rfl
@[simp] theorem State.modTouch_bly (s : State) (h : HeadIx) (f : Touch → Touch) : (s.modTouch h f).bly = s.bly := rfl
@[simp] theorem State.modTouch_head (s : State) (h : HeadIx) (f : Touch → Touch) : (s.modTouch h f).head = s.head := rfl
@[simp] theorem State.modTouch_headsRun (s : State) (h : HeadIx) (f : Touch → Touch) : (s.modTouch h f).headsRun = s.headsRun := rfl
@[simp] theorem State.modTouch_headsStop (s : State) (h : HeadIx) (f : Touch → Touch) : (s.modTouch h f).headsStop = s.headsStop := rfl
@[simp] theorem State.modTouch_gpio (s : State) (h : HeadIx) (f : Touch → Touch) : (s.modTouch h f).gpio = s.gpio := rfl
@[simp] theorem State.modTouch_tch (s : State) (h : HeadIx) (f : Touch → Touch) : (s.modTouch h f).tch = vmod s.tch h f := rfl
@[simp] theorem State.modTouch_isl (s : State) (h : HeadIx) (f : Touch → Touch) : (s.modTouch h f).isl = s.isl := rfl
@[simp] theorem State.modTouch_lw (s : State) (h : HeadIx) (f : Touch → Touch) : (s.modTouch h f).lw = s.lw := rfl
@[simp] theorem State.modTouch_cas (s : State) (h : HeadIx) (f : Touch → Touch) : (s.modTouch h f).cas = s.cas := rfl
@[simp] theorem State.modTouch_clk (s : State) (h : HeadIx) (f : Touch → Touch) : (s.modTouch h f).clk = s.clk := rfl
@[simp] theorem State.modTouch_thm (s : State) (h : HeadIx) (f : Touch → Touch) : (s.modTouch h f).thm = s.thm := rfl
@[simp] theorem State.modTouch_lmp (s : State) (h : HeadIx) (f : Touch → Touch) : (s.modTouch h f).lmp = s.lmp := rfl
@[simp] theorem State.modTouch_jtag (s : State) (h : HeadIx) (f : Touch → Touch) : (s.modTouch h f).jtag = s.jtag := rfl
@[simp] theorem State.modTouch_out (s : State) (h : HeadIx) (f : Touch → Touch) : (s.modTouch h f).out = s.out := rfl

/-! ### `State.modBly` -/
@[simp] theorem State.modBly_pending (s : State) (f : Bly → Bly) : (s.modBly f).pending = s.pending := rfl
@[simp] theorem State.modBly_now (s : State) (f : Bly → Bly) : (s.modBly f).now = s.now := rfl
@[simp] theorem State.modBly_free (s : State) (f : Bly → Bly) : (s.modBly f).free = s.free := rfl
@[simp] theorem State.modBly_dev (s : State) (f : Bly → Bly) : (s.modBly f).dev = s.dev := rfl
@[simp] theorem State.modBly_par (s : State) (f : Bly → Bly) : (s.modBly f).par = s.par := rfl
@[simp] theorem State.modBly_tick (s : State) (f : Bly → Bly) : (s.modBly f).tick = s.tick := rfl
@[simp] theorem State.modBly_acm (s : State) (f : Bly → Bly) : (s.modBly f).acm = s.acm := rfl
@[simp] theorem State.modBly_internal (s : State) (f : Bly → Bly) : (s.modBly f).internal = s.internal := rfl
@[simp] theorem State.modBly_flt (s : State) (f : Bly → Bly) : (s.modBly f).flt = s.flt := rfl
@[simp] theorem State.modBly_pwr (s : State) (f : Bly → Bly) : (s.modBly f).pwr = s.pwr := rfl
@[simp] theorem State.modBly_fw (s : State) (f : Bly → Bly) : (s.modBly f).fw = s.fw := rfl
@[simp] theorem State.modBly_eth (s : State) (f : Bly → Bly) : (s.modBly f).eth = s.eth := rfl
@[simp] theorem State.modBly_rx (s : State) (f : Bly → Bly) : (s.modBly f).rx = s.rx := rfl
@[simp] theorem State.modBly_ptp (s : State) (f : Bly → Bly) : (s.modBly f).ptp = s.ptp := rfl
@[simp] theorem State.modBly_mem (s : State) (f : Bly → Bly) : (s.modBly f).mem = s.mem := rfl
@[simp] theorem State.modBly_surf (s : State) (f : Bly → Bly) : (s.modBly f).surf = s.surf := rfl
@[simp] theorem State.modBly_comp (s : State) (f : Bly → Bly) : (s.modBly f).comp = s.comp := rfl
@[simp] theorem State.modBly_codec (s : State) (f : Bly → Bly) : (s.modBly f).codec = s.codec := rfl
@[simp] theorem State.modBly_col (s : State) (f : Bly → Bly) : (s.modBly f).col = s.col := rfl
@[simp] theorem State.modBly_sol (s : State) (f : Bly → Bly) : (s.modBly f).sol = s.sol := rfl
@[simp] theorem State.modBly_pln (s : State) (f : Bly → Bly) : (s.modBly f).pln = s.pln := rfl
@[simp] theorem State.modBly_stores (s : State) (f : Bly → Bly) : (s.modBly f).stores = s.stores := rfl
@[simp] theorem State.modBly_scn (s : State) (f : Bly → Bly) : (s.modBly f).scn = s.scn := rfl
@[simp] theorem State.modBly_em (s : State) (f : Bly → Bly) : (s.modBly f).em = s.em := rfl
@[simp] theorem State.modBly_anc (s : State) (f : Bly → Bly) : (s.modBly f).anc = s.anc := rfl
@[simp] theorem State.modBly_bly (s : State) (f : Bly → Bly) : (s.modBly f).bly = f s.bly := rfl
@[simp] theorem State.modBly_head (s : State) (f : Bly → Bly) : (s.modBly f).head = s.head := rfl
@[simp] theorem State.modBly_headsRun (s : State) (f : Bly → Bly) : (s.modBly f).headsRun = s.headsRun := rfl
@[simp] theorem State.modBly_headsStop (s : State) (f : Bly → Bly) : (s.modBly f).headsStop = s.headsStop := rfl
@[simp] theorem State.modBly_gpio (s : State) (f : Bly → Bly) : (s.modBly f).gpio = s.gpio := rfl
@[simp] theorem State.modBly_tch (s : State) (f : Bly → Bly) : (s.modBly f).tch = s.tch := rfl
@[simp] theorem State.modBly_isl (s : State) (f : Bly → Bly) : (s.modBly f).isl = s.isl := rfl
@[simp] theorem State.modBly_lw (s : State) (f : Bly → Bly) : (s.modBly f).lw = s.lw := rfl
@[simp] theorem State.modBly_cas (s : State) (f : Bly → Bly) : (s.modBly f).cas = s.cas := rfl
@[simp] theorem State.modBly_clk (s : State) (f : Bly → Bly) : (s.modBly f).clk = s.clk := rfl
@[simp] theorem State.modBly_thm (s : State) (f : Bly → Bly) : (s.modBly f).thm = s.thm := rfl
@[simp] theorem State.modBly_lmp (s : State) (f : Bly → Bly) : (s.modBly f).lmp = s.lmp := rfl
@[simp] theorem State.modBly_jtag (s : State) (f : Bly → Bly) : (s.modBly f).jtag = s.jtag := rfl
@[simp] theorem State.modBly_out (s : State) (f : Bly → Bly) : (s.modBly f).out = s.out := rfl

/-! ### `State.modTrace` -/
@[simp] theorem State.modTrace_pending (s : State) (f : Trace → Trace) : (s.modTrace f).pending = s.pending := rfl
@[simp] theorem State.modTrace_now (s : State) (f : Trace → Trace) : (s.modTrace f).now = s.now := rfl
@[simp] theorem State.modTrace_free (s : State) (f : Trace → Trace) : (s.modTrace f).free = s.free := rfl
@[simp] theorem State.modTrace_dev (s : State) (f : Trace → Trace) : (s.modTrace f).dev = s.dev := rfl
@[simp] theorem State.modTrace_par (s : State) (f : Trace → Trace) : (s.modTrace f).par = s.par := rfl
@[simp] theorem State.modTrace_tick (s : State) (f : Trace → Trace) : (s.modTrace f).tick = s.tick := rfl
@[simp] theorem State.modTrace_acm (s : State) (f : Trace → Trace) : (s.modTrace f).acm = s.acm := rfl
@[simp] theorem State.modTrace_internal (s : State) (f : Trace → Trace) : (s.modTrace f).internal = s.internal := rfl
@[simp] theorem State.modTrace_flt (s : State) (f : Trace → Trace) : (s.modTrace f).flt = s.flt := rfl
@[simp] theorem State.modTrace_pwr (s : State) (f : Trace → Trace) : (s.modTrace f).pwr = s.pwr := rfl
@[simp] theorem State.modTrace_fw (s : State) (f : Trace → Trace) : (s.modTrace f).fw = s.fw := rfl
@[simp] theorem State.modTrace_eth (s : State) (f : Trace → Trace) : (s.modTrace f).eth = s.eth := rfl
@[simp] theorem State.modTrace_rx (s : State) (f : Trace → Trace) : (s.modTrace f).rx = s.rx := rfl
@[simp] theorem State.modTrace_ptp (s : State) (f : Trace → Trace) : (s.modTrace f).ptp = s.ptp := rfl
@[simp] theorem State.modTrace_mem (s : State) (f : Trace → Trace) : (s.modTrace f).mem = s.mem := rfl
@[simp] theorem State.modTrace_surf (s : State) (f : Trace → Trace) : (s.modTrace f).surf = s.surf := rfl
@[simp] theorem State.modTrace_comp (s : State) (f : Trace → Trace) : (s.modTrace f).comp = s.comp := rfl
@[simp] theorem State.modTrace_codec (s : State) (f : Trace → Trace) : (s.modTrace f).codec = s.codec := rfl
@[simp] theorem State.modTrace_col (s : State) (f : Trace → Trace) : (s.modTrace f).col = s.col := rfl
@[simp] theorem State.modTrace_sol (s : State) (f : Trace → Trace) : (s.modTrace f).sol = s.sol := rfl
@[simp] theorem State.modTrace_pln (s : State) (f : Trace → Trace) : (s.modTrace f).pln = s.pln := rfl
@[simp] theorem State.modTrace_stores (s : State) (f : Trace → Trace) : (s.modTrace f).stores = s.stores := rfl
@[simp] theorem State.modTrace_scn (s : State) (f : Trace → Trace) : (s.modTrace f).scn = s.scn := rfl
@[simp] theorem State.modTrace_em (s : State) (f : Trace → Trace) : (s.modTrace f).em = s.em := rfl
@[simp] theorem State.modTrace_anc (s : State) (f : Trace → Trace) : (s.modTrace f).anc = s.anc := rfl
@[simp] theorem State.modTrace_bly (s : State) (f : Trace → Trace) : (s.modTrace f).bly = { s.bly with trace := f s.bly.trace } := rfl
@[simp] theorem State.modTrace_head (s : State) (f : Trace → Trace) : (s.modTrace f).head = s.head := rfl
@[simp] theorem State.modTrace_headsRun (s : State) (f : Trace → Trace) : (s.modTrace f).headsRun = s.headsRun := rfl
@[simp] theorem State.modTrace_headsStop (s : State) (f : Trace → Trace) : (s.modTrace f).headsStop = s.headsStop := rfl
@[simp] theorem State.modTrace_gpio (s : State) (f : Trace → Trace) : (s.modTrace f).gpio = s.gpio := rfl
@[simp] theorem State.modTrace_tch (s : State) (f : Trace → Trace) : (s.modTrace f).tch = s.tch := rfl
@[simp] theorem State.modTrace_isl (s : State) (f : Trace → Trace) : (s.modTrace f).isl = s.isl := rfl
@[simp] theorem State.modTrace_lw (s : State) (f : Trace → Trace) : (s.modTrace f).lw = s.lw := rfl
@[simp] theorem State.modTrace_cas (s : State) (f : Trace → Trace) : (s.modTrace f).cas = s.cas := rfl
@[simp] theorem State.modTrace_clk (s : State) (f : Trace → Trace) : (s.modTrace f).clk = s.clk := rfl
@[simp] theorem State.modTrace_thm (s : State) (f : Trace → Trace) : (s.modTrace f).thm = s.thm := rfl
@[simp] theorem State.modTrace_lmp (s : State) (f : Trace → Trace) : (s.modTrace f).lmp = s.lmp := rfl
@[simp] theorem State.modTrace_jtag (s : State) (f : Trace → Trace) : (s.modTrace f).jtag = s.jtag := rfl
@[simp] theorem State.modTrace_out (s : State) (f : Trace → Trace) : (s.modTrace f).out = s.out := rfl

/-! ### `State.modIsl` -/
@[simp] theorem State.modIsl_pending (s : State) (f : Isl → Isl) : (s.modIsl f).pending = s.pending := rfl
@[simp] theorem State.modIsl_now (s : State) (f : Isl → Isl) : (s.modIsl f).now = s.now := rfl
@[simp] theorem State.modIsl_free (s : State) (f : Isl → Isl) : (s.modIsl f).free = s.free := rfl
@[simp] theorem State.modIsl_dev (s : State) (f : Isl → Isl) : (s.modIsl f).dev = s.dev := rfl
@[simp] theorem State.modIsl_par (s : State) (f : Isl → Isl) : (s.modIsl f).par = s.par := rfl
@[simp] theorem State.modIsl_tick (s : State) (f : Isl → Isl) : (s.modIsl f).tick = s.tick := rfl
@[simp] theorem State.modIsl_acm (s : State) (f : Isl → Isl) : (s.modIsl f).acm = s.acm := rfl
@[simp] theorem State.modIsl_internal (s : State) (f : Isl → Isl) : (s.modIsl f).internal = s.internal := rfl
@[simp] theorem State.modIsl_flt (s : State) (f : Isl → Isl) : (s.modIsl f).flt = s.flt := rfl
@[simp] theorem State.modIsl_pwr (s : State) (f : Isl → Isl) : (s.modIsl f).pwr = s.pwr := rfl
@[simp] theorem State.modIsl_fw (s : State) (f : Isl → Isl) : (s.modIsl f).fw = s.fw := rfl
@[simp] theorem State.modIsl_eth (s : State) (f : Isl → Isl) : (s.modIsl f).eth = s.eth := rfl
@[simp] theorem State.modIsl_rx (s : State) (f : Isl → Isl) : (s.modIsl f).rx = s.rx := rfl
@[simp] theorem State.modIsl_ptp (s : State) (f : Isl → Isl) : (s.modIsl f).ptp = s.ptp := rfl
@[simp] theorem State.modIsl_mem (s : State) (f : Isl → Isl) : (s.modIsl f).mem = s.mem := rfl
@[simp] theorem State.modIsl_surf (s : State) (f : Isl → Isl) : (s.modIsl f).surf = s.surf := rfl
@[simp] theorem State.modIsl_comp (s : State) (f : Isl → Isl) : (s.modIsl f).comp = s.comp := rfl
@[simp] theorem State.modIsl_codec (s : State) (f : Isl → Isl) : (s.modIsl f).codec = s.codec := rfl
@[simp] theorem State.modIsl_col (s : State) (f : Isl → Isl) : (s.modIsl f).col = s.col := rfl
@[simp] theorem State.modIsl_sol (s : State) (f : Isl → Isl) : (s.modIsl f).sol = s.sol := rfl
@[simp] theorem State.modIsl_pln (s : State) (f : Isl → Isl) : (s.modIsl f).pln = s.pln := rfl
@[simp] theorem State.modIsl_stores (s : State) (f : Isl → Isl) : (s.modIsl f).stores = s.stores := rfl
@[simp] theorem State.modIsl_scn (s : State) (f : Isl → Isl) : (s.modIsl f).scn = s.scn := rfl
@[simp] theorem State.modIsl_em (s : State) (f : Isl → Isl) : (s.modIsl f).em = s.em := rfl
@[simp] theorem State.modIsl_anc (s : State) (f : Isl → Isl) : (s.modIsl f).anc = s.anc := rfl
@[simp] theorem State.modIsl_bly (s : State) (f : Isl → Isl) : (s.modIsl f).bly = s.bly := rfl
@[simp] theorem State.modIsl_head (s : State) (f : Isl → Isl) : (s.modIsl f).head = s.head := rfl
@[simp] theorem State.modIsl_headsRun (s : State) (f : Isl → Isl) : (s.modIsl f).headsRun = s.headsRun := rfl
@[simp] theorem State.modIsl_headsStop (s : State) (f : Isl → Isl) : (s.modIsl f).headsStop = s.headsStop := rfl
@[simp] theorem State.modIsl_gpio (s : State) (f : Isl → Isl) : (s.modIsl f).gpio = s.gpio := rfl
@[simp] theorem State.modIsl_tch (s : State) (f : Isl → Isl) : (s.modIsl f).tch = s.tch := rfl
@[simp] theorem State.modIsl_isl (s : State) (f : Isl → Isl) : (s.modIsl f).isl = f s.isl := rfl
@[simp] theorem State.modIsl_lw (s : State) (f : Isl → Isl) : (s.modIsl f).lw = s.lw := rfl
@[simp] theorem State.modIsl_cas (s : State) (f : Isl → Isl) : (s.modIsl f).cas = s.cas := rfl
@[simp] theorem State.modIsl_clk (s : State) (f : Isl → Isl) : (s.modIsl f).clk = s.clk := rfl
@[simp] theorem State.modIsl_thm (s : State) (f : Isl → Isl) : (s.modIsl f).thm = s.thm := rfl
@[simp] theorem State.modIsl_lmp (s : State) (f : Isl → Isl) : (s.modIsl f).lmp = s.lmp := rfl
@[simp] theorem State.modIsl_jtag (s : State) (f : Isl → Isl) : (s.modIsl f).jtag = s.jtag := rfl
@[simp] theorem State.modIsl_out (s : State) (f : Isl → Isl) : (s.modIsl f).out = s.out := rfl

/-! ### `State.modLmp` -/
@[simp] theorem State.modLmp_pending (s : State) (f : Lmp → Lmp) : (s.modLmp f).pending = s.pending := rfl
@[simp] theorem State.modLmp_now (s : State) (f : Lmp → Lmp) : (s.modLmp f).now = s.now := rfl
@[simp] theorem State.modLmp_free (s : State) (f : Lmp → Lmp) : (s.modLmp f).free = s.free := rfl
@[simp] theorem State.modLmp_dev (s : State) (f : Lmp → Lmp) : (s.modLmp f).dev = s.dev := rfl
@[simp] theorem State.modLmp_par (s : State) (f : Lmp → Lmp) : (s.modLmp f).par = s.par := rfl
@[simp] theorem State.modLmp_tick (s : State) (f : Lmp → Lmp) : (s.modLmp f).tick = s.tick := rfl
@[simp] theorem State.modLmp_acm (s : State) (f : Lmp → Lmp) : (s.modLmp f).acm = s.acm := rfl
@[simp] theorem State.modLmp_internal (s : State) (f : Lmp → Lmp) : (s.modLmp f).internal = s.internal := rfl
@[simp] theorem State.modLmp_flt (s : State) (f : Lmp → Lmp) : (s.modLmp f).flt = s.flt := rfl
@[simp] theorem State.modLmp_pwr (s : State) (f : Lmp → Lmp) : (s.modLmp f).pwr = s.pwr := rfl
@[simp] theorem State.modLmp_fw (s : State) (f : Lmp → Lmp) : (s.modLmp f).fw = s.fw := rfl
@[simp] theorem State.modLmp_eth (s : State) (f : Lmp → Lmp) : (s.modLmp f).eth = s.eth := rfl
@[simp] theorem State.modLmp_rx (s : State) (f : Lmp → Lmp) : (s.modLmp f).rx = s.rx := rfl
@[simp] theorem State.modLmp_ptp (s : State) (f : Lmp → Lmp) : (s.modLmp f).ptp = s.ptp := rfl
@[simp] theorem State.modLmp_mem (s : State) (f : Lmp → Lmp) : (s.modLmp f).mem = s.mem := rfl
@[simp] theorem State.modLmp_surf (s : State) (f : Lmp → Lmp) : (s.modLmp f).surf = s.surf := rfl
@[simp] theorem State.modLmp_comp (s : State) (f : Lmp → Lmp) : (s.modLmp f).comp = s.comp := rfl
@[simp] theorem State.modLmp_codec (s : State) (f : Lmp → Lmp) : (s.modLmp f).codec = s.codec := rfl
@[simp] theorem State.modLmp_col (s : State) (f : Lmp → Lmp) : (s.modLmp f).col = s.col := rfl
@[simp] theorem State.modLmp_sol (s : State) (f : Lmp → Lmp) : (s.modLmp f).sol = s.sol := rfl
@[simp] theorem State.modLmp_pln (s : State) (f : Lmp → Lmp) : (s.modLmp f).pln = s.pln := rfl
@[simp] theorem State.modLmp_stores (s : State) (f : Lmp → Lmp) : (s.modLmp f).stores = s.stores := rfl
@[simp] theorem State.modLmp_scn (s : State) (f : Lmp → Lmp) : (s.modLmp f).scn = s.scn := rfl
@[simp] theorem State.modLmp_em (s : State) (f : Lmp → Lmp) : (s.modLmp f).em = s.em := rfl
@[simp] theorem State.modLmp_anc (s : State) (f : Lmp → Lmp) : (s.modLmp f).anc = s.anc := rfl
@[simp] theorem State.modLmp_bly (s : State) (f : Lmp → Lmp) : (s.modLmp f).bly = s.bly := rfl
@[simp] theorem State.modLmp_head (s : State) (f : Lmp → Lmp) : (s.modLmp f).head = s.head := rfl
@[simp] theorem State.modLmp_headsRun (s : State) (f : Lmp → Lmp) : (s.modLmp f).headsRun = s.headsRun := rfl
@[simp] theorem State.modLmp_headsStop (s : State) (f : Lmp → Lmp) : (s.modLmp f).headsStop = s.headsStop := rfl
@[simp] theorem State.modLmp_gpio (s : State) (f : Lmp → Lmp) : (s.modLmp f).gpio = s.gpio := rfl
@[simp] theorem State.modLmp_tch (s : State) (f : Lmp → Lmp) : (s.modLmp f).tch = s.tch := rfl
@[simp] theorem State.modLmp_isl (s : State) (f : Lmp → Lmp) : (s.modLmp f).isl = s.isl := rfl
@[simp] theorem State.modLmp_lw (s : State) (f : Lmp → Lmp) : (s.modLmp f).lw = s.lw := rfl
@[simp] theorem State.modLmp_cas (s : State) (f : Lmp → Lmp) : (s.modLmp f).cas = s.cas := rfl
@[simp] theorem State.modLmp_clk (s : State) (f : Lmp → Lmp) : (s.modLmp f).clk = s.clk := rfl
@[simp] theorem State.modLmp_thm (s : State) (f : Lmp → Lmp) : (s.modLmp f).thm = s.thm := rfl
@[simp] theorem State.modLmp_lmp (s : State) (f : Lmp → Lmp) : (s.modLmp f).lmp = f s.lmp := rfl
@[simp] theorem State.modLmp_jtag (s : State) (f : Lmp → Lmp) : (s.modLmp f).jtag = s.jtag := rfl
@[simp] theorem State.modLmp_out (s : State) (f : Lmp → Lmp) : (s.modLmp f).out = s.out := rfl

/-! ### `State.modPwr` -/
@[simp] theorem State.modPwr_pending (s : State) (f : Pwr → Pwr) : (s.modPwr f).pending = s.pending := rfl
@[simp] theorem State.modPwr_now (s : State) (f : Pwr → Pwr) : (s.modPwr f).now = s.now := rfl
@[simp] theorem State.modPwr_free (s : State) (f : Pwr → Pwr) : (s.modPwr f).free = s.free := rfl
@[simp] theorem State.modPwr_dev (s : State) (f : Pwr → Pwr) : (s.modPwr f).dev = s.dev := rfl
@[simp] theorem State.modPwr_par (s : State) (f : Pwr → Pwr) : (s.modPwr f).par = s.par := rfl
@[simp] theorem State.modPwr_tick (s : State) (f : Pwr → Pwr) : (s.modPwr f).tick = s.tick := rfl
@[simp] theorem State.modPwr_acm (s : State) (f : Pwr → Pwr) : (s.modPwr f).acm = s.acm := rfl
@[simp] theorem State.modPwr_internal (s : State) (f : Pwr → Pwr) : (s.modPwr f).internal = s.internal := rfl
@[simp] theorem State.modPwr_flt (s : State) (f : Pwr → Pwr) : (s.modPwr f).flt = s.flt := rfl
@[simp] theorem State.modPwr_pwr (s : State) (f : Pwr → Pwr) : (s.modPwr f).pwr = f s.pwr := rfl
@[simp] theorem State.modPwr_fw (s : State) (f : Pwr → Pwr) : (s.modPwr f).fw = s.fw := rfl
@[simp] theorem State.modPwr_eth (s : State) (f : Pwr → Pwr) : (s.modPwr f).eth = s.eth := rfl
@[simp] theorem State.modPwr_rx (s : State) (f : Pwr → Pwr) : (s.modPwr f).rx = s.rx := rfl
@[simp] theorem State.modPwr_ptp (s : State) (f : Pwr → Pwr) : (s.modPwr f).ptp = s.ptp := rfl
@[simp] theorem State.modPwr_mem (s : State) (f : Pwr → Pwr) : (s.modPwr f).mem = s.mem := rfl
@[simp] theorem State.modPwr_surf (s : State) (f : Pwr → Pwr) : (s.modPwr f).surf = s.surf := rfl
@[simp] theorem State.modPwr_comp (s : State) (f : Pwr → Pwr) : (s.modPwr f).comp = s.comp := rfl
@[simp] theorem State.modPwr_codec (s : State) (f : Pwr → Pwr) : (s.modPwr f).codec = s.codec := rfl
@[simp] theorem State.modPwr_col (s : State) (f : Pwr → Pwr) : (s.modPwr f).col = s.col := rfl
@[simp] theorem State.modPwr_sol (s : State) (f : Pwr → Pwr) : (s.modPwr f).sol = s.sol := rfl
@[simp] theorem State.modPwr_pln (s : State) (f : Pwr → Pwr) : (s.modPwr f).pln = s.pln := rfl
@[simp] theorem State.modPwr_stores (s : State) (f : Pwr → Pwr) : (s.modPwr f).stores = s.stores := rfl
@[simp] theorem State.modPwr_scn (s : State) (f : Pwr → Pwr) : (s.modPwr f).scn = s.scn := rfl
@[simp] theorem State.modPwr_em (s : State) (f : Pwr → Pwr) : (s.modPwr f).em = s.em := rfl
@[simp] theorem State.modPwr_anc (s : State) (f : Pwr → Pwr) : (s.modPwr f).anc = s.anc := rfl
@[simp] theorem State.modPwr_bly (s : State) (f : Pwr → Pwr) : (s.modPwr f).bly = s.bly := rfl
@[simp] theorem State.modPwr_head (s : State) (f : Pwr → Pwr) : (s.modPwr f).head = s.head := rfl
@[simp] theorem State.modPwr_headsRun (s : State) (f : Pwr → Pwr) : (s.modPwr f).headsRun = s.headsRun := rfl
@[simp] theorem State.modPwr_headsStop (s : State) (f : Pwr → Pwr) : (s.modPwr f).headsStop = s.headsStop := rfl
@[simp] theorem State.modPwr_gpio (s : State) (f : Pwr → Pwr) : (s.modPwr f).gpio = s.gpio := rfl
@[simp] theorem State.modPwr_tch (s : State) (f : Pwr → Pwr) : (s.modPwr f).tch = s.tch := rfl
@[simp] theorem State.modPwr_isl (s : State) (f : Pwr → Pwr) : (s.modPwr f).isl = s.isl := rfl
@[simp] theorem State.modPwr_lw (s : State) (f : Pwr → Pwr) : (s.modPwr f).lw = s.lw := rfl
@[simp] theorem State.modPwr_cas (s : State) (f : Pwr → Pwr) : (s.modPwr f).cas = s.cas := rfl
@[simp] theorem State.modPwr_clk (s : State) (f : Pwr → Pwr) : (s.modPwr f).clk = s.clk := rfl
@[simp] theorem State.modPwr_thm (s : State) (f : Pwr → Pwr) : (s.modPwr f).thm = s.thm := rfl
@[simp] theorem State.modPwr_lmp (s : State) (f : Pwr → Pwr) : (s.modPwr f).lmp = s.lmp := rfl
@[simp] theorem State.modPwr_jtag (s : State) (f : Pwr → Pwr) : (s.modPwr f).jtag = s.jtag := rfl
@[simp] theorem State.modPwr_out (s : State) (f : Pwr → Pwr) : (s.modPwr f).out = s.out := rfl

/-! ### `State.modFw` -/
@[simp] theorem State.modFw_pending (s : State) (f : Flash → Flash) : (s.modFw f).pending = s.pending := rfl
@[simp] theorem State.modFw_now (s : State) (f : Flash → Flash) : (s.modFw f).now = s.now := rfl
@[simp] theorem State.modFw_free (s : State) (f : Flash → Flash) : (s.modFw f).free = s.free := rfl
@[simp] theorem State.modFw_dev (s : State) (f : Flash → Flash) : (s.modFw f).dev = s.dev := rfl
@[simp] theorem State.modFw_par (s : State) (f : Flash → Flash) : (s.modFw f).par = s.par := rfl
@[simp] theorem State.modFw_tick (s : State) (f : Flash → Flash) : (s.modFw f).tick = s.tick := rfl
@[simp] theorem State.modFw_acm (s : State) (f : Flash → Flash) : (s.modFw f).acm = s.acm := rfl
@[simp] theorem State.modFw_internal (s : State) (f : Flash → Flash) : (s.modFw f).internal = s.internal := rfl
@[simp] theorem State.modFw_flt (s : State) (f : Flash → Flash) : (s.modFw f).flt = s.flt := rfl
@[simp] theorem State.modFw_pwr (s : State) (f : Flash → Flash) : (s.modFw f).pwr = s.pwr := rfl
@[simp] theorem State.modFw_fw (s : State) (f : Flash → Flash) : (s.modFw f).fw = f s.fw := rfl
@[simp] theorem State.modFw_eth (s : State) (f : Flash → Flash) : (s.modFw f).eth = s.eth := rfl
@[simp] theorem State.modFw_rx (s : State) (f : Flash → Flash) : (s.modFw f).rx = s.rx := rfl
@[simp] theorem State.modFw_ptp (s : State) (f : Flash → Flash) : (s.modFw f).ptp = s.ptp := rfl
@[simp] theorem State.modFw_mem (s : State) (f : Flash → Flash) : (s.modFw f).mem = s.mem := rfl
@[simp] theorem State.modFw_surf (s : State) (f : Flash → Flash) : (s.modFw f).surf = s.surf := rfl
@[simp] theorem State.modFw_comp (s : State) (f : Flash → Flash) : (s.modFw f).comp = s.comp := rfl
@[simp] theorem State.modFw_codec (s : State) (f : Flash → Flash) : (s.modFw f).codec = s.codec := rfl
@[simp] theorem State.modFw_col (s : State) (f : Flash → Flash) : (s.modFw f).col = s.col := rfl
@[simp] theorem State.modFw_sol (s : State) (f : Flash → Flash) : (s.modFw f).sol = s.sol := rfl
@[simp] theorem State.modFw_pln (s : State) (f : Flash → Flash) : (s.modFw f).pln = s.pln := rfl
@[simp] theorem State.modFw_stores (s : State) (f : Flash → Flash) : (s.modFw f).stores = s.stores := rfl
@[simp] theorem State.modFw_scn (s : State) (f : Flash → Flash) : (s.modFw f).scn = s.scn := rfl
@[simp] theorem State.modFw_em (s : State) (f : Flash → Flash) : (s.modFw f).em = s.em := rfl
@[simp] theorem State.modFw_anc (s : State) (f : Flash → Flash) : (s.modFw f).anc = s.anc := rfl
@[simp] theorem State.modFw_bly (s : State) (f : Flash → Flash) : (s.modFw f).bly = s.bly := rfl
@[simp] theorem State.modFw_head (s : State) (f : Flash → Flash) : (s.modFw f).head = s.head := rfl
@[simp] theorem State.modFw_headsRun (s : State) (f : Flash → Flash) : (s.modFw f).headsRun = s.headsRun := rfl
@[simp] theorem State.modFw_headsStop (s : State) (f : Flash → Flash) : (s.modFw f).headsStop = s.headsStop := rfl
@[simp] theorem State.modFw_gpio (s : State) (f : Flash → Flash) : (s.modFw f).gpio = s.gpio := rfl
@[simp] theorem State.modFw_tch (s : State) (f : Flash → Flash) : (s.modFw f).tch = s.tch := rfl
@[simp] theorem State.modFw_isl (s : State) (f : Flash → Flash) : (s.modFw f).isl = s.isl := rfl
@[simp] theorem State.modFw_lw (s : State) (f : Flash → Flash) : (s.modFw f).lw = s.lw := rfl
@[simp] theorem State.modFw_cas (s : State) (f : Flash → Flash) : (s.modFw f).cas = s.cas := rfl
@[simp] theorem State.modFw_clk (s : State) (f : Flash → Flash) : (s.modFw f).clk = s.clk := rfl
@[simp] theorem State.modFw_thm (s : State) (f : Flash → Flash) : (s.modFw f).thm = s.thm := rfl
@[simp] theorem State.modFw_lmp (s : State) (f : Flash → Flash) : (s.modFw f).lmp = s.lmp := rfl
@[simp] theorem State.modFw_jtag (s : State) (f : Flash → Flash) : (s.modFw f).jtag = s.jtag := rfl
@[simp] theorem State.modFw_out (s : State) (f : Flash → Flash) : (s.modFw f).out = s.out := rfl

/-! ### `State.modCas` -/
@[simp] theorem State.modCas_pending (s : State) (f : Cas → Cas) : (s.modCas f).pending = s.pending := rfl
@[simp] theorem State.modCas_now (s : State) (f : Cas → Cas) : (s.modCas f).now = s.now := rfl
@[simp] theorem State.modCas_free (s : State) (f : Cas → Cas) : (s.modCas f).free = s.free := rfl
@[simp] theorem State.modCas_dev (s : State) (f : Cas → Cas) : (s.modCas f).dev = s.dev := rfl
@[simp] theorem State.modCas_par (s : State) (f : Cas → Cas) : (s.modCas f).par = s.par := rfl
@[simp] theorem State.modCas_tick (s : State) (f : Cas → Cas) : (s.modCas f).tick = s.tick := rfl
@[simp] theorem State.modCas_acm (s : State) (f : Cas → Cas) : (s.modCas f).acm = s.acm := rfl
@[simp] theorem State.modCas_internal (s : State) (f : Cas → Cas) : (s.modCas f).internal = s.internal := rfl
@[simp] theorem State.modCas_flt (s : State) (f : Cas → Cas) : (s.modCas f).flt = s.flt := rfl
@[simp] theorem State.modCas_pwr (s : State) (f : Cas → Cas) : (s.modCas f).pwr = s.pwr := rfl
@[simp] theorem State.modCas_fw (s : State) (f : Cas → Cas) : (s.modCas f).fw = s.fw := rfl
@[simp] theorem State.modCas_eth (s : State) (f : Cas → Cas) : (s.modCas f).eth = s.eth := rfl
@[simp] theorem State.modCas_rx (s : State) (f : Cas → Cas) : (s.modCas f).rx = s.rx := rfl
@[simp] theorem State.modCas_ptp (s : State) (f : Cas → Cas) : (s.modCas f).ptp = s.ptp := rfl
@[simp] theorem State.modCas_mem (s : State) (f : Cas → Cas) : (s.modCas f).mem = s.mem := rfl
@[simp] theorem State.modCas_surf (s : State) (f : Cas → Cas) : (s.modCas f).surf = s.surf := rfl
@[simp] theorem State.modCas_comp (s : State) (f : Cas → Cas) : (s.modCas f).comp = s.comp := rfl
@[simp] theorem State.modCas_codec (s : State) (f : Cas → Cas) : (s.modCas f).codec = s.codec := rfl
@[simp] theorem State.modCas_col (s : State) (f : Cas → Cas) : (s.modCas f).col = s.col := rfl
@[simp] theorem State.modCas_sol (s : State) (f : Cas → Cas) : (s.modCas f).sol = s.sol := rfl
@[simp] theorem State.modCas_pln (s : State) (f : Cas → Cas) : (s.modCas f).pln = s.pln := rfl
@[simp] theorem State.modCas_stores (s : State) (f : Cas → Cas) : (s.modCas f).stores = s.stores := rfl
@[simp] theorem State.modCas_scn (s : State) (f : Cas → Cas) : (s.modCas f).scn = s.scn := rfl
@[simp] theorem State.modCas_em (s : State) (f : Cas → Cas) : (s.modCas f).em = s.em := rfl
@[simp] theorem State.modCas_anc (s : State) (f : Cas → Cas) : (s.modCas f).anc = s.anc := rfl
@[simp] theorem State.modCas_bly (s : State) (f : Cas → Cas) : (s.modCas f).bly = s.bly := rfl
@[simp] theorem State.modCas_head (s : State) (f : Cas → Cas) : (s.modCas f).head = s.head := rfl
@[simp] theorem State.modCas_headsRun (s : State) (f : Cas → Cas) : (s.modCas f).headsRun = s.headsRun := rfl
@[simp] theorem State.modCas_headsStop (s : State) (f : Cas → Cas) : (s.modCas f).headsStop = s.headsStop := rfl
@[simp] theorem State.modCas_gpio (s : State) (f : Cas → Cas) : (s.modCas f).gpio = s.gpio := rfl
@[simp] theorem State.modCas_tch (s : State) (f : Cas → Cas) : (s.modCas f).tch = s.tch := rfl
@[simp] theorem State.modCas_isl (s : State) (f : Cas → Cas) : (s.modCas f).isl = s.isl := rfl
@[simp] theorem State.modCas_lw (s : State) (f : Cas → Cas) : (s.modCas f).lw = s.lw := rfl
@[simp] theorem State.modCas_cas (s : State) (f : Cas → Cas) : (s.modCas f).cas = f s.cas := rfl
@[simp] theorem State.modCas_clk (s : State) (f : Cas → Cas) : (s.modCas f).clk = s.clk := rfl
@[simp] theorem State.modCas_thm (s : State) (f : Cas → Cas) : (s.modCas f).thm = s.thm := rfl
@[simp] theorem State.modCas_lmp (s : State) (f : Cas → Cas) : (s.modCas f).lmp = s.lmp := rfl
@[simp] theorem State.modCas_jtag (s : State) (f : Cas → Cas) : (s.modCas f).jtag = s.jtag := rfl
@[simp] theorem State.modCas_out (s : State) (f : Cas → Cas) : (s.modCas f).out = s.out := rfl

/-! ### `State.modTrav` -/
@[simp] theorem State.modTrav_pending (s : State) (p : PortIx) (f : CasPort → CasPort) : (s.modTrav p f).pending = s.pending := rfl
@[simp] theorem State.modTrav_now (s : State) (p : PortIx) (f : CasPort → CasPort) : (s.modTrav p f).now = s.now := rfl
@[simp] theorem State.modTrav_free (s : State) (p : PortIx) (f : CasPort → CasPort) : (s.modTrav p f).free = s.free := rfl
@[simp] theorem State.modTrav_dev (s : State) (p : PortIx) (f : CasPort → CasPort) : (s.modTrav p f).dev = s.dev := rfl
@[simp] theorem State.modTrav_par (s : State) (p : PortIx) (f : CasPort → CasPort) : (s.modTrav p f).par = s.par := rfl
@[simp] theorem State.modTrav_tick (s : State) (p : PortIx) (f : CasPort → CasPort) : (s.modTrav p f).tick = s.tick := rfl
@[simp] theorem State.modTrav_acm (s : State) (p : PortIx) (f : CasPort → CasPort) : (s.modTrav p f).acm = s.acm := rfl
@[simp] theorem State.modTrav_internal (s : State) (p : PortIx) (f : CasPort → CasPort) : (s.modTrav p f).internal = s.internal := rfl
@[simp] theorem State.modTrav_flt (s : State) (p : PortIx) (f : CasPort → CasPort) : (s.modTrav p f).flt = s.flt := rfl
@[simp] theorem State.modTrav_pwr (s : State) (p : PortIx) (f : CasPort → CasPort) : (s.modTrav p f).pwr = s.pwr := rfl
@[simp] theorem State.modTrav_fw (s : State) (p : PortIx) (f : CasPort → CasPort) : (s.modTrav p f).fw = s.fw := rfl
@[simp] theorem State.modTrav_eth (s : State) (p : PortIx) (f : CasPort → CasPort) : (s.modTrav p f).eth = s.eth := rfl
@[simp] theorem State.modTrav_rx (s : State) (p : PortIx) (f : CasPort → CasPort) : (s.modTrav p f).rx = s.rx := rfl
@[simp] theorem State.modTrav_ptp (s : State) (p : PortIx) (f : CasPort → CasPort) : (s.modTrav p f).ptp = s.ptp := rfl
@[simp] theorem State.modTrav_mem (s : State) (p : PortIx) (f : CasPort → CasPort) : (s.modTrav p f).mem = s.mem := rfl
@[simp] theorem State.modTrav_surf (s : State) (p : PortIx) (f : CasPort → CasPort) : (s.modTrav p f).surf = s.surf := rfl
@[simp] theorem State.modTrav_comp (s : State) (p : PortIx) (f : CasPort → CasPort) : (s.modTrav p f).comp = s.comp := rfl
@[simp] theorem State.modTrav_codec (s : State) (p : PortIx) (f : CasPort → CasPort) : (s.modTrav p f).codec = s.codec := rfl
@[simp] theorem State.modTrav_col (s : State) (p : PortIx) (f : CasPort → CasPort) : (s.modTrav p f).col = s.col := rfl
@[simp] theorem State.modTrav_sol (s : State) (p : PortIx) (f : CasPort → CasPort) : (s.modTrav p f).sol = s.sol := rfl
@[simp] theorem State.modTrav_pln (s : State) (p : PortIx) (f : CasPort → CasPort) : (s.modTrav p f).pln = s.pln := rfl
@[simp] theorem State.modTrav_stores (s : State) (p : PortIx) (f : CasPort → CasPort) : (s.modTrav p f).stores = s.stores := rfl
@[simp] theorem State.modTrav_scn (s : State) (p : PortIx) (f : CasPort → CasPort) : (s.modTrav p f).scn = s.scn := rfl
@[simp] theorem State.modTrav_em (s : State) (p : PortIx) (f : CasPort → CasPort) : (s.modTrav p f).em = s.em := rfl
@[simp] theorem State.modTrav_anc (s : State) (p : PortIx) (f : CasPort → CasPort) : (s.modTrav p f).anc = s.anc := rfl
@[simp] theorem State.modTrav_bly (s : State) (p : PortIx) (f : CasPort → CasPort) : (s.modTrav p f).bly = s.bly := rfl
@[simp] theorem State.modTrav_head (s : State) (p : PortIx) (f : CasPort → CasPort) : (s.modTrav p f).head = s.head := rfl
@[simp] theorem State.modTrav_headsRun (s : State) (p : PortIx) (f : CasPort → CasPort) : (s.modTrav p f).headsRun = s.headsRun := rfl
@[simp] theorem State.modTrav_headsStop (s : State) (p : PortIx) (f : CasPort → CasPort) : (s.modTrav p f).headsStop = s.headsStop := rfl
@[simp] theorem State.modTrav_gpio (s : State) (p : PortIx) (f : CasPort → CasPort) : (s.modTrav p f).gpio = s.gpio := rfl
@[simp] theorem State.modTrav_tch (s : State) (p : PortIx) (f : CasPort → CasPort) : (s.modTrav p f).tch = s.tch := rfl
@[simp] theorem State.modTrav_isl (s : State) (p : PortIx) (f : CasPort → CasPort) : (s.modTrav p f).isl = s.isl := rfl
@[simp] theorem State.modTrav_lw (s : State) (p : PortIx) (f : CasPort → CasPort) : (s.modTrav p f).lw = s.lw := rfl
@[simp] theorem State.modTrav_cas (s : State) (p : PortIx) (f : CasPort → CasPort) : (s.modTrav p f).cas = { s.cas with port := vmod s.cas.port p f } := rfl
@[simp] theorem State.modTrav_clk (s : State) (p : PortIx) (f : CasPort → CasPort) : (s.modTrav p f).clk = s.clk := rfl
@[simp] theorem State.modTrav_thm (s : State) (p : PortIx) (f : CasPort → CasPort) : (s.modTrav p f).thm = s.thm := rfl
@[simp] theorem State.modTrav_lmp (s : State) (p : PortIx) (f : CasPort → CasPort) : (s.modTrav p f).lmp = s.lmp := rfl
@[simp] theorem State.modTrav_jtag (s : State) (p : PortIx) (f : CasPort → CasPort) : (s.modTrav p f).jtag = s.jtag := rfl
@[simp] theorem State.modTrav_out (s : State) (p : PortIx) (f : CasPort → CasPort) : (s.modTrav p f).out = s.out := rfl

/-! ### `State.modPll` -/
@[simp] theorem State.modPll_pending (s : State) (k : PllIx) (f : Pll → Pll) : (s.modPll k f).pending = s.pending := rfl
@[simp] theorem State.modPll_now (s : State) (k : PllIx) (f : Pll → Pll) : (s.modPll k f).now = s.now := rfl
@[simp] theorem State.modPll_free (s : State) (k : PllIx) (f : Pll → Pll) : (s.modPll k f).free = s.free := rfl
@[simp] theorem State.modPll_dev (s : State) (k : PllIx) (f : Pll → Pll) : (s.modPll k f).dev = s.dev := rfl
@[simp] theorem State.modPll_par (s : State) (k : PllIx) (f : Pll → Pll) : (s.modPll k f).par = s.par := rfl
@[simp] theorem State.modPll_tick (s : State) (k : PllIx) (f : Pll → Pll) : (s.modPll k f).tick = s.tick := rfl
@[simp] theorem State.modPll_acm (s : State) (k : PllIx) (f : Pll → Pll) : (s.modPll k f).acm = s.acm := rfl
@[simp] theorem State.modPll_internal (s : State) (k : PllIx) (f : Pll → Pll) : (s.modPll k f).internal = s.internal := rfl
@[simp] theorem State.modPll_flt (s : State) (k : PllIx) (f : Pll → Pll) : (s.modPll k f).flt = s.flt := rfl
@[simp] theorem State.modPll_pwr (s : State) (k : PllIx) (f : Pll → Pll) : (s.modPll k f).pwr = s.pwr := rfl
@[simp] theorem State.modPll_fw (s : State) (k : PllIx) (f : Pll → Pll) : (s.modPll k f).fw = s.fw := rfl
@[simp] theorem State.modPll_eth (s : State) (k : PllIx) (f : Pll → Pll) : (s.modPll k f).eth = s.eth := rfl
@[simp] theorem State.modPll_rx (s : State) (k : PllIx) (f : Pll → Pll) : (s.modPll k f).rx = s.rx := rfl
@[simp] theorem State.modPll_ptp (s : State) (k : PllIx) (f : Pll → Pll) : (s.modPll k f).ptp = s.ptp := rfl
@[simp] theorem State.modPll_mem (s : State) (k : PllIx) (f : Pll → Pll) : (s.modPll k f).mem = s.mem := rfl
@[simp] theorem State.modPll_surf (s : State) (k : PllIx) (f : Pll → Pll) : (s.modPll k f).surf = s.surf := rfl
@[simp] theorem State.modPll_comp (s : State) (k : PllIx) (f : Pll → Pll) : (s.modPll k f).comp = s.comp := rfl
@[simp] theorem State.modPll_codec (s : State) (k : PllIx) (f : Pll → Pll) : (s.modPll k f).codec = s.codec := rfl
@[simp] theorem State.modPll_col (s : State) (k : PllIx) (f : Pll → Pll) : (s.modPll k f).col = s.col := rfl
@[simp] theorem State.modPll_sol (s : State) (k : PllIx) (f : Pll → Pll) : (s.modPll k f).sol = s.sol := rfl
@[simp] theorem State.modPll_pln (s : State) (k : PllIx) (f : Pll → Pll) : (s.modPll k f).pln = s.pln := rfl
@[simp] theorem State.modPll_stores (s : State) (k : PllIx) (f : Pll → Pll) : (s.modPll k f).stores = s.stores := rfl
@[simp] theorem State.modPll_scn (s : State) (k : PllIx) (f : Pll → Pll) : (s.modPll k f).scn = s.scn := rfl
@[simp] theorem State.modPll_em (s : State) (k : PllIx) (f : Pll → Pll) : (s.modPll k f).em = s.em := rfl
@[simp] theorem State.modPll_anc (s : State) (k : PllIx) (f : Pll → Pll) : (s.modPll k f).anc = s.anc := rfl
@[simp] theorem State.modPll_bly (s : State) (k : PllIx) (f : Pll → Pll) : (s.modPll k f).bly = s.bly := rfl
@[simp] theorem State.modPll_head (s : State) (k : PllIx) (f : Pll → Pll) : (s.modPll k f).head = s.head := rfl
@[simp] theorem State.modPll_headsRun (s : State) (k : PllIx) (f : Pll → Pll) : (s.modPll k f).headsRun = s.headsRun := rfl
@[simp] theorem State.modPll_headsStop (s : State) (k : PllIx) (f : Pll → Pll) : (s.modPll k f).headsStop = s.headsStop := rfl
@[simp] theorem State.modPll_gpio (s : State) (k : PllIx) (f : Pll → Pll) : (s.modPll k f).gpio = s.gpio := rfl
@[simp] theorem State.modPll_tch (s : State) (k : PllIx) (f : Pll → Pll) : (s.modPll k f).tch = s.tch := rfl
@[simp] theorem State.modPll_isl (s : State) (k : PllIx) (f : Pll → Pll) : (s.modPll k f).isl = s.isl := rfl
@[simp] theorem State.modPll_lw (s : State) (k : PllIx) (f : Pll → Pll) : (s.modPll k f).lw = s.lw := rfl
@[simp] theorem State.modPll_cas (s : State) (k : PllIx) (f : Pll → Pll) : (s.modPll k f).cas = s.cas := rfl
@[simp] theorem State.modPll_clk (s : State) (k : PllIx) (f : Pll → Pll) : (s.modPll k f).clk = { s.clk with pll := vmod s.clk.pll k f } := rfl
@[simp] theorem State.modPll_thm (s : State) (k : PllIx) (f : Pll → Pll) : (s.modPll k f).thm = s.thm := rfl
@[simp] theorem State.modPll_lmp (s : State) (k : PllIx) (f : Pll → Pll) : (s.modPll k f).lmp = s.lmp := rfl
@[simp] theorem State.modPll_jtag (s : State) (k : PllIx) (f : Pll → Pll) : (s.modPll k f).jtag = s.jtag := rfl
@[simp] theorem State.modPll_out (s : State) (k : PllIx) (f : Pll → Pll) : (s.modPll k f).out = s.out := rfl

/-! ### `State.log` -/
@[simp] theorem State.log_pending (s : State) (block code cls unit : Nat) (data : Bytes) : (s.log block code cls unit data).pending = s.pending := rfl
@[simp] theorem State.log_now (s : State) (block code cls unit : Nat) (data : Bytes) : (s.log block code cls unit data).now = s.now := rfl
@[simp] theorem State.log_free (s : State) (block code cls unit : Nat) (data : Bytes) : (s.log block code cls unit data).free = s.free := rfl
@[simp] theorem State.log_dev (s : State) (block code cls unit : Nat) (data : Bytes) : (s.log block code cls unit data).dev = s.dev := rfl
@[simp] theorem State.log_par (s : State) (block code cls unit : Nat) (data : Bytes) : (s.log block code cls unit data).par = s.par := rfl
@[simp] theorem State.log_tick (s : State) (block code cls unit : Nat) (data : Bytes) : (s.log block code cls unit data).tick = s.tick := rfl
@[simp] theorem State.log_acm (s : State) (block code cls unit : Nat) (data : Bytes) : (s.log block code cls unit data).acm = s.acm := rfl
@[simp] theorem State.log_internal (s : State) (block code cls unit : Nat) (data : Bytes) : (s.log block code cls unit data).internal = s.internal := rfl
@[simp] theorem State.log_pwr (s : State) (block code cls unit : Nat) (data : Bytes) : (s.log block code cls unit data).pwr = s.pwr := rfl
@[simp] theorem State.log_fw (s : State) (block code cls unit : Nat) (data : Bytes) : (s.log block code cls unit data).fw = s.fw := rfl
@[simp] theorem State.log_eth (s : State) (block code cls unit : Nat) (data : Bytes) : (s.log block code cls unit data).eth = s.eth := rfl
@[simp] theorem State.log_rx (s : State) (block code cls unit : Nat) (data : Bytes) : (s.log block code cls unit data).rx = s.rx := rfl
@[simp] theorem State.log_ptp (s : State) (block code cls unit : Nat) (data : Bytes) : (s.log block code cls unit data).ptp = s.ptp := rfl
@[simp] theorem State.log_mem (s : State) (block code cls unit : Nat) (data : Bytes) : (s.log block code cls unit data).mem = s.mem := rfl
@[simp] theorem State.log_surf (s : State) (block code cls unit : Nat) (data : Bytes) : (s.log block code cls unit data).surf = s.surf := rfl
@[simp] theorem State.log_comp (s : State) (block code cls unit : Nat) (data : Bytes) : (s.log block code cls unit data).comp = s.comp := rfl
@[simp] theorem State.log_codec (s : State) (block code cls unit : Nat) (data : Bytes) : (s.log block code cls unit data).codec = s.codec := rfl
@[simp] theorem State.log_col (s : State) (block code cls unit : Nat) (data : Bytes) : (s.log block code cls unit data).col = s.col := rfl
@[simp] theorem State.log_sol (s : State) (block code cls unit : Nat) (data : Bytes) : (s.log block code cls unit data).sol = s.sol := rfl
@[simp] theorem State.log_pln (s : State) (block code cls unit : Nat) (data : Bytes) : (s.log block code cls unit data).pln = s.pln := rfl
@[simp] theorem State.log_stores (s : State) (block code cls unit : Nat) (data : Bytes) : (s.log block code cls unit data).stores = s.stores := rfl
@[simp] theorem State.log_scn (s : State) (block code cls unit : Nat) (data : Bytes) : (s.log block code cls unit data).scn = s.scn := rfl
@[simp] theorem State.log_em (s : State) (block code cls unit : Nat) (data : Bytes) : (s.log block code cls unit data).em = s.em := rfl
@[simp] theorem State.log_anc (s : State) (block code cls unit : Nat) (data : Bytes) : (s.log block code cls unit data).anc = s.anc := rfl
@[simp] theorem State.log_bly (s : State) (block code cls unit : Nat) (data : Bytes) : (s.log block code cls unit data).bly = s.bly := rfl
@[simp] theorem State.log_head (s : State) (block code cls unit : Nat) (data : Bytes) : (s.log block code cls unit data).head = s.head := rfl
@[simp] theorem State.log_headsRun (s : State) (block code cls unit : Nat) (data : Bytes) : (s.log block code cls unit data).headsRun = s.headsRun := rfl
@[simp] theorem State.log_headsStop (s : State) (block code cls unit : Nat) (data : Bytes) : (s.log block code cls unit data).headsStop = s.headsStop := rfl
@[simp] theorem State.log_gpio (s : State) (block code cls unit : Nat) (data : Bytes) : (s.log block code cls unit data).gpio = s.gpio := rfl
@[simp] theorem State.log_tch (s : State) (block code cls unit : Nat) (data : Bytes) : (s.log block code cls unit data).tch = s.tch := rfl
@[simp] theorem State.log_isl (s : State) (block code cls unit : Nat) (data : Bytes) : (s.log block code cls unit data).isl = s.isl := rfl
@[simp] theorem State.log_lw (s : State) (block code cls unit : Nat) (data : Bytes) : (s.log block code cls unit data).lw = s.lw := rfl
@[simp] theorem State.log_cas (s : State) (block code cls unit : Nat) (data : Bytes) : (s.log block code cls unit data).cas = s.cas := rfl
@[simp] theorem State.log_clk (s : State) (block code cls unit : Nat) (data : Bytes) : (s.log block code cls unit data).clk = s.clk := rfl
@[simp] theorem State.log_thm (s : State) (block code cls unit : Nat) (data : Bytes) : (s.log block code cls unit data).thm = s.thm := rfl
@[simp] theorem State.log_lmp (s : State) (block code cls unit : Nat) (data : Bytes) : (s.log block code cls unit data).lmp = s.lmp := rfl
@[simp] theorem State.log_jtag (s : State) (block code cls unit : Nat) (data : Bytes) : (s.log block code cls unit data).jtag = s.jtag := rfl
@[simp] theorem State.log_out (s : State) (block code cls unit : Nat) (data : Bytes) : (s.log block code cls unit data).out = s.out := rfl

end Sys2Proof.Machine
end

