-- ==== Sys2Proof/Laws/Memory.lean ====
section
/-! SUPPORT. Sorted tables and memory: what a read gives after a write, and that every memory operation keeps the
canonical form. -/

namespace Sys2Proof.Machine

/-! ### Sorted tables -/

/-- The keys of a sorted table that begins with `j` are all above `j`. -/
theorem assocSorted_above {β : Type} (j : Nat) (v : β) (r : List (Nat × β)) (h : assocSorted ((j, v) :: r) = true) :
    ∀ e ∈ r, j < e.1 := by
  induction r generalizing j v with
  | nil => simp
  | cons a r ih =>
    obtain ⟨k, w⟩ := a
    simp only [assocSorted, Bool.and_eq_true, decide_eq_true_eq] at h
    intro e he
    rcases List.mem_cons.mp he with rfl | he
    · exact h.1
    · exact Nat.lt_trans h.1 (ih k w h.2 e he)

theorem assocSorted_tail {β : Type} (j : Nat) (v : β) (r : List (Nat × β)) (h : assocSorted ((j, v) :: r) = true) :
    assocSorted r = true := by
  cases r with
  | nil => rfl
  | cons a r =>
    obtain ⟨k, w⟩ := a
    simp only [assocSorted, Bool.and_eq_true] at h
    exact h.2

/-- Put a smaller key in front of a sorted table. -/
theorem assocSorted_cons {β : Type} (j : Nat) (v : β) (r : List (Nat × β)) (h : assocSorted r = true)
    (hl : ∀ e ∈ r, j < e.1) : assocSorted ((j, v) :: r) = true := by
  cases r with
  | nil => rfl
  | cons a r =>
    obtain ⟨k, w⟩ := a
    simp only [assocSorted, Bool.and_eq_true, decide_eq_true_eq]
    exact ⟨hl (k, w) (List.mem_cons_self ..), h⟩

/-- Entries of a table after a key is set. -/
theorem mem_assocSet {β : Type} (k : Nat) (v : β) (l : List (Nat × β)) (e : Nat × β) (h : e ∈ assocSet k v l) :
    e = (k, v) ∨ e ∈ l := by
  induction l with
  | nil => simpa [assocSet] using h
  | cons a r ih =>
    obtain ⟨j, w⟩ := a
    simp only [assocSet] at h
    split at h
    · rcases List.mem_cons.mp h with h | h
      · exact .inl h
      · exact .inr h
    · split at h
      · rcases List.mem_cons.mp h with h | h
        · exact .inl h
        · exact .inr (List.mem_cons_of_mem _ h)
      · rcases List.mem_cons.mp h with h | h
        · exact .inr (h ▸ List.mem_cons_self ..)
        · exact (ih h).imp id (List.mem_cons_of_mem _)

theorem assocSorted_set {β : Type} (k : Nat) (v : β) (l : List (Nat × β)) (h : assocSorted l = true) :
    assocSorted (assocSet k v l) = true := by
  induction l with
  | nil => rfl
  | cons a r ih =>
    obtain ⟨j, w⟩ := a
    simp only [assocSet]
    have hr := assocSorted_tail j w r h
    have ha := assocSorted_above j w r h
    split
    next hk =>
      refine assocSorted_cons k v _ h (fun e he => ?_)
      rcases List.mem_cons.mp he with rfl | he
      · exact hk
      · exact Nat.lt_trans hk (ha e he)
    next hk =>
      split
      next he =>
        have : k = j := by simpa using he
        subst this
        exact assocSorted_cons k v r hr ha
      next he =>
        refine assocSorted_cons j w _ (ih hr) (fun e hm => ?_)
        rcases mem_assocSet k v r e hm with rfl | hm
        · have : k ≠ j := by simpa using he
          simp; omega
        · exact ha e hm

theorem assocSorted_del {β : Type} (k : Nat) (l : List (Nat × β)) (h : assocSorted l = true) :
    assocSorted (assocDel k l) = true := by
  induction l with
  | nil => rfl
  | cons a r ih =>
    obtain ⟨j, w⟩ := a
    have hr := assocSorted_tail j w r h
    have ha := assocSorted_above j w r h
    simp only [assocDel, List.filter_cons] at ih ⊢
    split
    · exact assocSorted_cons j w _ (ih hr) (fun e he => ha e (List.mem_filter.mp he).1)
    · exact ih hr

/-- A sorted table holds nothing under a key below all of its own. -/
theorem assocGet_none_of_below {β : Type} (k : Nat) (l : List (Nat × β)) (h : ∀ e ∈ l, k < e.1) : assocGet k l = none := by
  induction l with
  | nil => rfl
  | cons a r ih =>
    obtain ⟨j, w⟩ := a
    have hj := h (j, w) (List.mem_cons_self ..)
    simp only at hj
    simp only [assocGet]
    split
    next he => simp at he; omega
    next => exact ih (fun e he => h e (List.mem_cons_of_mem _ he))

/-- Reading a key after setting one. -/
theorem assocGet_set {β : Type} (k j : Nat) (v : β) (l : List (Nat × β)) :
    assocGet j (assocSet k v l) = if j = k then some v else assocGet j l := by
  induction l with
  | nil =>
    simp only [assocSet, assocGet]
    by_cases h : k = j
    · simp [h]
    · simp [h, Ne.symm h]
  | cons a r ih =>
    obtain ⟨i, w⟩ := a
    simp only [assocSet]
    split
    next hk =>
      simp only [assocGet]
      by_cases h : k = j
      · simp [h]
      · simp [h, Ne.symm h]
    next hk =>
      split
      next he =>
        have : k = i := by simpa using he
        subst this
        simp only [assocGet]
        by_cases h : k = j
        · simp [h]
        · simp [h, Ne.symm h]
      next he =>
        have hki : ¬ k = i := by simpa using he
        simp only [assocGet, ih]
        by_cases h : i = j
        · subst h
          have : ¬ i = k := fun e => hki e.symm
          simp [this]
        · simp [h]

/-- Reading a key after removing one. -/
theorem assocGet_del {β : Type} (k j : Nat) (l : List (Nat × β)) :
    assocGet j (assocDel k l) = if j = k then none else assocGet j l := by
  induction l with
  | nil => simp [assocDel, assocGet]
  | cons a r ih =>
    obtain ⟨i, w⟩ := a
    simp only [assocDel, List.filter_cons] at ih ⊢
    by_cases h : i = k
    · subst h
      simp only [bne_self_eq_false, Bool.false_eq_true, if_false, ih, assocGet]
      by_cases hj : j = i
      · simp [hj]
      · have : ¬ i = j := fun e => hj e.symm
        simp [hj, this]
    · have : (i != k) = true := by simpa using h
      simp only [this, if_true, assocGet, ih]
      by_cases hi : i = j
      · subst hi
        simp [h]
      · simp [hi]

/-! ### Bytes -/

/-- Reading a byte after setting one. -/
theorem memGet_memSet (l : List Host.Cell) (a b : Nat) (v : Byte) :
    memGet (memSet l a v) b = if b = a then v else memGet l b := by
  unfold memSet memGet
  by_cases hv : v = memDefault
  · simp only [if_pos hv, assocGet_del]
    by_cases h : b = a <;> simp [h, hv]
  · simp only [if_neg hv, assocGet_set]
    by_cases h : b = a <;> simp [h]

theorem memSet_wf (l : List Host.Cell) (a : Nat) (v : Byte) (h : memWf l = true) : memWf (memSet l a v) = true := by
  unfold memWf memSet at *
  simp only [Bool.and_eq_true, List.all_eq_true] at h ⊢
  split
  next => exact ⟨assocSorted_del a l h.1, fun e he => h.2 e (List.mem_filter.mp he).1⟩
  next hv =>
    refine ⟨assocSorted_set a v l h.1, fun e he => ?_⟩
    rcases mem_assocSet a v l e he with rfl | he
    · simpa using hv
    · exact h.2 e he

/-- A write keeps the canonical form. -/
theorem memWrite_wf (l : List Host.Cell) (a : Nat) (d : Bytes) (h : memWf l = true) : memWf (memWrite l a d) = true := by
  induction d generalizing l a with
  | nil => exact h
  | cons b r ih => exact ih (memSet l a b) (a + 1) (memSet_wf l a b h)

/-- A sorted table is one whose keys rise pairwise. -/
theorem assocSorted_iff {β : Type} (l : List (Nat × β)) :
    assocSorted l = true ↔ l.Pairwise (fun a b => a.1 < b.1) := by
  induction l with
  | nil => simp [assocSorted]
  | cons a r ih =>
    obtain ⟨j, v⟩ := a
    rw [List.pairwise_cons]
    exact ⟨fun h => ⟨assocSorted_above j v r h, ih.mp (assocSorted_tail j v r h)⟩,
      fun h => assocSorted_cons j v r (ih.mpr h.2) h.1⟩

theorem memWf_filter (l : List Host.Cell) (p : Host.Cell → Bool) (h : memWf l = true) : memWf (l.filter p) = true := by
  simp only [memWf, Bool.and_eq_true, assocSorted_iff, List.all_eq_true] at h ⊢
  exact ⟨h.1.filter p, fun c hc => h.2 c (List.mem_filter.mp hc).1⟩

/-- Filling a range at once keeps the canonical form. -/
theorem memFill_wf (l : List Host.Cell) (a : Nat) (d : Bytes) (h : memWf l = true) : memWf (memFill l a d) = true := by
  have hm : ∀ c ∈ ((List.range d.length).zip d).filterMap (fun (x : Nat × Byte) =>
      if x.2 = memDefault then none else some (a + x.1, x.2)), (a ≤ c.1 ∧ c.1 < a + d.length) ∧ c.2 ≠ memDefault := by
    intro c hc
    obtain ⟨⟨k, b⟩, hk, hs⟩ := List.mem_filterMap.mp hc
    have hr := List.mem_range.mp (List.of_mem_zip hk).1
    simp only at hs
    split at hs
    · cases hs
    · next hb =>
      injection hs with hs
      subst hs
      exact ⟨⟨by simp, by simpa using hr⟩, hb⟩
  have hp : (((List.range d.length).zip d).filterMap (fun (x : Nat × Byte) =>
      if x.2 = memDefault then none else some (a + x.1, x.2))).Pairwise (fun a b => a.1 < b.1) := by
    have hz : ((List.range d.length).zip d).Pairwise (fun x y => x.1 < y.1) := by
      rw [← List.pairwise_map (f := Prod.fst), List.map_fst_zip (by simp)]
      exact List.pairwise_lt_range
    refine List.Pairwise.filterMap _ (fun x y hxy b hb c hc => ?_) hz
    split at hb
    · cases hb
    · split at hc
      · cases hc
      · injection hb with hb; injection hc with hc
        subst hb; subst hc
        simpa using hxy
  simp only [memWf, Bool.and_eq_true, assocSorted_iff, List.all_eq_true] at h ⊢
  constructor
  · unfold memFill
    rw [List.pairwise_append, List.pairwise_append]
    refine ⟨⟨h.1.filter _, hp, fun x hx y hy => ?_⟩, h.1.filter _, fun x hx y hy => ?_⟩
    · have := (List.mem_filter.mp hx).2
      have := (hm y hy).1
      simp only [decide_eq_true_eq] at *
      omega
    · have hy := (List.mem_filter.mp hy).2
      rcases List.mem_append.mp hx with hx | hx
      · have := (List.mem_filter.mp hx).2
        simp only [decide_eq_true_eq] at *
        omega
      · have := (hm x hx).1
        simp only [decide_eq_true_eq] at *
        omega
  · intro c hc
    rcases List.mem_append.mp hc with hc | hc
    · rcases List.mem_append.mp hc with hc | hc
      · exact h.2 c (List.mem_filter.mp hc).1
      · simpa using (hm c hc).2
    · exact h.2 c (List.mem_filter.mp hc).1

/-- A byte outside a write reads as before. -/
theorem memGet_memWrite_of_outside (l : List Host.Cell) (a : Nat) (d : Bytes) (b : Nat) (h : b < a ∨ a + d.length ≤ b) :
    memGet (memWrite l a d) b = memGet l b := by
  induction d generalizing l a with
  | nil => rfl
  | cons x r ih =>
    simp only [List.length_cons] at h
    rw [memWrite, ih _ _ (by omega), memGet_memSet, if_neg (by omega)]

/-- A byte inside a write reads as written. -/
theorem memGet_memWrite (l : List Host.Cell) (a : Nat) (d : Bytes) (k : Nat) (h : k < d.length) :
    memGet (memWrite l a d) (a + k) = d[k] := by
  induction d generalizing l a k with
  | nil => simp at h
  | cons x r ih =>
    simp only [memWrite]
    cases k with
    | zero =>
      rw [Nat.add_zero, memGet_memWrite_of_outside _ _ _ _ (.inl (by omega)), memGet_memSet]
      simp
    | succ k =>
      have := ih (memSet l a x) (a + 1) k (by simpa using h)
      rw [Nat.add_right_comm] at this
      simpa [Nat.add_assoc] using this

/-- What a read gives right after a write of the same range. -/
theorem memRead_memWrite (l : List Host.Cell) (a : Nat) (d : Bytes) : memRead (memWrite l a d) a d.length = d := by
  unfold memRead
  apply List.ext_getElem
  · simp
  · intro k h1 h2
    simp only [List.getElem_map, List.getElem_range]
    exact memGet_memWrite l a d k h2

/-- Setting one copy of the memory. -/
theorem Mem.setCells_wf (m : Mem) (c : Copy) (l : List Host.Cell) (h : m.wf = true) (hl : memWf l = true) :
    (m.setCells c l).wf = true := by
  unfold Mem.wf at *
  simp only [Bool.and_eq_true] at h ⊢
  cases c <;> simp [Mem.setCells, h, hl]

theorem Mem.cells_wf (m : Mem) (c : Copy) (h : m.wf = true) : memWf (m.cells c) = true := by
  unfold Mem.wf at h
  simp only [Bool.and_eq_true] at h
  cases c <;> simp [Mem.cells, h]

/-- Poison marks are no part of the canonical form. -/
@[simp] theorem Mem.setPoisoned_wf (m : Mem) (c : Copy) (l : List Nat) : (m.setPoisoned c l).wf = m.wf := by
  cases c <;> rfl

end Sys2Proof.Machine
end

