-- ==== Sys2Proof/Laws/Budget.lean ====
section
/-! SUPPORT. No parameter of class IMM or STBY, and so no PARAM_SET that is effective at once, alters a term of 01 Table 1-8 or the
tick period (01 R40); a FRAME_PLAN writes no parameter. -/

namespace Sys2Proof.Machine

/-- The parameters that the costs of Table 1-8, the completeness of the plan and the tick period read. -/
def costParams : List Nat :=
  [P.SYS_WORKPLAN, P.TCK_RATE_NUM, P.TCK_RATE_DEN, P.TCK_HEAD_MULT, P.PLN_COLS, P.PLN_ROWS, P.PLN_FIELDS, P.SCN_SAMPLES,
   P.SCN_LINES_ACT, P.SCN_FILTER, P.EMT_BIND, P.HDT_TYPE]

/-- Each of them is of class TICK. -/
theorem costParams_tick : costParams.all (fun i => (paramDef i).map (·.cls) == some .tick) = true := by decide +kernel

/-- A parameter of another class is none of them. -/
theorem not_costParam {d : ParamDef} (hd : paramDef d.id = some d) (hc : d.cls ≠ .tick) (i : Nat) (hi : i ∈ costParams) :
    i ≠ d.id := by
  intro he
  have h := List.all_eq_true.mp costParams_tick i hi
  rw [he, hd] at h
  exact hc (by simpa using h)

/-- Setting an instance leaves the others. -/
theorem bankGet_bankSet_ne (b : Bank) (id ix i j : Nat) (v : PVal) (h : pkey i j ≠ pkey id ix) :
    bankGet (bankSet b id ix v) i j = bankGet b i j := by
  unfold bankGet bankSet
  split
  · rw [assocGet_del, if_neg h]
  · rw [assocGet_set, if_neg h]

theorem pkey_ne {id ix i j : Nat} (hi : i ≠ id) (hx : ix < 65536) (hj : j < 65536) : pkey i j ≠ pkey id ix := by
  unfold pkey; omega

/-- Two configurations that agree on what the admission test reads. -/
structure SameCost (a b : Bank) : Prop where
  get : ∀ i ∈ costParams, ∀ j, j < 65536 → bankGet a i j = bankGet b i j

/-- A write of a parameter of class IMM or STBY keeps them. -/
theorem sameCost_bankSet (b : Bank) {d : ParamDef} (hd : paramDef d.id = some d) (hc : d.cls ≠ .tick) (ix : Nat) (v : PVal)
    (hx : ix < 65536) : SameCost (bankSet b d.id ix v) b :=
  ⟨fun i hi j hj => bankGet_bankSet_ne b d.id ix i j v (pkey_ne (not_costParam hd hc i hi) hx hj)⟩

namespace SameCost
variable {a b : Bank} (h : SameCost a b)
include h

theorem bkN {i j : Nat} (hi : i ∈ costParams) (hj : j < 65536) : Machine.bkN a i j = Machine.bkN b i j := by
  unfold Machine.bkN; rw [h.get i hi j hj]
theorem bkT {i j : Nat} (hi : i ∈ costParams) (hj : j < 65536) : Machine.bkT a i j = Machine.bkT b i j := by
  unfold Machine.bkT; rw [h.get i hi j hj]

theorem planOf : Machine.planOf a = Machine.planOf b := by
  unfold Machine.planOf; rw [h.bkT (by decide) (by decide)]

theorem bindOf (c : ChanIx) : Machine.bindOf a c.1 = Machine.bindOf b c.1 := by
  unfold Machine.bindOf; rw [h.bkN (by decide) (by omega)]

theorem chansOf (k role : Nat) : Machine.chansOf a k role = Machine.chansOf b k role := by
  unfold Machine.chansOf; simp only [h.bindOf]

theorem groupsOf (k : Nat) : Machine.groupsOf a k = Machine.groupsOf b k := by
  unfold Machine.groupsOf; simp only [h.chansOf]

theorem configured : Machine.configured a = Machine.configured b := by
  unfold Machine.configured
  exact List.filter_congr (fun k hk => by rw [h.bkN (by decide) (by have := List.mem_range.mp hk; omega)])

theorem planNeeds : Machine.planNeeds a = Machine.planNeeds b := by
  unfold Machine.planNeeds
  rw [h.configured, List.flatMap_def, List.flatMap_def]
  refine congrArg (fun l => l.flatten ++ [(3, 0)]) (List.map_congr_left fun k hk => ?_)
  have hk : k < 4 := List.mem_range.mp (List.mem_filter.mp hk).1
  rw [h.bkN (by decide) (by omega), h.chansOf]

theorem entryCost {e : PlanEntry} (he : e.head < 4) : Machine.entryCost a e = Machine.entryCost b e := by
  have n (i : Nat) (hi : i ∈ costParams) : Machine.bkN a i e.head = Machine.bkN b i e.head := h.bkN hi (by omega)
  unfold Machine.entryCost multOf fieldsOf fieldOf
  simp only [h.groupsOf, h.bindOf, h.configured, n P.PLN_COLS (by decide), n P.PLN_ROWS (by decide), n P.SCN_FILTER (by decide),
    n P.SCN_LINES_ACT (by decide), n P.SCN_SAMPLES (by decide), n P.TCK_HEAD_MULT (by decide),
    h.bkT (i := P.PLN_FIELDS) (j := e.head) (by decide) (by omega),
    h.bkN (i := P.TCK_RATE_NUM) (j := 0) (by decide) (by decide), h.bkN (i := P.TCK_RATE_DEN) (j := 0) (by decide) (by decide)]

/-- The admission test of R39 gives the same answer. -/
theorem admits (s : State) : s.admits a = s.admits b := by
  have hd : Machine.bkN a P.TCK_RATE_DEN = Machine.bkN b P.TCK_RATE_DEN := h.bkN (by decide) (by decide)
  have hp : ∀ e ∈ Machine.planOf b, Machine.entryCost a e = Machine.entryCost b e := fun e he => h.entryCost (by
    obtain ⟨i, -, hi⟩ := List.mem_filterMap.mp he
    unfold planEntry at hi
    split at hi
    · obtain rfl := Option.some.inj hi
      simp only [bits]
      exact Nat.mod_lt _ (by decide)
    · cases hi)
  have hw (cost ropes : Nat) : s.within90 a cost ropes = s.within90 b cost ropes := by unfold State.within90; rw [hd]
  unfold State.admits planComplete
  simp only [h.planOf, h.planNeeds, hw, List.map_congr_left hp]
  congr 1
  rw [Bool.eq_iff_iff, List.all_eq_true, List.all_eq_true]
  exact forall₂_congr fun e he => by rw [hp e he]

end SameCost

/-- R40: the admission test finds the same before and after a write of a parameter of class IMM or STBY. -/
theorem admits_bankSet (s : State) (b : Bank) {d : ParamDef} (hd : paramDef d.id = some d) (hc : d.cls ≠ .tick) (ix : Nat) (v : PVal)
    (hx : ix < 65536) : s.admits (bankSet b d.id ix v) = s.admits b :=
  (sameCost_bankSet b hd hc ix v hx).admits s

end Sys2Proof.Machine
end

