-- ==== Sys2Proof/Laws/Ops.lean ====
section
/-! SUPPORT. What each shared operation can do: which fields it may write, so that a later proof cites it and does not unfold
it. A frame lemma says that the state after is the state before but for the fields named. -/

namespace Sys2Proof.Machine

/-- A fold whose every step keeps a projection keeps it. -/
theorem foldl_keeps {σ α β : Type} (p : σ → β) (f : σ → α → σ) (h : ∀ s a, p (f s a) = p s) (l : List α) (s : σ) :
    p (l.foldl f s) = p s := by
  induction l generalizing s with
  | nil => rfl
  | cons a r ih => rw [List.foldl_cons, ih, h]

/-- A fold whose every step keeps a property keeps it. -/
theorem foldl_inv {σ α : Type} (P : σ → Prop) (f : σ → α → σ) (h : ∀ s a, P s → P (f s a)) (l : List α) (s : σ) (hs : P s) :
    P (l.foldl f s) := by
  induction l generalizing s with
  | nil => exact hs
  | cons a r ih => exact ih _ (h s a hs)

/-! ### Messages and events -/

/-- The state less what sending a message may change. -/
def State.sans (s : State) : State := { s with acm := Acm.reset 0, out := [] }

theorem State.eq_of_sans {s t : State} (h : t.sans = s.sans) : t = { s with acm := t.acm, out := t.out } := by
  cases s; cases t; simpa [State.sans] using h

/-- A tagged message only leaves the device. -/
theorem State.sendAcm_frame (s : State) (dst : ReplyTo) (sp fl ty mb : Nat) (q : SessIx) (sq irt st tk : Nat) (d : Bytes) :
    s.sendAcm dst sp fl ty mb q sq irt st tk d = { s with out := (s.sendAcm dst sp fl ty mb q sq irt st tk d).out } := by
  unfold State.sendAcm State.sendAcmAs
  dsimp only
  split <;> rfl

theorem State.reply_frame (s : State) (dst : ReplyTo) (fl ty mb : Nat) (q : SessIx) (sq : Nat) (st : Status) (d : Bytes) :
    s.reply dst fl ty mb q sq st d = { s with out := (s.reply dst fl ty mb q sq st d).out } :=
  State.sendAcm_frame ..

theorem State.sendEvent_sans (s : State) (q : SessIx) (e : QEvent) : (s.sendEvent q e).sans = s.sans := by
  unfold State.sendEvent
  dsimp only
  split
  · rfl
  · rw [State.sendAcm_frame]; rfl

theorem State.raiseFor_sans (s : State) (q : SessIx) (code : Nat) (d : Bytes) : (s.raiseFor q code d).sans = s.sans := by
  unfold State.raiseFor
  dsimp only
  split
  · rfl
  · split
    · rfl
    · split
      · rfl
      · rw [State.sendEvent_sans]; rfl

/-- Raising an event writes the sessions' queues and sends. -/
theorem State.raise_frame (s : State) (code : Nat) (d : Bytes) :
    s.raise code d = { s with acm := (s.raise code d).acm, out := (s.raise code d).out } :=
  State.eq_of_sans (foldl_keeps State.sans _ (fun s q => State.raiseFor_sans s q code d) _ s)

theorem State.sendEvent_frame (s : State) (q : SessIx) (e : QEvent) :
    s.sendEvent q e = { s with acm := (s.sendEvent q e).acm, out := (s.sendEvent q e).out } :=
  State.eq_of_sans (State.sendEvent_sans s q e)

end Sys2Proof.Machine
end

