-- ==== Sys2Proof/Laws/Safe.lean ====
section
/-! SUPPORT. The emission gate: what bringing the channels up to date leaves, and that it leaves every channel gated. -/

namespace Sys2Proof.Machine

/-! ### Fixed arrays -/

theorem vmod_get {α : Type} {n : Nat} (v : Vector α n) (i j : Fin n) (f : α → α) :
    (vmod v i f)[j] = if i = j then f v[j] else v[j] := by
  unfold vmod
  by_cases h : i = j
  · subst h; simp
  · have : i.1 ≠ j.1 := fun e => h (Fin.ext e)
    simp [h, Vector.getElem_set_ne, this]

theorem vset_get {α : Type} {n : Nat} (v : Vector α n) (i j : Fin n) (a : α) :
    (vset v i a)[j] = if i = j then a else v[j] := by
  unfold vset
  by_cases h : i = j
  · subst h; simp
  · have : i.1 ≠ j.1 := fun e => h (Fin.ext e)
    simp [h, Vector.getElem_set_ne, this]

/-! ### Frames -/

theorem State.settleChan_frame (s : State) (c : ChanIx) : s.settleChan c = { s with em := (s.settleChan c).em } := rfl

theorem State.touchLit_frame (s : State) (h : HeadIx) : s.touchLit h = { s with tch := (s.touchLit h).tch } := by
  unfold State.touchLit
  split
  · split <;> rfl
  · rfl

theorem State.traceEvent_frame (s : State) (k : Nat) : s.traceEvent k = { s with bly := (s.traceEvent k).bly } := by
  unfold State.traceEvent
  split <;> rfl

/-- The state less what `settle` may write. -/
def State.sansSettle (s : State) : State := { s with em := State.reset.em, tch := State.reset.tch, bly := State.reset.bly }

theorem State.eq_of_sansSettle {s t : State} (h : t.sansSettle = s.sansSettle) :
    t = { s with em := t.em, tch := t.tch, bly := t.bly } := by
  cases s; cases t; simpa [State.sansSettle] using h

theorem State.traceEvent_sansSettle (s : State) (k : Nat) : (s.traceEvent k).sansSettle = s.sansSettle := by
  rw [State.traceEvent_frame]; rfl

theorem State.traceEvent_em (s : State) (k : Nat) : (s.traceEvent k).em = s.em := by
  rw [State.traceEvent_frame]

theorem State.settle_sansSettle (s : State) : s.settle.sansSettle = s.sansSettle := by
  have h1 : ((allFin 4).foldl State.touchLit ((allFin 48).foldl State.settleChan s)).sansSettle = s.sansSettle := by
    rw [foldl_keeps State.sansSettle State.touchLit, foldl_keeps State.sansSettle State.settleChan]
    · intro s a; rfl
    · intro s a; rw [State.touchLit_frame]; rfl
  unfold State.settle
  dsimp only
  split
  · rw [State.traceEvent_sansSettle]; exact h1
  · exact h1

/-- `settle` writes the channels, what touch sensing notes of lit head frames, and the trace that it may trigger. -/
theorem State.settle_frame (s : State) :
    s.settle = { s with em := s.settle.em, tch := s.settle.tch, bly := s.settle.bly } :=
  State.eq_of_sansSettle (State.settle_sansSettle s)

/-! ### The gate -/

/-- A channel that is permitted finds the gate open. -/
theorem gateOpen_of_permitted (s : State) (c : ChanIx) (h : s.permitted c = true) : gateOpen s = true := by
  simp only [State.permitted, Bool.and_eq_true, State.emissionOn, State.anchorFault] at h
  simp only [gateOpen, Bool.and_eq_true]
  simp_all

/-- Bringing one channel up to date enables no channel that the gate does not cover. -/
theorem State.settleChan_gated (s : State) (c d : ChanIx)
    (h : ((s.settleChan c).em[d]).en.isSome = true) : (c = d ∧ gateOpen s = true) ∨ (c ≠ d ∧ (s.em[d]).en.isSome = true) := by
  unfold State.settleChan at h
  simp only [State.modEm_em, vmod_get] at h
  by_cases e : c = d
  · subst e
    by_cases hp : s.permitted c = true
    · exact .inl ⟨rfl, gateOpen_of_permitted s c hp⟩
    · simp [hp] at h
  · simp only [if_neg e] at h
    exact .inr ⟨e, h⟩

theorem State.gateOpen_eq (s t : State) (hd : t.dev = s.dev) (ha : t.anc = s.anc) : gateOpen t = gateOpen s := by
  simp only [gateOpen, hd, ha]

/-- After the fold over a list of channels, a channel in the list is enabled only with the gate open. -/
theorem settleChans_gated (l : List ChanIx) (s : State) (d : ChanIx)
    (h : ((l.foldl State.settleChan s).em[d]).en.isSome = true) :
    (d ∈ l ∧ gateOpen s = true) ∨ (s.em[d]).en.isSome = true := by
  induction l generalizing s with
  | nil => exact .inr h
  | cons c r ih =>
    rcases ih (s.settleChan c) h with ⟨hm, hg⟩ | h
    · exact .inl ⟨List.mem_cons_of_mem _ hm, hg⟩
    · rcases State.settleChan_gated s c d h with ⟨rfl, hg⟩ | ⟨_, h⟩
      · exact .inl ⟨List.mem_cons_self .., hg⟩
      · exact .inr h

theorem settleChans_gated_all (l : List ChanIx) (s : State) (d : ChanIx) (hd : d ∈ l)
    (h : ((l.foldl State.settleChan s).em[d]).en.isSome = true) : gateOpen s = true := by
  induction l generalizing s with
  | nil => simp at hd
  | cons c r ih =>
    by_cases hr : d ∈ r
    · exact ih (s.settleChan c) hr h
    · rcases settleChans_gated r (s.settleChan c) d h with ⟨hm, _⟩ | h
      · exact absurd hm hr
      · rcases State.settleChan_gated s c d h with ⟨_, hg⟩ | ⟨e, _⟩
        · exact hg
        · rcases List.mem_cons.mp hd with rfl | hm
          · exact absurd rfl e
          · exact absurd hm hr

/-- The channels after `settle` are those of the fold. -/
theorem State.settle_em (s : State) : s.settle.em = ((allFin 48).foldl State.settleChan s).em := by
  have h1 : ((allFin 4).foldl State.touchLit ((allFin 48).foldl State.settleChan s)).em =
      ((allFin 48).foldl State.settleChan s).em :=
    foldl_keeps (fun s : State => s.em) State.touchLit (fun s a => by rw [State.touchLit_frame]) _ _
  unfold State.settle
  dsimp only
  split
  · rw [State.traceEvent_em]; exact h1
  · exact h1

/-- Whatever stood before, after `settle` no channel is enabled that the gate does not cover. -/
theorem State.settle_gated (s : State) : EmissionGated s.settle := by
  intro c h
  rw [State.settle_em] at h
  have hg := settleChans_gated_all (allFin 48) s c (List.mem_finRange c) h
  rw [State.gateOpen_eq s s.settle (by rw [State.settle_frame]) (by rw [State.settle_frame])]
  exact hg

/-- An operation that leaves the device state, the Anchor and the enables alone keeps the gate. -/
theorem EmissionGated.of_frame {s t : State} (h : EmissionGated s) (hd : t.dev = s.dev) (ha : t.anc = s.anc)
    (he : t.em = s.em) : EmissionGated t := by
  intro c hc
  rw [State.gateOpen_eq s t hd ha]
  exact h c (he ▸ hc)

end Sys2Proof.Machine
end

