-- ==== Sys2Proof/Laws/Island.lean ====
section
/-! SUPPORT. The island: judging LEGAL_OK changes nothing of the weighing, and a step of the island writes only the island. -/

namespace Sys2Proof.Machine

@[simp] theorem Isl.judge_run (x : Isl) : x.judge.run = x.run := by unfold Isl.judge; dsimp only; split <;> rfl
@[simp] theorem Isl.judge_slot (x : Isl) : x.judge.slot = x.slot := by unfold Isl.judge; dsimp only; split <;> rfl
@[simp] theorem Isl.judge_zero (x : Isl) : x.judge.zero = x.zero := by unfold Isl.judge; dsimp only; split <;> rfl
@[simp] theorem Isl.judge_audit (x : Isl) : x.judge.audit = x.audit := by unfold Isl.judge; dsimp only; split <;> rfl
@[simp] theorem Isl.judge_metro (x : Isl) : x.judge.metro = x.metro := by unfold Isl.judge; dsimp only; split <;> rfl
@[simp] theorem Isl.judge_slots (x : Isl) : x.judge.slots = x.slots := by unfold Isl.judge; dsimp only; split <;> rfl
@[simp] theorem Isl.judge_sealOpen (x : Isl) : x.judge.sealOpen = x.sealOpen := by unfold Isl.judge; dsimp only; split <;> rfl
@[simp] theorem Isl.judge_geom (x : Isl) : x.judge.geom = x.geom := by unfold Isl.judge; dsimp only; split <;> rfl
@[simp] theorem Isl.judge_bridges (x : Isl) : x.judge.bridges = x.bridges := by unfold Isl.judge; dsimp only; split <;> rfl
@[simp] theorem Isl.judge_raws (x : Isl) : x.judge.raws = x.raws := by unfold Isl.judge; dsimp only; split <;> rfl
@[simp] theorem Isl.judge_hist (x : Isl) : x.judge.hist = x.hist := by unfold Isl.judge; dsimp only; split <;> rfl
@[simp] theorem Isl.judge_wf (x : Isl) : x.judge.wf = x.wf := by unfold Isl.judge; dsimp only; split <;> rfl
@[simp] theorem Isl.judge_zeroInit (x : Isl) : x.judge.zeroInit = x.zeroInit := by unfold Isl.judge; dsimp only; split <;> rfl
@[simp] theorem Isl.judge_zeroTried (x : Isl) : x.judge.zeroTried = x.zeroTried := by unfold Isl.judge; dsimp only; split <;> rfl
@[simp] theorem Isl.judge_tare (x : Isl) : x.judge.tare = x.tare := by unfold Isl.judge; dsimp only; split <;> rfl
@[simp] theorem Isl.judge_net (x : Isl) : x.judge.net = x.net := by unfold Isl.judge; dsimp only; split <;> rfl
@[simp] theorem Isl.judge_stable (x : Isl) : x.judge.stable = x.stable := by unfold Isl.judge; dsimp only; split <;> rfl
@[simp] theorem Isl.judge_ident (x : Isl) : x.judge.ident = x.ident := by unfold Isl.judge; dsimp only; split <;> rfl
@[simp] theorem Isl.judge_posted (x : Isl) : x.judge.posted = x.posted := by unfold Isl.judge; dsimp only; split <;> rfl
@[simp] theorem Isl.judge_postedNow (x : Isl) : x.judge.postedNow = x.postedNow := by unfold Isl.judge; dsimp only; split <;> rfl
@[simp] theorem Isl.judge_pllOut (x : Isl) : x.judge.pllOut = x.pllOut := by unfold Isl.judge; dsimp only; split <;> rfl
@[simp] theorem Isl.judge_reported (x : Isl) : x.judge.reported = x.reported := by unfold Isl.judge; dsimp only; split <;> rfl

/-- An invalid indication ends LEGAL_OK (15 R727). -/
theorem Isl.judge_of_invalid (x : Isl) (h : x.valid = false) : x.judge.legalOk = false := by
  unfold Isl.judge
  dsimp only
  simp only [h, Bool.false_and, Bool.false_eq_true, if_false, Isl.legal]
  have hv : ({ x with heads := x.heads.map (fun (h : IslHead) => { h with shown := false }) } : Isl).valid = x.valid := rfl
  rw [hv, h]
  rfl

/-- A step of the island on a device that has one. -/
theorem State.island_of_ax (s : State) (f : Isl → Isl) (h : Config.variantNx = false) :
    s.island f = { s with isl := { (f s.isl).judge with reported := true } } := by
  simp [State.island, h, State.modIsl]

theorem State.island_of_nx (s : State) (f : Isl → Isl) (h : Config.variantNx = true) : s.island f = s := by
  simp [State.island, h]

/-- A step of the island writes the island. -/
theorem State.island_frame (s : State) (f : Isl → Isl) : s.island f = { s with isl := (s.island f).isl } := by
  unfold State.island
  split <;> rfl

end Sys2Proof.Machine
end

