-- ==== Sys2Proof/Laws/MemOps.lean ====
section
/-! SUPPORT. Every memory operation of the device keeps the canonical form, and the memory after reset has it. -/

namespace Sys2Proof.Machine

/-- A fold whose step keeps the canonical form keeps it. -/
theorem memWf_foldl {α : Type} (f : State → α → State) (h : ∀ s a, s.mem.wf = true → (f s a).mem.wf = true) (l : List α)
    (s : State) (hs : s.mem.wf = true) : (l.foldl f s).mem.wf = true :=
  foldl_inv (fun s => s.mem.wf = true) f h l s hs

/-! ### Operations that write no byte -/

theorem State.raise_mem (s : State) (code : Nat) (d : Bytes) : (s.raise code d).mem = s.mem := by
  rw [State.raise_frame]

theorem State.modSurf_mem (s : State) (ix : Nat) (f : Surf → Surf) : (s.modSurf ix f).mem = s.mem := by
  unfold State.modSurf
  split <;> rfl

@[simp] theorem State.modCh_wf (s : State) (n : LpIx) (f : Chan → Chan) : (s.modCh n f).mem.wf = s.mem.wf := rfl
@[simp] theorem State.errLog_wf (s : State) (e : Bytes) : (s.errLog e).mem.wf = s.mem.wf := rfl
@[simp] theorem State.draw_wf (s : State) : s.draw.mem.wf = s.mem.wf := rfl

@[simp] theorem State.memEvent_wf (s : State) (u : Fin 6) (e : Bytes) : (s.memEvent u e).mem.wf = s.mem.wf := by
  unfold State.memEvent
  split
  · rw [← State.raise_mem s evMemUncorr e]; rfl
  · rfl

/-- Answering an uncorrectable read counts, logs and raises; it writes no byte (05 R253). -/
@[simp] theorem State.uncorrectable_wf (s : State) (k : Nat) (c : Copy) (a : Nat) (who : Requester) :
    (s.uncorrectable k c a who).mem.wf = s.mem.wf := by
  unfold State.uncorrectable
  dsimp only
  rw [State.memEvent_wf]
  split
  · rfl
  · show (State.modSurf _ _ _).mem.wf = _
    rw [State.modSurf_mem]
    rfl

@[simp] theorem State.poisonPart_wf (s : State) (c : Copy) (a n w : Nat) (who : Requester) :
    (s.poisonPart c a n w who).mem.wf = s.mem.wf := by
  unfold State.poisonPart
  split
  · rw [State.uncorrectable_wf, Mem.setPoisoned_wf]
  · rfl

@[simp] theorem State.qdrUncorr_wf (s : State) (x : Fin 2) (w k : Nat) (who : Requester) :
    (s.qdrUncorr x w k who).mem.wf = s.mem.wf := by
  unfold State.qdrUncorr
  dsimp only
  rw [State.memEvent_wf]
  rfl

@[simp] theorem State.qdrRead_wf (s : State) (x : Fin 2) (w k : Nat) (e : EccErr) (who : Requester) :
    (s.qdrRead x w k e who).mem.wf = s.mem.wf := by
  unfold State.qdrRead
  split
  · rfl
  · rfl
  · rw [State.qdrUncorr_wf]; rfl

/-! ### Operations that write bytes -/

/-- Rewriting a burst from its mirror (05 R266). -/
theorem State.rewritePrimary_wf (s : State) (b : Nat) (h : s.mem.wf = true) : (s.rewritePrimary b).mem.wf = true := by
  have hp := Mem.cells_wf s.mem .primary h
  exact Mem.setCells_wf s.mem .primary _ h (memWrite_wf _ _ _ hp)

theorem State.readBurst_wf (s : State) (pool : Bool) (a n : Nat) (who : Requester) (h : s.mem.wf = true) :
    (s.readBurst pool a n who).1.mem.wf = true := by
  unfold State.readBurst
  split
  · exact h
  · dsimp only
    rw [State.errLog_wf]
    exact State.rewritePrimary_wf _ _ h
  · simpa using h
  · exact h

/-- Reading a range (05 R253, R257, R266): only a recovery from the mirror writes. -/
theorem State.readMem_wf (s : State) (pool : Bool) (a n : Nat) (who : Requester) (h : s.mem.wf = true) :
    (s.readMem pool a n who).1.mem.wf = true := by
  unfold State.readMem
  exact foldl_inv (fun (x : State × Bytes × Nat) => x.1.mem.wf = true) _
    (fun x p hx => State.readBurst_wf x.1 pool p.1 p.2 who hx) _ _ h

/-- Writing one copy of a piece of a burst (05 R254). -/
theorem State.writeCopy_wf (s : State) (c : Copy) (a : Nat) (d : Bytes) (who : Requester) (h : s.mem.wf = true) :
    (s.writeCopy c a d who).mem.wf = true := by
  have hw : ∀ k, ((s.mem.setCells c (memWrite (s.mem.cells c) a d)).setPoisoned c k).wf = true := fun k => by
    rw [Mem.setPoisoned_wf]
    exact Mem.setCells_wf _ _ _ h (memWrite_wf _ _ _ (Mem.cells_wf _ _ h))
  unfold State.writeCopy
  dsimp only
  split
  · exact h
  · split
    · exact hw _
    · rw [State.uncorrectable_wf]; exact hw _

theorem State.writeBurst_wf (s : State) (pool : Bool) (a : Nat) (d : Bytes) (who : Requester) (h : s.mem.wf = true) :
    (s.writeBurst pool a d who).mem.wf = true := by
  unfold State.writeBurst
  split
  · exact State.writeCopy_wf _ _ _ _ _ (State.writeCopy_wf _ _ _ _ _ h)
  · exact State.writeCopy_wf _ _ _ _ _ h

/-- Writing a range of a region. -/
theorem State.writeMem_wf (s : State) (pool : Bool) (a : Nat) (d : Bytes) (who : Requester) (h : s.mem.wf = true) :
    (s.writeMem pool a d who).mem.wf = true :=
  memWf_foldl _ (fun s p hs => State.writeBurst_wf s pool p.1 _ who hs) _ s h

/-- Writing one QDR interface. -/
theorem Mem.setQdr_wf (m : Mem) (x : Fin 2) (f : List Host.Cell → List Host.Cell) (h : m.wf = true)
    (hf : ∀ l, memWf l = true → memWf (f l) = true) : ({ m with qdr := vmod m.qdr x f } : Mem).wf = true := by
  unfold Mem.wf at *
  simp only [Bool.and_eq_true, List.all_eq_true, Vector.mem_toList_iff] at h ⊢
  refine ⟨h.1, fun l hl => ?_⟩
  obtain ⟨i, hi, rfl⟩ := Vector.mem_iff_getElem.mp hl
  have := vmod_get m.qdr x ⟨i, hi⟩ f
  simp only [Fin.getElem_fin] at this
  rw [this]
  have hm := h.2 m.qdr[i] (Vector.getElem_mem hi)
  split
  · exact hf _ hm
  · exact hm

theorem State.qdrStore_wf (s : State) (x : Fin 2) (a : Nat) (d : Bytes) (h : s.mem.wf = true) :
    (s.qdrStore x a d).mem.wf = true := Mem.setQdr_wf s.mem x _ h (fun l hl => memWrite_wf l a d hl)

/-- Copying a mesh or a uniformity map (09 R459, R465). -/
theorem State.copyPages_wf (s : State) (h k : Nat) (pages : List Nat) (hs : s.mem.wf = true) :
    (s.copyPages h k pages).mem.wf = true :=
  memWf_foldl _ (fun s _ hs => Mem.setQdr_wf s.mem _ _ hs (fun l hl => memFill_wf l _ _ hl)) _ s hs

theorem State.copyMaps_wf (s : State) (h : Nat) (hs : s.mem.wf = true) : (s.copyMaps h).mem.wf = true :=
  memWf_foldl _ (fun s k hs => State.copyPages_wf s h k _ hs) _ s hs

theorem State.copyChanged_wf (s : State) (a b : Bank) (hs : s.mem.wf = true) : (s.copyChanged a b).mem.wf = true := by
  refine memWf_foldl _ (fun s h hs => ?_) _ s hs
  split
  · exact hs
  · exact State.copyMaps_wf s h hs

/-- Moving regions (05 R274). -/
theorem State.moveQdr_wf (s : State) (a b : Bank) (hs : s.mem.wf = true) : (s.moveQdr a b).mem.wf = true := by
  unfold State.moveQdr
  extract_lets l inside target cells bad kept
  split
  · exact hs
  · unfold Mem.wf at *
    simp only [Bool.and_eq_true, List.all_eq_true, Vector.mem_toList_iff] at hs ⊢
    refine ⟨hs.1, fun q hq => ?_⟩
    obtain ⟨i, hi, rfl⟩ := Vector.mem_iff_getElem.mp hq
    rw [Vector.getElem_ofFn]
    exact foldl_inv (fun q => memWf q = true) _ (fun q _ h => memSet_wf q _ _ h) _ _
      (memWf_filter _ _ (hs.2 _ (Vector.getElem_mem hi)))

/-- Serving a read (05 R252, R253, R266, R267). -/
theorem State.serveRead_wf (s : State) (n : LpIx) (r : MemReq) (h : s.mem.wf = true) : (s.serveRead n r).mem.wf = true := by
  unfold State.serveRead
  extract_lets c b err word deliver corrected readMirror
  have hd : ∀ s d f, s.mem.wf = true → (deliver s d f).mem.wf = true := fun s d f h => h
  have hc : ∀ s c, s.mem.wf = true → (corrected s c).mem.wf = true := fun s c h => h
  have hu : ∀ (s : State) k c w, s.mem.wf = true → (s.uncorrectable k c w r.who).mem.wf = true := fun s k c w h => by
    rw [State.uncorrectable_wf]; exact h
  have hm : ∀ s f, s.mem.wf = true → (readMirror s f).mem.wf = true := by
    intro s f h
    have hs : ∀ p : Prop, ∀ _ : Decidable p, (if p then corrected s .mirror else s).mem.wf = true := by
      intro p _
      split
      · exact hc _ _ h
      · exact h
    simp only [readMirror]
    split
    · split
      · exact hd _ _ _ (hu _ _ _ _ h)
      · exact hd _ _ _ h
    · split
      · exact hd _ _ _ (hu _ _ _ _ h)
      · split
        · refine hd _ _ _ ?_
          rw [State.errLog_wf]
          refine State.rewritePrimary_wf _ _ ?_
          rw [State.draw_wf]
          exact hs _ _
        · refine hd _ _ _ ?_
          exact hs _ _
  clear_value readMirror deliver corrected err word
  split
  · split
    · exact hd _ _ _ h
    · split
      · exact hd _ _ _ h
      · exact hd _ _ _ (hc _ _ h)
      · exact hd _ _ _ (hu _ _ _ _ h)
  · split
    · exact hm _ _ h
    · split
      · exact hd _ _ _ h
      · exact hd _ _ _ (hc _ _ h)
      · exact hm _ _ h

/-- Serving a write (05 R243, R254, R265). -/
theorem State.serveWrite_wf (s : State) (n : LpIx) (r : MemReq) (h : s.mem.wf = true) : (s.serveWrite n r).mem.wf = true := by
  have hb := State.writeBurst_wf s r.pool r.addr r.data r.who h
  unfold State.serveWrite
  extract_lets b ecc failed u v
  have he : ∀ s c e, s.mem.wf = true → (ecc s c e).mem.wf = true := by
    intro s c e h
    simp only [ecc]
    split
    · exact h
    · split
      · exact h
      · split
        · exact h
        · exact h
      · rw [State.poisonPart_wf]; exact h
  clear_value ecc failed
  rw [State.modCh_wf]
  simp only [v]
  split
  · exact he _ _ _ (he _ _ _ hb)
  · exact he _ _ _ hb

theorem State.reqArrive_wf (s : State) (n : LpIx) (r : MemReq) : (s.reqArrive n r).mem.wf = s.mem.wf := by
  unfold State.reqArrive
  dsimp only
  split <;> rfl

theorem State.reqServe_wf (s : State) (n : LpIx) (pos : Nat) (h : s.mem.wf = true) : (s.reqServe n pos).mem.wf = true := by
  unfold State.reqServe
  split
  · exact h
  · split
    · exact h
    · extract_lets l idle older u
      have hu : u.mem.wf = true := h
      clear_value u
      split
      · exact State.serveRead_wf _ _ _ hu
      · exact State.serveWrite_wf _ _ _ hu

theorem State.chipError_mem (s : State) (r : ChipRegion) : (s.chipError r).mem = s.mem := by
  cases r <;> rfl

/-- MEMORY_REQUEST keeps every memory canonical. -/
theorem execMemoryRequest_wf (p : MemStep) (s t : State) (h : s.mem.wf = true) (ht : execMemoryRequest p s = .next t) :
    t.mem.wf = true := by
  unfold execMemoryRequest at ht
  split at ht
  · injection ht with ht
    subst ht
    rw [State.chipError_mem]
    exact h
  · injection ht with ht
    subst ht
    have h1 : ∀ (a : Option MemReq) (n : LpIx),
        (match a with
          | none => s
          | some r => s.reqArrive n r).mem.wf = true := by
      intro a n
      cases a
      · exact h
      · rw [State.reqArrive_wf]; exact h
    split
    · exact h1 _ _
    · exact State.reqServe_wf _ _ _ (h1 _ _)
  · split at ht
    · split at ht <;> injection ht with ht <;> subst ht
      · exact State.qdrStore_wf _ _ _ _ h
      · exact (State.qdrRead_wf s _ _ _ _ _).trans h
    · injection ht with ht; subst ht; exact h

/-- The memory after reset lists nothing, which is canonical. -/
theorem Mem.reset_wf : Mem.reset.wf = true := by decide

end Sys2Proof.Machine
end

