-- ==== Sys2Proof/Laws/Messages.lean ====
section
/-! SUPPORT. Completing a message: what it may write, and that it leaves the message answered; entering SAFE, latching the
Anchor and entering HOLD: the fields they may write, and that they leave every channel gated. -/

namespace Sys2Proof.Machine

/-! ### Sending on a Traverse port -/

theorem State.travOut_frame (s : State) (p : PortIx) (f : Trav) : s.travOut p f = { s with out := (s.travOut p f).out } := by
  unfold State.travOut
  split <;> rfl

theorem State.travSend_frame (s : State) (k d : Nat) (b : Bytes) :
    s.travSend k d b = { s with out := (s.travSend k d b).out } := by
  unfold State.travSend
  dsimp only
  split
  · rw [State.travOut_frame]
    rw [State.travOut_frame s]
  · exact State.travOut_frame _ _ _

/-! ### Completing a message (03 R136 to R138) -/

/-- The state less what the cascade's bookkeeping of a completed message may change. -/
def State.sansCas (s : State) : State := { s with cas := Cas.reset, out := [] }

theorem State.eq_of_sansCas {s t : State} (h : t.sansCas = s.sansCas) : t = { s with cas := t.cas, out := t.out } := by
  cases s; cases t; simpa [State.sansCas] using h

theorem State.releaseRoutes_frame (s : State) :
    s.releaseRoutes = { s with cas := s.releaseRoutes.cas, out := s.releaseRoutes.out } := by
  refine State.eq_of_sansCas ?_
  unfold State.releaseRoutes
  dsimp only
  rw [foldl_keeps State.sansCas]
  · rfl
  · intro s r
    rw [State.travSend_frame]
    rfl

theorem State.noteRemote_frame (s : State) (m : Msg) (st : Status) :
    s.noteRemote m st = { s with cas := (s.noteRemote m st).cas } := by
  unfold State.noteRemote
  repeat' split
  all_goals rfl

/-- What completing a message leaves of the journal. -/
def journalled (s0 s : State) (m : Msg) (st : Status) (payload : Bytes) : State :=
  (s.drop m).modSess m.session (fun x => { x with lastExec := m.seq, cache := (cachedOf s0 s.devNum m st payload :: x.cache).take 256 })

/-- Completing a message writes the journal, the cascade's bookkeeping and the output, after the message's own effect. -/
theorem State.finish_frame (s0 s : State) (m : Msg) (st : Status) (payload : Bytes) :
    s0.finish m (s, st, payload) = { journalled s0 s m st payload with
      cas := (s0.finish m (s, st, payload)).cas, out := (s0.finish m (s, st, payload)).out } := by
  unfold State.finish
  dsimp only
  have hj : ((s.drop m).modSess m.session (fun x => { x with
      lastExec := m.seq
      cache := ((⟨m.seq, m.typ, m.mailbox, s.devNum, st.code, s0.tick.count, s0.acm.epoch, decide (64 < payload.length),
        if decide (64 < payload.length) = true then [] else payload⟩ : Cached) :: x.cache).take 256 })) =
      journalled s0 s m st payload := by
    simp only [journalled, cachedOf, decide_eq_true_eq]
  rw [hj, State.releaseRoutes_frame, State.noteRemote_frame, State.sendAcm_frame]

theorem State.finish_acm (s0 s : State) (m : Msg) (st : Status) (payload : Bytes) :
    (s0.finish m (s, st, payload)).acm = (journalled s0 s m st payload).acm := by
  rw [State.finish_frame]

/-- A message whose own effect leaves the journal alone is answered. -/
theorem State.finish_answered (s u : State) (m : Msg) (st : Status) (payload : Bytes)
    (hi : u.acm.intent = s.acm.intent) (ha : u.acm.accepted = s.acm.accepted) :
    Answered s (s.finish m (u, st, payload)) m st payload := by
  have hd : (s.finish m (u, st, payload)).devNum = u.devNum := by rw [State.finish_frame]; rfl
  unfold Answered
  rw [hd, State.finish_acm]
  have hs : (journalled s u m st payload).acm.sess[m.session] =
      (fun x : Session => { x with lastExec := m.seq, cache := (cachedOf s u.devNum m st payload :: x.cache).take 256 })
        ((u.drop m).acm.sess[m.session]) := by
    show (vmod (u.drop m).acm.sess m.session _)[m.session] = _
    rw [vmod_get, if_pos rfl]
  refine ⟨?_, ?_, fun h => ?_, fun h => ?_⟩
  · rw [hs]
  · rw [hs]; rfl
  · simp [journalled, State.drop, hi, h, ha]
  · simp [journalled, State.drop, hi, h, ha]

/-! ### Entering SAFE, the Anchor, HOLD -/

theorem State.log_frame (s : State) (b c k u : Nat) (d : Bytes) :
    s.log b c k u d = { s with flt := (s.log b c k u d).flt } := rfl

theorem State.log_gated {s : State} (h : EmissionGated s) (b c k u : Nat) (d : Bytes) : EmissionGated (s.log b c k u d) :=
  h.of_frame rfl rfl rfl

theorem State.raise_gated {s : State} (h : EmissionGated s) (code : Nat) (d : Bytes) : EmissionGated (s.raise code d) := by
  rw [State.raise_frame]
  exact h.of_frame rfl rfl rfl

theorem State.enterSafe_gated {s : State} (h : EmissionGated s) (cause : Nat) : EmissionGated (s.enterSafe cause) := by
  unfold State.enterSafe
  split
  · exact h
  · split
    · exact h.of_frame rfl rfl rfl
    · exact h
  · split
    · exact h.of_frame rfl rfl rfl
    · exact h
  · exact State.settle_gated _

/-- Latching an Anchor fault leaves every channel gated. -/
theorem State.latchAnchor_gated {s : State} (h : EmissionGated s) (f : AncFault) : EmissionGated (s.latchAnchor f) := by
  unfold State.latchAnchor
  split
  · exact h
  · dsimp only
    refine State.enterSafe_gated ?_ _
    split
    · exact State.settle_gated _
    · exact State.log_gated (State.settle_gated _) _ _ _ _ _

theorem State.toArmed_gated (s : State) : EmissionGated s.toArmed := State.settle_gated _

theorem State.enterHold_gated (s : State) (core a18 : Bool) (mv : Nat) : EmissionGated (s.enterHold core a18 mv) := by
  unfold State.enterHold
  dsimp only
  exact State.raise_gated (State.log_gated (State.settle_gated _) _ _ _ _ _) _ _

/-- Entering HOLD enters HOLD and writes no byte of memory. -/
theorem State.enterHold_dev (s : State) (core a18 : Bool) (mv : Nat) : (s.enterHold core a18 mv).dev = .hold := by
  unfold State.enterHold
  dsimp only
  rw [State.raise_frame, State.log_frame]
  dsimp only
  rw [State.settle_frame]

theorem State.enterHold_mem (s : State) (core a18 : Bool) (mv : Nat) : (s.enterHold core a18 mv).mem = s.mem := by
  unfold State.enterHold
  dsimp only
  rw [State.raise_frame, State.log_frame]
  dsimp only
  rw [State.settle_frame]

theorem State.toArmed_frame (s : State) :
    s.toArmed = { s with dev := .armed, em := s.toArmed.em, tch := s.toArmed.tch, bly := s.toArmed.bly } := by
  unfold State.toArmed
  rw [State.settle_frame]

/-- The state less what latching the Anchor may change. -/
def State.sansSafe (s : State) : State :=
  { s with dev := .boot, anc := State.reset.anc, flt := State.reset.flt, pwr := State.reset.pwr, em := State.reset.em,
           tch := State.reset.tch, bly := State.reset.bly }

theorem State.eq_of_sansSafe {s t : State} (h : t.sansSafe = s.sansSafe) :
    t = { s with dev := t.dev, anc := t.anc, flt := t.flt, pwr := t.pwr, em := t.em, tch := t.tch, bly := t.bly } := by
  cases s; cases t; simpa [State.sansSafe] using h

theorem State.settle_sansSafe (s : State) : s.settle.sansSafe = s.sansSafe := by
  rw [State.settle_frame]; rfl

theorem State.enterSafe_sansSafe (s : State) (cause : Nat) : (s.enterSafe cause).sansSafe = s.sansSafe := by
  unfold State.enterSafe
  split
  · rfl
  · split <;> rfl
  · split <;> rfl
  · exact State.settle_sansSafe _

/-- Entering SAFE writes the device state and cause, the fault log, HOLD's note, and what `settle` writes. -/
theorem State.enterSafe_frame (s : State) (cause : Nat) :
    s.enterSafe cause = { s with
      dev := (s.enterSafe cause).dev
      anc := (s.enterSafe cause).anc
      flt := (s.enterSafe cause).flt
      pwr := (s.enterSafe cause).pwr
      em := (s.enterSafe cause).em
      tch := (s.enterSafe cause).tch
      bly := (s.enterSafe cause).bly } :=
  State.eq_of_sansSafe (State.enterSafe_sansSafe s cause)

/-- Latching the Anchor writes the Anchor beside those. -/
theorem State.latchAnchor_frame (s : State) (f : AncFault) :
    s.latchAnchor f = { s with
      dev := (s.latchAnchor f).dev
      anc := (s.latchAnchor f).anc
      flt := (s.latchAnchor f).flt
      pwr := (s.latchAnchor f).pwr
      em := (s.latchAnchor f).em
      tch := (s.latchAnchor f).tch
      bly := (s.latchAnchor f).bly } := by
  refine State.eq_of_sansSafe ?_
  unfold State.latchAnchor
  split
  · rfl
  · dsimp only
    rw [State.enterSafe_sansSafe]
    split
    · exact State.settle_sansSafe _
    · exact State.settle_sansSafe _

end Sys2Proof.Machine
end

