-- ==== Sys2Proof/Tests/Slice0.lean ====
section
/-! SUPPORT. Tests: a command that each check of `WellFormed` refuses, small steps whose results the spec's rules give, and, for
every statement that has hypotheses, a state and operands that meet them. The bytes and numbers are worked out from the
rules by hand. -/

namespace Sys2Proof.Tests

-- each test is checked before the next one is read: no more than a few wait at once
set_option Elab.async false

open Sys2Proof Sys2Proof.Machine

/-! ## States to start from -/

/-- The state after reset in a device state. -/
def inState (d : DevState) : State := { State.reset with dev := d, pwr := { State.reset.pwr with phase := .done } }

/-- A parameter's active and staged value. -/
def withP (id ix : Nat) (v : Int) (s : State) : State :=
  { s with par := { s.par with active := bankSet s.par.active id ix (.num v), staged := bankSet s.par.staged id ix (.num v) } }

/-- The same for a table. -/
def withT (id ix : Nat) (b : Bytes) (s : State) : State :=
  { s with par := { s.par with active := bankSet s.par.active id ix (.tbl b), staged := bankSet s.par.staged id ix (.tbl b) } }

/-- The island in a run state, with a change. -/
def withIsl (f : Isl → Isl) : State := { State.reset with isl := f { State.reset.isl with run := .run } }

/-- A port UP, and buffered frames. -/
def withPort (f : Port → Port) (s : State) : State := { s with eth := { s.eth with ports := vmod s.eth.ports 0 f } }
def portUp (s : State) : State := withPort (fun x => { x with phase := .up }) s
def withBuf (cls : Nat) (x : Payload) (s : State) : State :=
  { s with eth := { s.eth with buf := s.eth.buf ++ [⟨0, cls, 100, 0, x⟩] } }
def withHalt (x : Payload) (s : State) : State :=
  { s with eth := { s.eth with halt := vset s.eth.halt 0 [⟨0, 7, 100, 0, x⟩] } }

/-- A PLL in a lock state. -/
def withPll (k : PllIx) (x : PllState) (s : State) : State :=
  { s with clk := { s.clk with pll := vmod s.clk.pll k (fun q => { q with st := x }) } }

/-- The state a command answers, when it answers one. -/
def after (r : Res) : State :=
  match r with
  | .next t => t
  | _ => State.reset

/-- A frame that meets no FEC codeword to correct. -/
def noFec : Fec := ⟨0, 0, false⟩

/-! ## What `WellFormed` refuses -/

theorem test_wf_frameLength : illFormed (.ethFrameRx 0 0 noFec (zeros 17)) = [.frameLength] := by decide
theorem test_wf_traverseLength : illFormed (.vote 0 (zeros 31)) = [.traverseLength] := by decide
theorem test_wf_apertureCode : illFormed (.senseSample 0 0 0 ⟨10, 4096, 0, 0, 0, false⟩) = [.apertureCode] := by decide
theorem test_wf_thermalKind : illFormed (.thermalConversion 0 (.die 0) (.diode 1 2)) = [.thermalKind] := by decide
theorem test_wf_ntcRatio : illFormed (.thermalConversion 0 (.remote 0) (.ntc 16777216)) = [.ntcRatio] := by decide
theorem test_wf_loopRange :
    illFormed (.belayBasePeriod (Vector.replicate 4 ⟨0, 2147483648, 0⟩)) = [.loopRange] := by decide
theorem test_wf_sampleOfLine : illFormed (.scanSample 0 (.emit 8192)) = [.sampleOfLine] := by decide
theorem test_wf_bridgeCode : illFormed (.bridgeConversion (Vector.replicate 4 8388608) 0#4) = [.bridgeCode] := by decide
theorem test_wf_burst :
    illFormed (.memoryRequest (.lpddr 0 (some ⟨60, false, [], 8, .codec, .none, .none⟩) none)) = [.burst] := by decide
theorem test_wf_queuePosition : illFormed (.memoryRequest (.lpddr 0 none (some 64))) = [.queuePosition] := by decide
theorem test_wf_keyLength : illFormed (.serviceKeyWrite (.host 0) (zeros 31) false) = [.keyLength] := by decide
theorem test_wf_flashLength : illFormed (.serviceFlashRecovery false [] (zeros 67)) = [.flashLength] := by decide
theorem test_wf_surfaceIndex : illFormed (.surfaceClearDone 2048) = [.surfaceIndex] := by decide
theorem test_wf_eventSequence : illFormed (.eventRetransmit 0 0 4294967296) = [.eventSequence] := by decide
theorem test_wf_railLevel : illFormed (.supplyWarning 0 .core 65536) = [.railLevel] := by decide
theorem test_wf_blockNumber : illFormed (.planeBlockLoad 0 32) = [.blockNumber] := by decide
theorem test_wf_metrology :
    illFormed (.sealChange (.parameter 0 { Metro.unset with avg := 0 })) = [.metrology] := by decide
theorem test_wf_accepts : WellFormed (.vote 0 (zeros 32)) ∧ WellFormed (.surfaceClearDone 2047) ∧
    WellFormed (.ethFrameRx 0 0 noFec (zeros 64)) := by decide

/-! ## Published values -/

/-- CRC-32 of "123456789" is CBF43926. -/
theorem test_crc32 : crc32 [0x31#8, 0x32#8, 0x33#8, 0x34#8, 0x35#8, 0x36#8, 0x37#8, 0x38#8, 0x39#8] = 0xCBF43926 := by
  decide +kernel

/-- SHA-256 of "abc" (FIPS 180-4). -/
theorem test_sha256 : natBE (sha256 [0x61#8, 0x62#8, 0x63#8]) =
    0xBA7816BF8F01CFEA414140DE5DAE2223B00361A396177A9CB410FF61F20015AD := by decide +kernel

/-- HMAC-SHA-256 of "Hi There" under 20 bytes 0B (RFC 4231), the first 16 bytes. -/
theorem test_hmac : natBE (tagOf (List.replicate 20 0x0B#8) [0x48#8, 0x69#8, 0x20#8, 0x54#8, 0x68#8, 0x65#8, 0x72#8, 0x65#8]) =
    0xB0344C61D8DB38535CA8AFCEAF0BF12B := by decide +kernel

/-! ## The island -/

/-- Sealed parameters of a 3,000 kg scale in steps of 1 kg with one cell. -/
def scale : Metro :=
  { Metro.unset with mask := 1#4, k := Vector.replicate 4 4294967296, max := 3000, tareSemi := true, everyUpdate := true }

/-- The scale with an indication of 5 e, its initial zero found. -/
def weighing : State :=
  withIsl (fun x => { x with metro := scale, wf := 5 * wOne, zeroInit := some 0, stable := true, sealOpen := false })

/-- A readback waits for head 1, which had a mismatch before. -/
def withQueue (r : Readback) : State :=
  withIsl (fun x => { x with heads := vmod x.heads 1 (fun h => { h with composing := true, bad := 1, queue := [r] }) })

theorem test_witness_IslandRecordsKept : AuditBounded State.reset ∧ AuditBounded weighing := by
  unfold AuditBounded; decide +kernel

theorem test_witness_IslandStartsAndStops :
    (State.reset.isl.run = .off ∧ State.reset.isl.bootSlot = none) ∧
    weighing.isl.run = .run ∧
    ((withIsl (fun x => { x with sealOpen := true })).isl.run ≠ .off ∧
      (withIsl (fun x => { x with sealOpen := true })).isl.sealOpen = true ∧
      (withIsl (fun x => { x with sealOpen := true })).isl.audit.length < 4096) := by decide +kernel

/-- A slot whose image verifies boots. -/
theorem test_witness_IslandStarts_slot (i : Bytes) (h : Config.islandSignature i = true) :
    ({ Isl.reset with slots := vset Isl.reset.slots 2 (some ⟨1#16, i⟩) } : Isl).bootSlot = some 2 := by
  show List.find? _ [(3 : Fin 4), 2, 1, 0] = some 2
  simp only [List.find?]
  exact (by rw [show (Config.islandSignature i) = true from h] : (match (Config.islandSignature i : Bool) with
    | true => some (2 : Fin 4)
    | false => _) = some 2)

theorem test_witness_SealChangeRecorded :
    ((withIsl (fun x => { x with sealOpen := true, audit := List.replicate 4095 (zeros 16) })).isl.run ≠ .off ∧
      (withIsl (fun x => { x with sealOpen := true, audit := List.replicate 4095 (zeros 16) })).isl.sealOpen = true ∧
      (withIsl (fun x => { x with sealOpen := true, audit := List.replicate 4095 (zeros 16) })).isl.audit.length < 4096) ∧
    (metroOk { scale with max := 100 } = true ∧ metroOk { scale with avg := 64, max := 100000 } = true ∧
      geometryOk (Vector.replicate 4 Window.none) = true) ∧
    (State.reset.isl.slots[(3 : Fin 4)] = none ∧
      (withIsl (fun x => { x with slots := vset x.slots 3 (some ⟨1#16, []⟩) })).isl.slots[(3 : Fin 4)] ≠ none) ∧
    ((withIsl id).isl.sealOpen = false ∧
      4096 ≤ (withIsl (fun x => { x with audit := List.replicate 4096 (zeros 16) })).isl.audit.length) := by
  decide +kernel

theorem test_witness_BridgeConversionWeighs :
    (weighing.isl.run = .run ∧ weighing.isl.pllOut = false ∧ weighing.isl.metro.avg = 1 ∧
      weighing.isl.metro.everyUpdate = true) ∧
    State.reset.isl.run ≠ .run ∧ (withIsl (fun x => { x with pllOut := true })).isl.pllOut = true := by decide +kernel

/-- Code 3 on a cell of gain 1 and zero 0 is a raw load of 6 half counts (15 R703). -/
theorem test_rawLoad : weighing.isl.rawLoad #v[3, 7, 7, 7] = 3 * wOne := by decide +kernel

theorem test_witness_TerminalCommands :
    (weighing.isl.run = .run ∧ weighing.isl.deUntil ≤ weighing.now ∧ weighing.isl.zeroInit = some 0 ∧ weighing.isl.stable = true ∧
      within weighing.isl.wf 0 (weighing.isl.percent 2) = true) ∧
    within (60 * wOne) 0 (weighing.isl.percent 2) = true ∧
    ((withIsl id).isl.zeroInit = none ∧ (withIsl id).isl.stable = false) ∧
    (weighing.isl.metro.tareSemi = true ∧ 0 < weighing.isl.gross ∧
      weighing.isl.gross ≤ (weighing.isl.metro.max : Int) * wOne) ∧
    ((withIsl id).isl.metro.tareSemi = false ∧ (withIsl id).isl.gross ≤ 0) ∧
    ((withIsl (fun x => { x with ident := some 0 })).isl.ident = some 0 ∧
      0 ≤ (withIsl (fun x => { x with ident := some 0 })).latest) ∧
    ((withIsl (fun x => { x with ident := some 9 })).isl.ident = some 9 ∧
      (withIsl (fun x => { x with ident := some 9 })).latest < 9) ∧
    (withIsl (fun x => { x with deUntil := 5 })).now < (withIsl (fun x => { x with deUntil := 5 })).isl.deUntil := by
  decide +kernel

theorem test_witness_WindowPostedAndChecked :
    (weighing.isl.run = .run ∧ weighing.isl.pllOut = false ∧
      (zeros 384).length = 3 * (weighing.isl.geom[(0 : Fin 4)]).rw * (weighing.isl.geom[(0 : Fin 4)]).rh) ∧
    ((withQueue ⟨true, 0, none, 1⟩).isl.run = .run ∧ 1 ≤ ((withQueue ⟨true, 0, none, 1⟩).isl.heads[(1 : Fin 4)]).bad) := by decide +kernel

/-- Any readback can wait: of a wrong CRC, of the expected one, of a head that is not composing. -/
theorem test_witness_Readbacks (r : Readback) : (withQueue r).isl.heads[(1 : Fin 4)].queue = [r] := rfl

/-! ## Ethernet -/

/-- A frame with its FCS. -/
def fcs (b : Bytes) : Bytes := b ++ toLE 4 (crc32 b)

/-- An ARP request by broadcast for 10.0.0.1 (RFC 826), padded to 64 bytes with its FCS. -/
def arpBody : Bytes :=
  toBE 2 1 ++ toBE 2 0x0800 ++ [6#8, 4#8] ++ toBE 2 1 ++ toBE 6 0x020000000002 ++ toBE 4 0x0A000002 ++ zeros 6 ++ toBE 4 0x0A000001
def arpFrame : Bytes := fcs (toBE 6 0xFFFFFFFFFFFF ++ toBE 6 0x020000000002 ++ toBE 2 0x0806 ++ arpBody ++ zeros 18)

def onNet : State := withP P.ETH_IPADDR 0 0x0A000001 (portUp (inState .standby))

theorem test_witness_LinkBringUp :
    (mediaCopper ((withP P.ETH_MEDIA 0 0 State.reset).pN P.ETH_MEDIA 0) = true ∧ State.reset.pB P.ETH_AN 0 = true ∧
      (State.reset.eth.ports[(0 : Fin 2)]).phase = .down) ∧
    (mediaCopper ((withP P.ETH_MEDIA 0 1 State.reset).pN P.ETH_MEDIA 0) = true ∧
      ((withPort (fun x => { x with phase := .training }) State.reset).eth.ports[(0 : Fin 2)]).phase = .training) ∧
    ((withPort (fun x => { x with phase := .trained }) State.reset).eth.ports[(0 : Fin 2)]).phase = .trained ∧
    (State.reset.pN P.ETH_MEDIA 0 = 2 ∧ State.reset.modulePresent 0 = true) ∧
    (onNet.eth.ports[(0 : Fin 2)]).phase = .up ∧ onNet.pN P.ETH_IPADDR 0 ≠ 0 ∧
    ((onNet.eth.ports[(0 : Fin 2)]).v1Until ≤ onNet.now ∧ (onNet.eth.ports[(0 : Fin 2)]).v2Until ≤ onNet.now) := by decide +kernel

theorem test_linkUp_arp : (after (exec (.ethLinkUp 0)
    (withP P.ETH_MEDIA 0 1 (withP P.ETH_IPADDR 0 0x0A000001 (withPort (fun x => { x with phase := .trained }) (inState .standby)))))).out =
    [.arp 0 false 0xFFFFFFFFFFFF 0x0A000001] := by decide +kernel

theorem test_witness_ModuleGone :
    (withP P.ETH_MODPRS 0 15 State.reset).pN P.ETH_MODPRS 0 = 15 ∧
    State.reset.pN P.ETH_MODPRS 0 ≠ 3 := by decide +kernel

theorem test_witness_Classifier_bad :
    (State.reset.eth.ports[(0 : Fin 2)]).phase ≠ .up ∧
    (withPll 14 .unlocked onNet).clockLost (serdesEth 0) = true ∧
    ((onNet.eth.ports[(0 : Fin 2)]).phase = .up ∧ onNet.clockLost (serdesEth 0) = false ∧ 64 ≤ (zeros 64).length ∧
      crc32 ((zeros 64).take 60) ≠ le32 (zeros 64) 60 ∧ be16 (zeros 64) 12 ≠ 0x0800 ∧
      be16 (zeros 64) 12 ≠ 0x0806 ∧ be16 (zeros 64) 12 ≠ 0x8808 ∧ 9022 < (zeros 9023).length) := by
  decide +kernel

/-- The ARP frame is of class 5 and fits its bucket and reserve. -/
theorem test_witness_Classifier_arp :
    onNet.parseFrame 0 false arpFrame = .keep 5 (.arp (arpBody ++ zeros 18)) ∧
    ptpServed (.arp (arpBody ++ zeros 18)) = true ∧ onNet.dev ≠ .boot ∧
    arpFrame.length * 8000 ≤ ((onNet.eth.ports[(0 : Fin 2)]).refill (max onNet.now 7)).tokens[(0 : Fin 3)] ∧
    onNet.eth.inClass 0 5 + arpFrame.length ≤ reserveOf 5 := by decide +kernel

/-- A session path of group 239.0.0.1 and UDP port 5004. -/
def listening : State :=
  withP P.ETH_RX_UDP 0 5004 (withP P.ETH_RX_GROUP 0 0xEF000001 (withP P.ETH_RX_ENABLE 0 1 (withP P.ETH_RX_PATHS 0 1 onNet)))

/-- An IPv4 UDP packet of four bytes to the group, without a UDP checksum; its header sums to FFFF. -/
def groupPacket : Bytes :=
  toBE 2 0x4500 ++ toBE 2 32 ++ zeros 4 ++ toBE 2 0x4011 ++ toBE 2 0x81CA ++ toBE 4 0x0A000002 ++ toBE 4 0xEF000001 ++
    toBE 2 9 ++ toBE 2 5004 ++ toBE 2 12 ++ toBE 2 0 ++ [1#8, 2#8, 3#8, 4#8]
def groupFrame : Bytes := fcs (toBE 6 0x01005E000001 ++ toBE 6 0x020000000002 ++ toBE 2 0x0800 ++ groupPacket ++ zeros 14)

/-- It is of class 0, whatever the port's address. -/
theorem test_witness_Classifier_video :
    listening.parseFrame 0 false groupFrame = .keep 0 (.video [0] [1#8, 2#8, 3#8, 4#8]) := by
  unfold State.parseFrame
  dsimp only
  unfold State.parseIp
  dsimp only
  generalize (Config.mac 0).toNat = m
  generalize (natBE (groupFrame.take 6) == m) = b
  cases b <;> decide +kernel

/-- An ACM datagram of a length and command word, in a frame to 02:00:00:00:00:01 and 10.0.0.1. -/
def acmBytes (n op : Nat) : Bytes := zeros 4 ++ toBE 2 op ++ zeros (n - 6)
def acmPacket (n sum op : Nat) : Bytes :=
  toBE 2 0x4500 ++ toBE 2 (28 + n) ++ zeros 4 ++ toBE 2 0x4011 ++ toBE 2 sum ++ toBE 4 0x0A000002 ++ toBE 4 0x0A000001 ++
    toBE 2 9 ++ toBE 2 (onNet.pN P.SYS_ACM_PORT) ++ toBE 2 (8 + n) ++ toBE 2 0 ++ acmBytes n op
def acmFrame (n sum op : Nat) : Bytes :=
  fcs (toBE 6 0x020000000001 ++ toBE 6 0x020000000002 ++ toBE 2 0x0800 ++ acmPacket n sum op)

/-- On the device of that address, which accepts every source, they are a request of class 7 and a HALT, in BOOT too. -/
theorem test_fcs (b : Bytes) : ¬ (false = true ∨ (fcs b).length < 4 ∨
    crc32 ((fcs b).take ((fcs b).length - 4)) ≠ le32 (fcs b) ((fcs b).length - 4)) := by
  have hl : (fcs b).length = b.length + 4 := by simp [fcs, toLE]
  have ht : (fcs b).take b.length = b := by simp [fcs]
  have hs : slice (fcs b) b.length 4 = toLE 4 (crc32 b) := by simp [fcs, slice, toLE]
  have hc : crc32 b < 2 ^ 32 := (~~~ crc32Run 0xFFFFFFFF#32 b).isLt
  rw [hl, Nat.add_sub_cancel, ht, le32, hs]
  simp [natLE, toLE, byteOf]
  omega

theorem test_witness_Classifier_acm (h : (Config.mac 0).toNat = 0x020000000001) :
    onNet.parseFrame 0 false (acmFrame 56 0x6697 0) = .keep 7 (.acm 0x0A000002 9 (acmBytes 56 0)) ∧
    ({ onNet with dev := .boot } : State).parseFrame 0 false (acmFrame 56 0x6697 0) =
      .keep 7 (.acm 0x0A000002 9 (acmBytes 56 0)) ∧
    onNet.parseFrame 0 false (acmFrame 52 0x669B 1) = .halt (.acm 0x0A000002 9 (acmBytes 52 1)) := by
  refine ⟨?_, ?_, ?_⟩ <;>
  · unfold State.parseFrame
    dsimp only
    rw [if_neg (by exact test_fcs _)]
    unfold State.parseIp
    dsimp only
    rw [h]
    decide +kernel

theorem test_witness_Classifier_pool :
    listening.eth.inPool * 100 < poolThreshold 0 * sharedPool ∧
    poolThreshold 4 * sharedPool ≤ ({ onNet with eth := { onNet.eth with buf := [⟨0, 4, sharedPool, 0, .other⟩] } }).eth.inPool * 100 ∧
    poolThreshold 0 * sharedPool ≤ ({ onNet with eth := { onNet.eth with buf := [⟨0, 4, sharedPool / 2, 0, .other⟩] } }).eth.inPool * 100 ∧
    (onNet.eth.halt[(0 : Fin 2)]).foldl (fun a b => a + b.len) 0 + 120 ≤ haltSlot := by decide +kernel

theorem test_witness_ArpAnswered :
    ((withBuf 5 (.arp arpBody) onNet).takeFrame 0 isArp).map (·.1) = some (.arp arpBody) ∧
    be16 arpBody 0 = 1 ∧ be16 arpBody 2 = 0x0800 ∧ be16 arpBody 6 = 1 ∧
    be32 arpBody 24 = (withBuf 5 (.arp arpBody) onNet).pN P.ETH_IPADDR 0 ∧ be32 arpBody 24 ≠ 0 := by decide +kernel

theorem test_arp_reply : (after (exec (.arpRequest 0) (withBuf 5 (.arp arpBody) onNet))).out =
    [.arp 0 true 0x020000000002 0x0A000002] := by decide +kernel

theorem test_witness_EchoAnswered :
    onNet.clockLost (serdesEth 0) = false ∧ onNet.reachable (.eth 0) 0x0A000009 = true ∧
    (({ withBuf 5 (.icmp 0x0A000009 [8#8, 0#8, 0#8, 0#8]) onNet with now := max 0 3 } : State).takeFrame 0 isIcmp).map (·.1) =
      some (.icmp 0x0A000009 [8#8, 0#8, 0#8, 0#8]) ∧ onNet.dev ≠ .boot ∧
    ((onNet.eth.ports[(0 : Fin 2)]).echoes.filter (fun e => decide (3 < e + 1000000000))).length < 100 ∧
    (((withPort (fun x => { x with echoes := List.replicate 99 3 }) onNet).eth.ports[(0 : Fin 2)]).echoes.filter
      (fun e => decide (3 < e + 1000000000))).length < 100 := by decide +kernel

/-- A version 3 query of every group, and a version 2 one. -/
theorem test_witness_QueryAnswered :
    ((withBuf 5 (.igmp 9 (0x11#8 :: zeros 11)) listening).takeFrame 0 isIgmp).map (·.1) = some (.igmp 9 (0x11#8 :: zeros 11)) ∧
    (u8 (0x11#8 :: zeros 11) 0 = 0x11 ∧ be32 (0x11#8 :: zeros 11) 4 = 0 ∧ be16 (0x11#8 :: zeros 11) 10 = 0) ∧
    ((withBuf 5 (.igmp 9 (0x11#8 :: 5#8 :: zeros 6)) listening).takeFrame 0 isIgmp).map (·.1) =
      some (.igmp 9 (0x11#8 :: 5#8 :: zeros 6)) ∧
    (u8 (0x11#8 :: 5#8 :: zeros 6) 1 ≠ 0 ∧ (0x11#8 :: 5#8 :: zeros 6).length < 12) ∧
    listening.memberships 0 ≠ [] ∧
    ((listening.eth.ports[(0 : Fin 2)]).v1Until ≤ listening.now ∧
      (listening.eth.ports[(0 : Fin 2)]).v2Until ≤ listening.now) := by decide +kernel
/-! ## PTP and video -/

/-- A PTP message of a type: version 2, domain 0, two-step when asked, source identity 7, sequence 1, `n` bytes. -/
def ptpMsg (typ n : Nat) (two : Bool) : Bytes :=
  ([byteOf typ, 2#8] ++ toBE 2 n ++ [0#8, 0#8, byteOf (if two then 2 else 0), 0#8] ++ zeros 12 ++ toBE 10 7 ++ toBE 2 1 ++
    [0#8, 0#8] ++ zeros 64).take n

def ptpState (f : Ptp → Ptp) : State :=
  let s := withP P.ETH_PTP_DOMAIN 0 0 (withP P.ETH_PTP_PORTS 0 3 onNet)
  { s with ptp := f s.ptp }

theorem test_witness_Ptp_announce :
    (({ withBuf 6 (.ptp 320 9 (ptpMsg 11 64 false)) (ptpState id) with now := max 0 5 } : State).takeFrame 0
      (isPtpOf [ptpTypeAnnounce])).map (·.1) = some (.ptp 320 9 (ptpMsg 11 64 false)) ∧
    (ptpState id).ptpAccepts 0 (ptpMsg 11 64 false) = true ∧ 64 ≤ (ptpMsg 11 64 false).length := by decide +kernel

theorem test_witness_Ptp_sync :
    (({ withBuf 6 (.ptp 319 9 (ptpMsg 0 44 true)) (ptpState fun x => { x with sel := some (0, 7) }) with now := max 0 5 } : State).takeFrame
      0 (isPtpOf [ptpTypeSync, ptpTypeFollowUp])).map (·.1) = some (.ptp 319 9 (ptpMsg 0 44 true)) ∧
    44 ≤ (ptpMsg 0 44 true).length ∧ (some ((0 : PortIx), 7)) = some (0, ptpSource (ptpMsg 0 44 true)) ∧
    u8 (ptpMsg 0 44 true) 0 % 16 = ptpTypeSync ∧ bit (u8 (ptpMsg 0 44 true) 6) 1 = true ∧
    bit (u8 (ptpMsg 0 44 false) 6) 1 = false := by decide +kernel

/-- The Follow_Up of a Sync that waits. -/
theorem test_witness_Ptp_followUp :
    let s := ptpState fun x => { x with sel := some (0, 7), waiting := some (1, 40, 0) }
    (({ withBuf 6 (.ptp 320 9 (ptpMsg 8 44 false)) s with now := max 0 5 } : State).takeFrame
      0 (isPtpOf [ptpTypeSync, ptpTypeFollowUp])).map (·.1) = some (.ptp 320 9 (ptpMsg 8 44 false)) ∧
    s.ptpAccepts 0 (ptpMsg 8 44 false) = true ∧ s.ptp.sel = some (0, ptpSource (ptpMsg 8 44 false)) ∧
    u8 (ptpMsg 8 44 false) 0 % 16 = ptpTypeFollowUp ∧ s.ptp.waiting = some (ptpSeq (ptpMsg 8 44 false), 40, 0) := by
  decide +kernel

theorem test_witness_Ptp_delayResp :
    (({ withBuf 6 (.ptp 320 9 (ptpMsg 9 54 false)) (ptpState fun x => { x with sel := some (0, 7), reqSeq := 1 }) with
      now := max 0 5 } : State).takeFrame 0 (isPtpOf [ptpTypeDelayResp])).map (·.1) = some (.ptp 320 9 (ptpMsg 9 54 false)) ∧
    54 ≤ (ptpMsg 9 54 false).length ∧ ptpSeq (ptpMsg 9 54 false) = 1 := by decide +kernel

/-- Eight intervals of 1 s after the last Sync, to the ns. -/
theorem test_witness_Ptp_holdover :
    let x : Ptp := { Ptp.reset with state := .slave, sel := some (0, 7), syncAt := 5, masters := [⟨0, 7, 9, 1, 1, 0, 0, [5]⟩] }
    x.sel = some (0, 7) ∧ (∀ m ∈ x.masters, m.p = 0 ∧ m.source = 7) ∧ x.syncAt ≠ 0 ∧
    x.syncAt + 8 * intervalNs x.syncLog ≤ max 0 8000000005 := by decide +kernel

/-- An RTP packet of payload type 96, sequence number 1, with one sample row data header of row 0, offset 0 and 8 groups'
bytes. -/
def rtp (bytes : Nat) : Bytes :=
  [0x80#8, 96#8] ++ toBE 2 1 ++ toBE 4 1000 ++ toBE 4 0x11223344 ++ toBE 2 0 ++ toBE 2 bytes ++ toBE 2 0 ++ toBE 2 0 ++ zeros bytes

/-- Session 0 of 16 by 16 pixels of 8-bit RGB 4:4:4 (format 0), payload type 96, on port E0. -/
def receiving (f : Rx → Rx) : State :=
  let s := withP P.ETH_RX_WIDTH 0 16 (withP P.ETH_RX_HEIGHT 0 16 (withP P.ETH_RX_PT 0 96 listening))
  { s with rx := vmod s.rx 0 f }

theorem test_witness_SessionTakesPackets :
    (({ withBuf 0 (.video [0] (rtp 30)) (receiving id) with now := max 0 5 } : State).takeFrame 0 isVideo).map (·.1) =
      some (.video [0] (rtp 30)) ∧ (receiving id).dev ≠ .boot ∧ (receiving id).pathOn 0 0 = true ∧
    (∃ k, parseRtp (rtp 30) = some k ∧ k.pt = (receiving id).pN P.ETH_RX_PT 0 ∧ k.srds.length ≠ 0 ∧ k.srds.length ≤ 3 ∧
      k.field = false ∧ k.srds.all (srdOk ((receiving id).pN P.ETH_RX_FORMAT 0) ((receiving id).pN P.ETH_RX_WIDTH 0)
        ((receiving id).pN P.ETH_RX_HEIGHT 0)) = true) ∧
    ((receiving id).rx[(0 : Fin 8)]).ssrc = none ∧ ((receiving id).rx[(0 : Fin 8)]).hi = none ∧
    (receiving id).pN P.ETH_RX_PATHS 0 ≠ 3 ∧
    ((receiving id).tickRuns && (receiving id).tick.nextEdge == max (receiving id).now 5) = false := by
  refine ⟨by decide +kernel, by decide +kernel, by decide +kernel, ⟨_, rfl, ?_⟩, by decide +kernel, by decide +kernel,
    by decide +kernel, by decide +kernel⟩
  decide +kernel

/-- A number that has arrived on the other path; one below the window; the instant of the next edge. -/
theorem test_witness_Session_again :
    let s := withP P.ETH_RX_PATHS 0 3 (receiving fun r => { r with hi := some 1, seen := [(1, 2)] })
    (s.pN P.ETH_RX_PATHS 0 = 3 ∧ unwrapNum (s.rx[(0 : Fin 8)]).hi 1 = 1 ∧ spanHas 1 (s.rx[(0 : Fin 8)]).seen = true ∧
      s.pathOn 0 0 = true) ∧
    unwrapNum (some 4295067296) 1000 + 32768 < 4295067296 ∧
    (s.tickRuns = true ∧ s.tick.nextEdge = max s.now s.tick.nextEdge) := by decide +kernel

theorem test_witness_Session_bad :
    parseRtp (zeros 20) = none ∧
    (∃ k, parseRtp (rtp 30) = some k ∧ k.pt ≠ listening.pN P.ETH_RX_PT 1 + 1) ∧
    (∃ k, parseRtp (rtp 30) = some k ∧ k.pt = (receiving fun r => { r with ssrc := some 9 }).pN P.ETH_RX_PT 0 ∧
      ((receiving fun r => { r with ssrc := some 9 }).rx[(0 : Fin 8)]).ssrc = some 9 ∧ 9 ≠ k.ssrc) := by
  refine ⟨by decide +kernel, ⟨_, rfl, ?_⟩, ⟨_, rfl, ?_⟩⟩ <;> decide +kernel

/-- A marker arrived, the timeout later to the ns; an SSRC not heard for one second. -/
theorem test_witness_Session_timeouts :
    let s := receiving (fun r => { r with frames := [⟨1000, 0, 0, 5, some 7, none, []⟩], lastAt := 7 })
    (s.rx[(0 : Fin 8)]).frames = [⟨1000, 0, 0, 5, some 7, none, []⟩] ∧
    max s.now 9 < 7 + s.pN P.ETH_RX_TIMEOUT 0 * 1000000 ∧ max s.now 9 < (s.rx[(0 : Fin 8)]).lastAt + 1000000000 ∧
    7 + s.pN P.ETH_RX_TIMEOUT 0 * 1000000 ≤ max s.now (7 + s.pN P.ETH_RX_TIMEOUT 0 * 1000000) ∧
    (s.rx[(0 : Fin 8)]).lastAt + 1000000000 ≤ max s.now 1000000007 := by decide +kernel

/-! ## Control messages -/

/-- A message with a tag (03 Table 3-1). -/
def dgram (typ mailbox session seq irt device epoch : Nat) (body : Bytes) (tag : Nat) : Bytes :=
  toBE 2 0x4146 ++ [3#8, 0#8] ++ toBE 2 typ ++ [byteOf mailbox, byteOf session] ++ toBE 4 seq ++ toBE 4 irt ++
    toBE 2 body.length ++ toBE 2 0 ++ [byteOf device, 0#8] ++ toBE 4 epoch ++ zeros 6 ++ body ++ toBE 16 tag

/-- The tags below are HMAC-SHA-256 under 32 bytes of 7, worked out outside the model. -/
def key0 : Bytes := List.replicate 32 7#8
def dgHalt : Bytes := dgram 0x0001 0 1 9 0 0 1 [0#8, 7#8, 0#8, 0#8] 0x700ecf143786d0c4d06b5d25a5b82ac6
def dgSet : Bytes := dgram 0x0020 3 1 5 0 0 1 [0#8] 0xfb99ef59df51e05b0c999a2bce2edc14
def dgHello : Bytes := dgram 0x0010 3 1 0 0 0xFE 1 (zeros 12) 0xc4af426d9061df9e0755afd1840c1e96
def dgAck : Bytes := dgram 0x0081 3 1 5 0xFFFFFFFF 0 1 [] 0x502290cf4f3d1ad483a050c874e0a6aa
def dgEpoch : Bytes := dgram 0x0020 3 1 4 0 0 2 [] 0x6f2bd28f84c6183e15ee7d2d3c12c140

/-- Session 1 open with a key, E = 5, in STANDBY; a change to it and to the unit. -/
def hosted (f : Session → Session) (g : Acm → Acm) : State :=
  { onNet with acm := g { onNet.acm with
      keys := Vector.replicate 4 (some key0)
      cascKey := some key0
      sess := vmod onNet.acm.sess 1 (fun x => f { x with open_ := true, next := 5 }) } }

def withAcm (b : Bytes) (s : State) : State := withBuf 7 (.acm 9 4660 b) s

theorem test_tag_halt : dgramTagOk key0 dgHalt = true := by decide +kernel
theorem test_tag_set : dgramTagOk key0 dgSet = true := by decide +kernel
theorem test_tag_hello : dgramTagOk key0 dgHello = true := by decide +kernel
theorem test_tag_ack : dgramTagOk key0 dgAck = true := by decide +kernel
theorem test_tag_epoch : dgramTagOk key0 dgEpoch = true := by decide +kernel
/-- A bit of the body changed. -/
theorem test_tag_wrong : dgramTagOk key0 (dgram 0x0020 3 1 5 0 0 1 [1#8] 0xfb99ef59df51e05b0c999a2bce2edc14) = false := by
  decide +kernel

theorem test_witness_Halt :
    (withHalt (.acm 9 4660 dgHalt) (hosted id id)).eth.halt[(0 : Fin 2)] = [⟨0, 7, 100, 0, .acm 9 4660 dgHalt⟩] ∧
    FreshHalt (hosted id id) dgHalt 1 ∧ (hosted id id).anc.halt = false :=
  ⟨rfl, ⟨by decide +kernel, by decide +kernel, by decide +kernel, ⟨key0, rfl, test_tag_halt⟩, by decide +kernel,
    by decide +kernel, by decide +kernel⟩, rfl⟩

/-- The same counter again is not fresh; a HALT may stand latched already. -/
theorem test_witness_Halt_stale :
    StaleHalt (hosted (fun x => { x with haltCount := 9 }) id) dgHalt 1 ∧
    ({ hosted id id with anc := { (hosted id id).anc with halt := true } } : State).anc.halt = true :=
  ⟨⟨by decide +kernel, by decide +kernel, by decide +kernel, ⟨key0, rfl, test_tag_halt⟩, by decide +kernel,
    by decide +kernel, by decide +kernel⟩, rfl⟩

/-- The HALT from device 1 for every device, over Traverse port 0. -/
def travHalt : Bytes := [5#8, 1#8, 255#8, 7#8] ++ zeros 12 ++ dgHalt ++ toBE 16 0xf160d693144b6e6b3749c42f352ff9bd
def linked (s : State) : State :=
  { s with cas := { s.cas with port := vmod s.cas.port 0 (fun x => { x with link := .up }) } }

def travHalted : State × Option Trav := ({ linked (hosted id id) with now := max 0 5 } : State).travTake 0 kindHalt travHalt

theorem test_witness_TraverseHalt :
    (∃ f, travHalted = (travHalted.1, some f) ∧ f.body = dgHalt) ∧ (dgramOf dgHalt).typ = typHalt ∧
    FreshHalt travHalted.1 dgHalt 1 ∧ travHalted.1.anc.halt = false := by
  have h : travHalted.2.map (·.body) = some dgHalt := by decide +kernel
  obtain ⟨f, hf, hb⟩ := Option.map_eq_some_iff.mp h
  refine ⟨⟨f, by rw [← hf], hb⟩, by decide +kernel, ⟨by decide +kernel, by decide +kernel, by decide +kernel,
    ⟨key0, by decide +kernel, test_tag_halt⟩, by decide +kernel, by decide +kernel, by decide +kernel⟩, by decide +kernel⟩

/-- The firmware's reply to a HALT is due. -/
theorem test_witness_HaltReply :
    let s := hosted id (fun a => { a with halts := [⟨1, 0, 9, 7, some ⟨.eth 0, 9, 4660⟩, true⟩] })
    s.acm.halts = [⟨1, 0, 9, 7, some ⟨.eth 0, 9, 4660⟩, true⟩] ∧ s.dev ≠ .boot ∧
    (withP P.ETH_IPMASK 0 0 s).reachable ((withP P.ETH_IPMASK 0 0 s).viaOut (.eth 0)) 9 = true := by decide +kernel

theorem authentic (u : State) (b : Bytes) (hd : u.dev ≠ .boot) (hk : u.acm.keys[(1 : Fin 4)] = some key0)
    (hs : (dgramForm b && (dgramOf b).typ != typHalt && u.acmSourceOk 9 b && (Fin.ofNat 4 (dgramOf b).session == 1) &&
      !(u.forwards (dgramOf b))) = true) (ht : dgramTagOk key0 b = true) : AuthenticRequest u 9 b 1 := by
  simp only [Bool.and_eq_true, bne_iff_ne, beq_iff_eq, Bool.not_eq_true'] at hs
  exact ⟨hd, hs.1.1.1.1, hs.1.1.1.2, hs.1.1.2, hs.1.2.symm, ⟨key0, hk, ht⟩, hs.2⟩

/-- The next message of session 1. -/
theorem test_witness_Accepted :
    (({ withAcm dgSet (hosted id id) with now := max 0 5 } : State).takeFrame 0 isAcm).map (·.1) = some (.acm 9 4660 dgSet) ∧
    AuthenticRequest (hosted id id) 9 dgSet 1 ∧
    ((dgramOf dgSet).epoch = (hosted id id).acm.epoch ∧ (hosted id id).refusedDevice (dgramOf dgSet) = false ∧
      (dgramOf dgSet).typ ≠ typHello ∧ (dgramOf dgSet).typ ≠ typEventAck ∧
      ((hosted id id).acm.sess[(1 : Fin 4)]).open_ = true ∧ (dgramOf dgSet).seq ≠ 0 ∧
      (dgramOf dgSet).seq = ((hosted id id).acm.sess[(1 : Fin 4)]).next ∧
      ((hosted id id).acm.sess[(1 : Fin 4)]).held = [] ∧ (hosted id id).mailboxFull (dgramOf dgSet).mailbox = false) :=
  ⟨by decide +kernel, authentic _ _ (by decide) rfl (by decide +kernel) test_tag_set, by decide +kernel⟩

/-- A duplicate whose result is cached, at both ends of the window. -/
theorem test_witness_Duplicate :
    let s := hosted (fun x => { x with next := 6, cache := [⟨5, 0x0020, 3, 0, 0, 1, 1, false, []⟩] }) id
    (dgramOf dgSet).seq < (s.acm.sess[(1 : Fin 4)]).next ∧ (s.acm.sess[(1 : Fin 4)]).next ≤ (dgramOf dgSet).seq + 256 ∧
    261 ≤ (dgramOf dgSet).seq + 256 ∧
    (s.acm.sess[(1 : Fin 4)]).cache.find? (fun c => c.seq == (dgramOf dgSet).seq) = some ⟨5, 0x0020, 3, 0, 0, 1, 1, false, []⟩ := by
  decide +kernel

/-- A message of another epoch, and one for a session that is not open. -/
theorem test_witness_NotCurrent :
    (AuthenticRequest (hosted id id) 9 dgEpoch 1 ∧ (dgramOf dgEpoch).epoch ≠ (hosted id id).acm.epoch ∧
      (dgramOf dgEpoch).typ ≠ typHello) ∧
    (AuthenticRequest (hosted (fun x => { x with open_ := false }) id) 9 dgSet 1 ∧
      ((hosted (fun x => { x with open_ := false }) id).acm.sess[(1 : Fin 4)]).open_ = false) :=
  ⟨⟨authentic _ _ (by decide) rfl (by decide +kernel) test_tag_epoch, by decide +kernel, by decide +kernel⟩,
    authentic _ _ (by decide) rfl (by decide +kernel) test_tag_set, by decide +kernel⟩

theorem test_witness_HelloAndAck :
    (AuthenticRequest (hosted id id) 9 dgHello 1 ∧ (hosted id id).refusedDevice (dgramOf dgHello) = false ∧
      (dgramOf dgHello).typ = typHello) ∧
    (AuthenticRequest (hosted id id) 9 dgAck 1 ∧ (dgramOf dgAck).epoch = (hosted id id).acm.epoch ∧
      (hosted id id).refusedDevice (dgramOf dgAck) = false ∧ (dgramOf dgAck).typ = typEventAck) :=
  ⟨⟨authentic _ _ (by decide) rfl (by decide +kernel) test_tag_hello, by decide +kernel, by decide +kernel⟩,
    authentic _ _ (by decide) rfl (by decide +kernel) test_tag_ack, by decide +kernel, by decide +kernel, by decide +kernel⟩

theorem test_witness_WrongTag :
    let b := dgram 0x0020 3 1 5 0 0 1 [1#8] 0xfb99ef59df51e05b0c999a2bce2edc14
    dgramForm b = true ∧ (dgramOf b).typ ≠ typHalt ∧ (hosted id id).acmSourceOk 9 b = true ∧
    (hosted id id).acm.keys[(Fin.ofNat 4 (dgramOf b).session : SessIx)] = some key0 := by decide +kernel

/-! HELLO, BYE, events -/

/-- A HELLO of a mode with HELLO_COUNT 8 waits. -/
def helloing (mode : Nat) (f : Session → Session) (g : Acm → Acm) : State :=
  hosted f (fun a => g { a with hellos := [⟨1, 0, 0, 1, [byteOf mode, 0#8, 0#8, 0#8] ++ toBE 4 8 ++ zeros 4, ⟨.eth 0, 9, 4660⟩⟩] })
def helloOf (mode : Nat) : Hello := ⟨1, 0, 0, 1, [byteOf mode, 0#8, 0#8, 0#8] ++ toBE 4 8 ++ zeros 4, ⟨.eth 0, 9, 4660⟩⟩

theorem test_witness_HelloOpensSessions :
    ((helloing 0 id id).acm.hellos.find? (helloing 0 id id).helloReady = some (helloOf 0) ∧ (helloOf 0).body.length = 12 ∧
      u8 (helloOf 0).body 0 = 0 ∧ (helloOf 0).epoch = (helloing 0 id id).acm.epoch ∧
      ((helloing 0 (fun x => { x with helloCount := 7 }) id).acm.sess[(1 : Fin 4)]).helloCount < be32 (helloOf 0).body 4) ∧
    ((helloing 1 id id).acm.hellos.find? (helloing 1 id id).helloReady = some (helloOf 1) ∧ u8 (helloOf 1).body 0 = 1 ∧
      ((helloing 1 id id).acm.sess[(1 : Fin 4)]).open_ = true) ∧
    ((helloing 2 id id).acm.hellos.find? (helloing 2 id id).helloReady = some (helloOf 2) ∧ u8 (helloOf 2).body 0 = 2 ∧
      (helloing 2 id (fun a => { a with commKey := vset a.commKey 1 true })).acm.commKey[(1 : Fin 4)] = true) ∧
    (be32 (helloOf 0).body 4 ≤ ((helloing 0 (fun x => { x with helloCount := 8 }) id).acm.sess[(1 : Fin 4)]).helloCount ∧
      ((helloing 1 (fun x => { x with open_ := false }) id).acm.sess[(1 : Fin 4)]).open_ = false ∧
      (helloing 2 id id).acm.commKey[(1 : Fin 4)] = false) := by decide +kernel

/-- MODE 0 opens the session with E = 1 and no duplicate cache (03 R120). -/
theorem test_hello_new : ((after (exec .helloNew (helloing 0 id id))).acm.sess[(1 : Fin 4)]).next = 1 ∧
    ((after (exec .helloNew (helloing 0 id id))).acm.sess[(1 : Fin 4)]).helloCount = 8 := by decide +kernel

/-- An accepted message of session 1. -/
def msg (typ : Nat) (body : Bytes) : Msg := ⟨1, 4, typ, 3, 0, body, ⟨.eth 0, 9, 4660⟩, 0, false⟩
def asked (typ : Nat) (body : Bytes) (s : State) : State := { s with acm := { s.acm with accepted := [msg typ body] } }

theorem test_witness_ByeAndEvents :
    (asked typBye [] (hosted id id)).chosen = some (msg typBye []) ∧
    ((asked 0x0012 [] (hosted id id)).chosen = some (msg 0x0012 []) ∧ knownTypes.contains 0x0012 = false) ∧
    (hosted (fun x => { x with events := [⟨1, zeros 8, 0, some 5⟩] }) (fun a => { a with acks := [(1, 1)] })).acm.acks = [(1, 1)] ∧
    ((hosted (fun x => { x with events := [⟨1, zeros 8, 0, some 5⟩] }) id).acm.sess[(1 : Fin 4)]).events.any
      (fun e => e.seq == 1 && e.due.isSome) = true ∧
    ((hosted (fun x => { x with events := [⟨1, zeros 8, 0, none⟩] }) id).acm.sess[(1 : Fin 4)]).events.any
      (fun e => e.seq == 1 && e.due.isSome) = false ∧
    (((hosted (fun x => { x with events := [⟨1, zeros 8, 0, some 5⟩] }) id).acm.sess[(1 : Fin 4)]).events =
      [⟨1, zeros 8, 0, some 5⟩] ∧ (⟨1, zeros 8, 0, some 5⟩ : QEvent).before ⟨1, zeros 8, 0, some 5⟩ = false ∧ 5 ≤ max (hosted id id).now 5 ∧ (hosted id id).dev ≠ .boot) := by decide +kernel

theorem test_bye_closes : ((after (exec .bye (asked typBye [] (hosted id id)))).acm.sess[(1 : Fin 4)]).open_ = false := by
  decide +kernel

/-! ## Parameters -/

/-- PARAM_SET's body (03 Tables 3-7, 3-8). -/
def entryOf (id ix : Nat) (v : Bytes) : Bytes :=
  toBE 2 id ++ toBE 2 ix ++ toBE 2 v.length ++ [0#8, 0#8] ++ v ++ zeros (roundUp v.length 4 - v.length)
def setBody (es : List (Nat × Nat × Bytes)) : Bytes := toBE 2 es.length ++ [0#8, 0#8] ++ es.flatMap (fun e => entryOf e.1 e.2.1 e.2.2)
def setting (es : List (Nat × Nat × Bytes)) (s : State) : State := asked typParamSet (setBody es) s

/-- The entries of an accepted message. -/
def entriesIn (x : Except (Status × Nat) (State × List Entry)) : Option (List Entry) :=
  match x with
  | .ok (_, es) => some es
  | .error _ => none
def statusIn (x : Except (Status × Nat) (State × List Entry)) : Option (Status × Nat) :=
  match x with
  | .ok _ => none
  | .error e => some e

/-- What makes a message of one entry accepted. -/
theorem accepted_of (s : State) (m : Msg) (r : SetRow) (e : Entry) (hm : s.chosen = some m) (ht : m.typ = typParamSet)
    (hr : rowOf m.body = r) (h : entriesIn (s.setAll m.session m.body) = some [e]) : ∃ u, SetAccepted s u m r e := by
  cases hx : s.setAll m.session m.body with
  | error x => rw [hx] at h; cases h
  | ok x =>
    obtain ⟨u, es⟩ := x
    rw [hx] at h
    have he : es = [e] := by simpa [entriesIn] using h
    exact ⟨u, hm, ht, hr, by rw [hx, he]⟩

def standby : State := hosted id id

/-- A TICK, an IMM and a STBY write, each accepted alone. -/
theorem test_witness_WritesReachBanks :
    (∃ u, SetAccepted (setting [(P.CMP_CLONE, 1, [2#8])] standby) u (msg typParamSet (setBody [(P.CMP_CLONE, 1, [2#8])])) .plain
      ⟨P.CMP_CLONE, 1, [2#8]⟩) ∧
    (∃ u, SetAccepted (setting [(P.SYS_ACM_RETX_MS, 0, [0#8, 5#8])] standby) u
      (msg typParamSet (setBody [(P.SYS_ACM_RETX_MS, 0, [0#8, 5#8])])) .plain ⟨P.SYS_ACM_RETX_MS, 0, [0#8, 5#8]⟩) ∧
    (∃ u, SetAccepted (setting [(P.MEM_MAP, 0, [3#8])] standby) u (msg typParamSet (setBody [(P.MEM_MAP, 0, [3#8])])) .plain
      ⟨P.MEM_MAP, 0, [3#8]⟩) ∧
    (∃ u, SetAccepted (setting [(P.ANC_SEAL, 0, [1#8])] standby) u (msg typParamSet (setBody [(P.ANC_SEAL, 0, [1#8])])) .seal
      ⟨P.ANC_SEAL, 0, [1#8]⟩) :=
  ⟨accepted_of _ _ _ _ (by decide +kernel) rfl (by decide +kernel) (by decide +kernel),
    accepted_of _ _ _ _ (by decide +kernel) rfl (by decide +kernel) (by decide +kernel),
    accepted_of _ _ _ _ (by decide +kernel) rfl (by decide +kernel) (by decide +kernel),
    accepted_of _ _ _ _ (by decide +kernel) rfl (by decide +kernel) (by decide +kernel)⟩

theorem test_param_tick :
    bankGet (after (exec .paramSet (setting [(P.CMP_CLONE, 1, [2#8])] standby))).par.staged P.CMP_CLONE 1 = .num 2 ∧
    bankGet (after (exec .paramSet (setting [(P.CMP_CLONE, 1, [2#8])] standby))).par.active P.CMP_CLONE 1 = .num 255 := by
  decide +kernel

/-- A sealed device refuses a change of a limit. -/
theorem test_witness_Sealed :
    let s := setting [(P.EMT_MAXCODE, 47, [0#8, 9#8])] (withP P.ANC_SEAL 0 1 standby)
    s.chosen = some (msg typParamSet (setBody [(P.EMT_MAXCODE, 47, [0#8, 9#8])])) ∧
    rowOf (setBody [(P.EMT_MAXCODE, 47, [0#8, 9#8])]) = .plain ∧
    (match messageEntries (setBody [(P.EMT_MAXCODE, 47, [0#8, 9#8])]) with
      | .ok es => some es
      | .error _ => none) = some [⟨P.EMT_MAXCODE, 47, [0#8, 9#8]⟩] ∧
    P.EMT_MAXCODE ∈ anchorParams ∧ (paramDef P.EMT_MAXCODE).any (fun d => d.ix.has 47 && d.cls != .ro && d.len == 2) = true ∧
    s.pB P.ANC_SEAL = true := by decide +kernel

/-- R148 at an error in the second of two entries, and at two good ones. -/
theorem test_witness_ParamSetAllOrNone :
    (Instr.paramSet, SetRow.plain) ∈ setRows ∧
    rowOf (setBody [(P.MEM_MAP, 0, [3#8]), (P.MEM_MAP, 0, [4#8])]) = .plain ∧
    statusIn (standby.setAll 1 (setBody [(P.MEM_MAP, 0, [3#8]), (P.MEM_MAP, 0, [4#8])])) = some (.errRange, 1) ∧
    entriesIn (standby.setAll 1 (setBody [(P.MEM_MAP, 0, [3#8]), (P.CMP_CLONE, 0, [3#8])])) =
      some [⟨P.MEM_MAP, 0, [3#8]⟩, ⟨P.CMP_CLONE, 0, [3#8]⟩] := by decide +kernel

/-- The error leaves the first entry unwritten. -/
theorem test_param_none : bankGet (after (exec .paramSet
    (setting [(P.MEM_MAP, 0, [3#8]), (P.MEM_MAP, 0, [4#8])] standby))).par.active P.MEM_MAP 0 = .num 0 := by decide +kernel

theorem test_witness_ClearingWrites :
    (∃ u, SetAccepted (setting [(P.EMT_FLTCLR, 0, toBE 8 (2 ^ 47 + 1))] standby) u
      (msg typParamSet (setBody [(P.EMT_FLTCLR, 0, toBE 8 (2 ^ 47 + 1))])) .fltClear ⟨P.EMT_FLTCLR, 0, toBE 8 (2 ^ 47 + 1)⟩) ∧
    (∃ u, SetAccepted (setting [(P.TCH_RELEARN, 0, [8#8])] standby) u (msg typParamSet (setBody [(P.TCH_RELEARN, 0, [8#8])]))
      .relearn ⟨P.TCH_RELEARN, 0, [8#8]⟩) ∧
    (∃ u, SetAccepted (setting [(P.LMP_FLTCLR, 0, 1#8 :: zeros 30 ++ [128#8])] standby) u
      (msg typParamSet (setBody [(P.LMP_FLTCLR, 0, 1#8 :: zeros 30 ++ [128#8])])) .lampClear
      ⟨P.LMP_FLTCLR, 0, 1#8 :: zeros 30 ++ [128#8]⟩) ∧
    (∃ u, SetAccepted (setting [(P.LMP_LEVELS, 0, zeros 512)] standby) u (msg typParamSet (setBody [(P.LMP_LEVELS, 0, zeros 512)]))
      .levels ⟨P.LMP_LEVELS, 0, zeros 512⟩) ∧
    (∃ u, SetAccepted (setting [(P.CLK_LOCK_N, 18, [16#8, 0#8])] standby) u
      (msg typParamSet (setBody [(P.CLK_LOCK_N, 18, [16#8, 0#8])])) .lock ⟨P.CLK_LOCK_N, 18, [16#8, 0#8]⟩) :=
  ⟨accepted_of _ _ _ _ (by decide +kernel) rfl (by decide +kernel) (by decide +kernel),
    accepted_of _ _ _ _ (by decide +kernel) rfl (by decide +kernel) (by decide +kernel),
    accepted_of _ _ _ _ (by decide +kernel) rfl (by decide +kernel) (by decide +kernel),
    accepted_of _ _ _ _ (by decide +kernel) rfl (by decide +kernel) (by decide +kernel),
    accepted_of _ _ _ _ (by decide +kernel) rfl (by decide +kernel) (by decide +kernel)⟩

/-- A surface of 16 by 16 XRGB pixels and an ATC one of the same picture, and a change to the table. -/
def packed16 : Surf := ⟨1, .ready, true, .packed, false, false, false, 16, 16, 0x10, 1024, 0, none, 0, 0, false⟩
def atc16 : Surf := ⟨1, .filling, true, .atc, false, false, false, 16, 16, 0x10, 1024, 4096, some ⟨1, 9, 0, 1024⟩, 0, 0, false⟩
def withTbl (l : List (Nat × Surf)) (s : State) : State := { s with surf := { s.surf with tbl := l } }

def jobBytes (op src dst id count data : Nat) : Bytes :=
  [byteOf op, 0#8, 0#8, 0#8] ++ toLE 4 src ++ toLE 4 dst ++ toLE 4 id ++ toLE 4 0 ++ toLE 4 count ++ toLE 4 data ++ zeros 4

theorem test_witness_CodecJobsReport :
    (∃ u, SetAccepted (setting [(P.ATC_JOB, 0, jobBytes 0 0x1000001 0x1000002 9 1 64)]
        (withTbl [(1, packed16), (2, atc16)] standby)) u
      (msg typParamSet (setBody [(P.ATC_JOB, 0, jobBytes 0 0x1000001 0x1000002 9 1 64)])) (.job 0)
      ⟨P.ATC_JOB, 0, jobBytes 0 0x1000001 0x1000002 9 1 64⟩) ∧
    (∃ u, SetAccepted (setting [(P.ATC_JOB, 0, jobBytes 1 0x1000002 0x1000001 9 2 0)]
        (withTbl [(1, { packed16 with st := .filling, writer := some ⟨1, 9, 0, 1024⟩ }), (2, { atc16 with st := .ready, writer := none })]
          standby)) u
      (msg typParamSet (setBody [(P.ATC_JOB, 0, jobBytes 1 0x1000002 0x1000001 9 2 0)])) (.job 1)
      ⟨P.ATC_JOB, 0, jobBytes 1 0x1000002 0x1000001 9 2 0⟩) ∧
    (∃ u, SetAccepted (setting [(P.ATC_JOB, 0, jobBytes 2 0x1000002 0 0 2 0)]
        (withTbl [(2, { atc16 with st := .ready, writer := none })] standby)) u
      (msg typParamSet (setBody [(P.ATC_JOB, 0, jobBytes 2 0x1000002 0 0 2 0)])) (.job 2)
      ⟨P.ATC_JOB, 0, jobBytes 2 0x1000002 0 0 2 0⟩) :=
  ⟨accepted_of _ _ _ _ (by decide +kernel) rfl (by decide +kernel) (by decide +kernel),
    accepted_of _ _ _ _ (by decide +kernel) rfl (by decide +kernel) (by decide +kernel),
    accepted_of _ _ _ _ (by decide +kernel) rfl (by decide +kernel) (by decide +kernel)⟩

/-- PARAM_GET of one entry, staged and active, and of an index that does not exist. -/
def getBody (id ix f : Nat) : Bytes := toBE 2 1 ++ [0#8, 0#8] ++ toBE 2 id ++ toBE 2 ix ++ [byteOf f, 0#8, 0#8, 0#8]

theorem test_witness_ParamGetAnswers :
    (asked typParamGet (getBody P.CMP_CLONE 3 1) standby).chosen = some (msg typParamGet (getBody P.CMP_CLONE 3 1)) ∧
    (getBody P.CMP_CLONE 3 1).length = 12 ∧ be16 (getBody P.CMP_CLONE 3 1) 0 = 1 ∧
    (paramDef (be16 (getBody P.CMP_CLONE 3 1) 4)).any (fun d => d.ix.has (be16 (getBody P.CMP_CLONE 3 1) 6) && d.cls != .ro &&
      decide ((entryBytes d.id 3 (standby.readParam d 3 (bit (u8 (getBody P.CMP_CLONE 3 1) 8) 0))).length ≤ 8188)) = true ∧
    (paramDef P.TCK_COUNT).any (fun d => d.ix.has 0 && d.cls == .ro &&
      decide ((entryBytes d.id 0 (standby.readParam d 0 false)).length ≤ 8188)) = true ∧
    (paramDef P.CMP_CLONE).any (fun d => !(d.ix.has 4)) = true ∧ paramDef 0xFFFF = none := by decide +kernel

/-- The work plan of no head: the supervisor on one rope (01 R35, R36). -/
def planned (s : State) : State := withT P.SYS_WORKPLAN 0 ([0#8, 0#8, 1#8, 0xB0#8] ++ zeros 60) s

/-- STAGE_COMMIT at the earliest and the latest edge, STAGE_ABORT. -/
def pendingAt (n : Option Nat) (s : State) : State := { s with tick := { s.tick with commitAt := n, count := 100 } }

theorem test_witness_CommitAndAbort :
    ((asked typCommit (toBE 8 0) (pendingAt none (planned standby))).chosen = some (msg typCommit (toBE 8 0)) ∧
      (pendingAt none (planned standby)).commitState = false ∧ (pendingAt none (planned standby)).cas.role = .alone ∧
      (pendingAt none (planned standby)).commitRefusal (pendingAt none (planned standby)).par.staged = none) ∧
    (100 + 2 ≤ be64 (toBE 8 65636) 0 ∧ be64 (toBE 8 65636) 0 ≤ 100 + 65536 ∧ 100 + 65536 < be64 (toBE 8 65637) 0 ∧
      be64 (toBE 8 101) 0 ≠ 0 ∧ be64 (toBE 8 101) 0 < 100 + 2) ∧
    (pendingAt (some 102) (planned standby)).tick.commitAt ≠ none ∧
    ((asked typAbort [] (pendingAt (some 102) (planned standby))).chosen = some (msg typAbort []) ∧
      (pendingAt (some 102) (planned standby)).cas.mine = false ∧ 100 + 2 ≤ 102 ∧ 101 ≤ 100 + 1) ∧
    (asked typAbort [] (pendingAt none (planned standby))).tick.commitAt = none := by decide +kernel

theorem test_commit_target : (after (exec .stageCommit (asked typCommit (toBE 8 0) (pendingAt none (planned standby))))).tick.commitAt =
    some 102 := by decide +kernel

/-! ## Surfaces -/

/-- A SURFACE_DATAGRAM of four bytes at the end of the window of transfer 9 (04 Table 4-7); the tag is HMAC-SHA-256 under
32 bytes of 7, worked out outside the model. -/
def dgSurf : Bytes :=
  toBE 2 0x4153 ++ [3#8, 1#8] ++ toBE 4 0x1000002 ++ toBE 4 9 ++ toBE 4 1020 ++ toBE 2 4 ++ toBE 2 0 ++ toBE 4 1 ++
    [1#8, 2#8, 3#8, 4#8] ++ toBE 16 0x6394017da08f71a082c2f26e90ca61ba

theorem test_surface_tag : tagOf key0 (dgSurf.take 28) = dgSurf.drop 28 := by decide +kernel

/-- A planar, a packed, an ATC and a byte surface (05 R281 to R284). -/
def allocBody (kind flags w h f size : Nat) : Bytes :=
  [byteOf kind, byteOf flags] ++ toBE 2 w ++ toBE 2 h ++ [0#8, 0#8] ++ toBE 4 f ++ toBE 4 size

theorem test_witness_AllocForm :
    AllocForm (allocBody 0 0 16 16 0x80000 0) .planar ∧ AllocForm (allocBody 1 1 4096 4096 0x10 0) .packed ∧
    AllocForm (allocBody 2 0 16 16 0x10 268435456) .atc ∧ AllocForm (allocBody 3 0 0 0 0 4) .bytes := by
  unfold AllocForm
  repeat' apply And.intro
  all_goals decide +kernel

/-- Indexes 1 and 2047 as the lowest free one. -/
theorem test_witness_LowestFree :
    LowestFree standby 1 ∧ LowestFree (withTbl [(1, packed16), (3, packed16)] standby) 2 := by
  constructor
  · exact ⟨by decide, by decide, rfl, fun j h1 h2 => absurd h2 (by omega)⟩
  · refine ⟨by decide, by decide, rfl, fun j h1 h2 => ?_⟩
    obtain rfl : j = 1 := by omega
    decide +kernel

theorem test_witness_AllocTakesLowestIndex :
    (asked typAlloc (allocBody 3 0 0 0 0 4) standby).chosen = some (msg typAlloc (allocBody 3 0 0 0 0 4)) ∧
    standby.dev ≠ .hold ∧ (standby.place false (surfBytes .bytes 0 0 0 4)) = some 0 ∧
    (withTbl [(1, packed16), (2, { atc16 with off := 8192 })] standby).place false 4096 = some 4096 ∧
    standby.place false (2 ^ 40) = none ∧
    ((assocGet 1 (withTbl [] standby).surf.gens).getD 0 < 255 ∧ (assocGet 1 [(1, 255)]).getD 0 = 255) := by decide +kernel

theorem test_alloc_handle : (after (exec .surfaceAlloc (asked typAlloc (allocBody 3 0 0 0 0 4) standby))).surf.gens = [(1, 1)] := by
  decide +kernel

/-- A surface in each state, and transfers. -/
def h1 : Bytes := toBE 4 0x1000001
def inTbl (f : Surf → Surf) : State := withTbl [(1, f packed16)] standby

theorem test_witness_SurfacesChangeState :
    ((asked typFree h1 (inTbl id)).chosen = some (msg typFree h1) ∧ (inTbl id).surface (be32 h1 0) = some (1, packed16) ∧
      (inTbl id).inRing (be32 h1 0) = false) ∧
    ((inTbl fun x => { x with st := .inUse }).surface 0x1000001 = some (1, { packed16 with st := .inUse }) ∧
      (inTbl fun x => { x with st := .freePending }).surface 0x1000001 = some (1, { packed16 with st := .freePending })) ∧
    (asked typStatus h1 (inTbl id)).chosen = some (msg typStatus h1) ∧
    ((asked typWrite (h1 ++ zeros 4 ++ toBE 4 1020 ++ toBE 4 4) (inTbl id)).chosen =
        some (msg typWrite (h1 ++ zeros 4 ++ toBE 4 1020 ++ toBE 4 4)) ∧
      u8 (h1 ++ zeros 4 ++ toBE 4 1020 ++ toBE 4 4) 4 = 0 ∧ OpenFits (inTbl id) 1 packed16 1020 4) ∧
    (let s := inTbl fun x => { x with st := .filling, writer := some ⟨1, 9, 0, 1024⟩ };
      (asked typWrite (h1 ++ [2#8, 0#8, 0#8, 0#8] ++ toBE 4 9 ++ zeros 4) s).chosen =
        some (msg typWrite (h1 ++ [2#8, 0#8, 0#8, 0#8] ++ toBE 4 9 ++ zeros 4)) ∧
      s.surface 0x1000001 = some (1, { packed16 with st := .filling, writer := some ⟨1, 9, 0, 1024⟩ })) ∧
    ((inTbl id).surface (be32 (zeros 4) 0) = none ∧ (inTbl id).surface 0x2000001 = none ∧
      (Instr.surfaceStatus, typStatus, 4) ∈ [(Instr.surfaceFree, typFree, 4), (Instr.surfaceStatus, typStatus, 4)]) := by
  unfold OpenFits; decide +kernel

theorem test_witness_CloseChecksTheWindow :
    let s := inTbl fun x => { x with st := .filling, writer := some ⟨1, 9, 0, 4⟩ }
    let b := h1 ++ [1#8, 0#8, 0#8, 0#8] ++ toBE 4 9 ++ toBE 4 0x2144DF1C
    (asked typWrite b s).chosen = some (msg typWrite b) ∧ u8 b 4 = 1 ∧ be32 b 8 = 9 ∧
    (s.readMem false 0 4 .supervisor).2 = (zeros 4, 0) ∧ crc32 (zeros 4) = be32 b 12 ∧ crc32 [1#8] ≠ be32 b 12 := by
  decide +kernel

/-- A window of which a word is poisoned. -/
theorem test_witness_CloseUncorrectable :
    let s := inTbl fun x => { x with st := .filling, writer := some ⟨1, 9, 0, 4⟩ }
    (({ s with mem := { s.mem with poison := [0] } } : State).readMem false 0 4 .supervisor).2.2 ≠ 0 := by decide +kernel

/-- A datagram for an open transfer. -/
def filling : State := withTbl [(2, { atc16 with st := .filling })] standby

theorem surfaceAuthentic : SurfaceAuthentic filling dgSurf 1 :=
  ⟨by decide, by decide, by decide, by decide, by decide, by decide, by decide, by decide, by decide, by decide, by decide,
    ⟨key0, rfl, by
      have h : be16 dgSurf 16 = 4 := by decide
      rw [h]
      have h2 : dgSurf.drop (24 + 4) = dgSurf.drop 28 := rfl
      exact test_surface_tag⟩, rfl⟩

theorem test_witness_SurfaceDataLands :
    ((withBuf 4 (.surface 9 dgSurf) filling).takeFrame 0 isSurface).map (·.1) = some (.surface 9 dgSurf) ∧
    filling.routeOf dgSurf = none ∧ filling.surf.refused.contains (1, be32 dgSurf 8, be32 dgSurf 4) = false ∧
    filling.surface (be32 dgSurf 4) = some (2, { atc16 with st := .filling }) ∧
    be32 dgSurf 12 + be16 dgSurf 16 ≤ 1024 ∧ filling.inRing (be32 dgSurf 4) = false ∧
    (({ atc16 with st := .filling } : Surf).writer = some ⟨1, be32 dgSurf 8, 0, 1024⟩) ∧ be16 (zeros 40) 0 ≠ 0x4153 ∧
    (withTbl [] filling).surface (be32 dgSurf 4) = none ∧
    (withTbl [(2, { atc16 with st := .ready, writer := none })] filling).surface (be32 dgSurf 4) =
      some (2, { atc16 with st := .ready, writer := none }) ∧
    ({ filling with surf := { filling.surf with refused := [(1, 9, 0x1000002)] } } : State).surf.refused.contains
      (1, be32 dgSurf 8, be32 dgSurf 4) = true ∧
    (let c := { filling.cas with role := .master, routes := [⟨1, 9, 2, 0x1000002⟩] };
      ({ filling with cas := c } : State).routeOf dgSurf = some ⟨1, 9, 2, 0x1000002⟩) := by decide +kernel

theorem test_witness_SurfaceClearDone :
    let s := withTbl [(2047, { packed16 with clearing := true })] standby
    s.dev ≠ .boot ∧ assocGet 2047 s.surf.tbl = some { packed16 with clearing := true } := by decide +kernel

/-- FRAME_PLAN for head 3: at the next edge, at the latest edge, too late, and for a clone. -/
def planBody (h : Nat) (target : Nat) : Bytes := [byteOf h, 0#8, 0#8, 0#8] ++ zeros 4 ++ toBE 8 target ++ zeros 64

theorem test_witness_PlansAreTaken :
    ((asked typPlan (planBody 3 0) (pendingAt none standby)).chosen = some (msg typPlan (planBody 3 0)) ∧
      (planBody 3 0).length = 80 ∧ u8 (planBody 3 0) 0 = 3 ∧ bits (u8 (planBody 3 0) 1) 7 1 = 0 ∧ be16 (planBody 3 0) 2 = 0 ∧
      bit (u8 (planBody 3 0) 1) 0 = false ∧ be32 (planBody 3 0) 4 = 0 ∧
      be64 (planBody 3 65636) 8 ≤ (pendingAt none standby).tick.count + 65536) ∧
    4 ≤ bkN ((pendingAt none standby).bankAt 101) P.CMP_CLONE 3 ∧
    (∀ j ∈ List.range 16, (layerOf (bkT ((pendingAt none standby).bankAt 101) P.CMP_LAYER (16 * 3 + j))).enable = false) ∧
    (be64 (planBody 3 100) 8 ≠ 0 ∧ be64 (planBody 3 100) 8 ≤ (pendingAt none standby).tick.count) ∧
    (pendingAt none standby).tick.count < be64 (planBody 3 101) 8 ∧
    bkN ((withP P.CMP_CLONE 3 0 (pendingAt none standby)).bankAt 101) P.CMP_CLONE 3 < 4 := by decide +kernel

/-- STATE_REQUEST in every state. -/
def stating (n : Nat) (d : DevState) (s : State) : State := asked typState [byteOf n] { s with dev := d }

theorem test_witness_StateTransitions :
    ((stating 0 .standby standby).chosen = some (msg typState [0#8]) ∧ u8 [4#8] 0 = 4 ∧ 5 < u8 [6#8] 0) ∧
    ((stating 3 .hold standby).chosen = some (msg typState [3#8]) ∧ (stating 3 .standby standby).dev = .standby ∧
      (stating 2 .safe standby).dev = .safe ∧ DevState.lit.code = 3) ∧
    (standby.pB P.ANC_SEAL = false ∧
      ((withP P.ANC_SEAL 0 1 standby).pB P.ANC_SEAL = true ∧ standby.admits standby.par.active = false) ∧
      (planned standby).admits (planned standby).par.active = true ∧
      (planned standby).composeFits (planned standby).par.active = true) ∧
    (({ standby with anc := { standby.anc with pinA := true, pinB := true } } : State).anc.pinA = true) ∧
    ((stating 1 .safe standby).mayClear = true ∧ (stating 1 .safe { standby with anc := { standby.anc with pinA := true, discrepancy := true } }).mayClear =
      false) := by decide +kernel

theorem test_state_armed : (after (exec .stateRequestArmed (stating 2 .standby (withP P.ANC_SEAL 0 1 (planned standby))))).dev =
    .armed := by decide +kernel

/-! ## Traces, firmware, readings -/

/-- TRACE_ARM's body (12 Table 12-11): OP, TRIG, PRE, TRIGCH, LEVEL, eight channels; channel 0 records node 17 of slot 127. -/
def armBody (op trig pre : Nat) : Bytes :=
  [byteOf op, byteOf trig] ++ toBE 2 pre ++ zeros 8 ++ [127#8, 17#8] ++ toBE 2 4096 ++
    (List.replicate 7 [0xFF#8, 0#8, 0#8, 0#8]).flatten

def recorded : State :=
  { standby with bly := { standby.bly with trace := { standby.bly.trace with
      st := .done, pre := 2, ch := vmod standby.bly.trace.ch 7 (fun c => { c with pre := [2, 1], post := [4, 3] }) } } }

theorem test_witness_TracesCapture :
    ((Instr.traceForce, true) ∈ [(Instr.traceArm, false), (Instr.traceForce, true)] ∧
      (asked typTraceArm (armBody 2 0 16383) standby).chosen = some (msg typTraceArm (armBody 2 0 16383)) ∧
      (armBody 2 0 16383).length = 44 ∧ armOk (armBody 2 0 16383) = true ∧ armOk (armBody 1 4 0) = true ∧
      (standby.place true traceBytes).isSome = true) ∧
    u8 (armBody 0 0 0) 0 = 0 ∧
    ((asked typTraceRead ([7#8, 0#8] ++ toBE 2 1 ++ toBE 2 3) recorded).chosen =
        some (msg typTraceRead ([7#8, 0#8] ++ toBE 2 1 ++ toBE 2 3)) ∧
      recorded.bly.trace.samples 7 = (0, [1, 2, 3, 4]) ∧ 0 ≤ be16 ([7#8, 0#8] ++ toBE 2 1 ++ toBE 2 3) 2 ∧
      be16 ([7#8, 0#8] ++ toBE 2 1 ++ toBE 2 3) 2 + be16 ([7#8, 0#8] ++ toBE 2 1 ++ toBE 2 3) 4 ≤ 0 + 4) := by decide +kernel

/-- A firmware update of 16 bytes: begun, its one chunk, complete. -/
def updating (d : Nat) (s : State) : State :=
  { s with fw := { s.fw with fw := .opened, fwBankB := true, fwLen := 16, fwDone := d, banks := vset s.fw.banks 1 (zeros d) } }

theorem test_witness_FirmwareUpdates :
    ((asked typFwBegin (toBE 4 15728640 ++ zeros 4) standby).chosen = some (msg typFwBegin (toBE 4 15728640 ++ zeros 4)) ∧
      standby.fw.fw = .idle ∧ 16 ≤ be32 (toBE 4 15728640 ++ zeros 4) 0 ∧ be32 (toBE 4 15728640 ++ zeros 4) 0 ≤ 15728640 ∧
      be32 (toBE 4 16 ++ zeros 4) 0 % 4 = 0) ∧
    ((asked typFwData (toBE 4 12 ++ [1#8, 2#8, 3#8, 4#8]) (updating 12 standby)).chosen =
        some (msg typFwData (toBE 4 12 ++ [1#8, 2#8, 3#8, 4#8])) ∧
      be32 (toBE 4 12 ++ [1#8, 2#8, 3#8, 4#8]) 0 = (updating 12 standby).fw.fwDone ∧
      (updating 12 standby).fw.fwDone + 4 = (updating 12 standby).fw.fwLen ∧
      (updating 12 standby).fw.fwDone ≤ ((updating 12 standby).fw.banks[bankIx true]).length) ∧
    ((asked typFwCommit [] (updating 16 standby)).chosen = some (msg typFwCommit []) ∧
      (updating 16 standby).fw.fwDone = (updating 16 standby).fw.fwLen) := by decide +kernel

/-- A commissioning session. -/
def commissioning : State := hosted (fun x => { x with commission := true }) id

theorem test_witness_ReadingsPokesAndResets :
    ((asked typIslandRead (zeros 4) standby).chosen = some (msg typIslandRead (zeros 4)) ∧
      (asked typIslandRead [1#8, 0#8, 0#8, 0#8] standby).chosen = some (msg typIslandRead [1#8, 0#8, 0#8, 0#8]) ∧
      be16 [1#8, 0#8, 0#8, 31#8] 2 < (withIsl (fun x => { x with audit := List.replicate 32 (zeros 16) })).isl.audit.length ∧
      standby.isl.audit.length ≤ be16 [1#8, 0#8, 0#8, 0#8] 2) ∧
    ((asked typPeek (zeros 8 ++ toBE 2 1024) commissioning).chosen = some (msg typPeek (zeros 8 ++ toBE 2 1024)) ∧
      peekLenOk (be16 (zeros 8 ++ toBE 2 1024) 8) = true ∧ (commissioning.acm.sess[(1 : Fin 4)]).commission = true ∧
      (standby.acm.sess[(1 : Fin 4)]).commission = false) ∧
    ((asked typPoke (zeros 8 ++ toBE 2 4 ++ zeros 4) commissioning).chosen = some (msg typPoke (zeros 8 ++ toBE 2 4 ++ zeros 4)) ∧
      (zeros 8 ++ toBE 2 4 ++ zeros 4).length = 10 + be16 (zeros 8 ++ toBE 2 4 ++ zeros 4) 8 ∧ commissioning.dev = .standby) ∧
    ((asked typReset [1#8, 4#8, 0#8, 0#8] standby).chosen = some (msg typReset [1#8, 4#8, 0#8, 0#8]) ∧
      (standby.resetBlock 4).isSome = true ∧ (standby.resetBlock 255).isNone = true) := by decide +kernel

/-! ## Tick, solves and heads -/

def withTick (f : Tick → Tick) (s : State) : State := { s with tick := f s.tick }

theorem test_witness_TickEdgeCommits :
    (standby.tickRuns = true ∧ standby.tick.nextEdge ≤ max standby.now standby.tick.nextEdge ∧ standby.par.recomp = none ∧
      max standby.now 5 < standby.tick.nextEdge ∧ State.reset.tickRuns = false) ∧
    standby.cas.adopt = none ∧ (pendingAt none standby).tick.commitAt = none ∧
    ((pendingAt (some 102) standby).tick.commitAt = some 102 ∧ (pendingAt (some 102) standby).tick.count + 1 < 102 ∧
      (pendingAt (some 102) standby).cas.mine = false) ∧
    ((pendingAt (some 101) standby).tick.commitAt = some 101 ∧ 101 ≤ (pendingAt (some 101) standby).tick.count + 1 ∧
      ({ standby with cas := { standby.cas with go := true } } : State).cas.go = true ∧ standby.cas.go = false) ∧
    ({ standby with cas := { standby.cas with adopt := some 7 } } : State).cas.adopt = some 7 := by decide +kernel

/-- An edge with nothing pending counts one (02 R50). -/
theorem test_tick_counts : (after (exec (.tickEdge 16666667) standby)).tick.count = standby.tick.count + 1 := by decide +kernel

theorem test_witness_TickTasksEnd :
    (({ standby with par := { standby.par with recomp := some ⟨5, [3]⟩ } } : State).par.recomp = some ⟨5, [3]⟩ ∧
      [3].contains 3 = true ∧ [3].contains 19 = false) ∧
    (standby.sol.deadline = false ∧ standby.tick.edgeAt + standby.tick.period * 85 / 100 ≤ max standby.now 14166666 ∧
      max standby.now 14166665 < standby.tick.edgeAt + standby.tick.period * 85 / 100) ∧
    (standby.sol.done = false ∧ standby.solveBare = false) ∧
    (({ standby with em := vmod standby.em 47 (fun e => { e with windowOver := true }) } : State).em[(47 : Fin 48)]).windowOver =
      true := by decide +kernel

/-- An edge of TICK_IN predicted at 20 ms, one 83,333 ns late, and one 1 ns later than that. -/
theorem test_witness_TickInFollowed :
    let s := withTick (fun x => { x with tinPredicted := some 20000000, tinAccepted := some 3333333, tinPeriod := 16666667 })
      (withP P.TCK_SOURCE 0 2 standby)
    let near (now q : Nat) : Prop := (fromNearest now q s.tick.tinPeriod).natAbs * 200 ≤ tickNs s.par.active ∧
      2 * q < 2 * now + tickNs s.par.active
    (s.pN P.TCK_SOURCE = 2 ∧ s.tick.tinPredicted = some 20000000 ∧ s.tick.tinAccepted = some 3333333 ∧
      near (max s.now 20083333) 20000000 ∧ ¬ near (max s.now 20083334) 20000000) ∧
    (let u := withTick (fun x => { x with tinPredicted := none, tinRise := some 5 }) s;
      u.tick.tinPredicted = none ∧ u.tick.tinRise = some 5 ∧
      (((max u.now (16666672 + 83333) : Nat) : Int) - 5 - tickNs u.par.active).natAbs * 200 ≤ tickNs u.par.active ∧
      tickNs u.par.active < (((max u.now (16666672 + 83334) : Nat) : Int) - 5 - tickNs u.par.active).natAbs * 200) ∧
    (s.cas.role ≠ .slave ∧ (withP P.TCK_SOURCE 0 1 standby).pN P.TCK_SOURCE = 1 ∧ standby.ptp.state ≠ .slave) ∧
    (2 * 3333333 + 3 * tickNs s.par.active ≤ 2 * max s.now 28333334 ∧
      2 * max s.now 28333333 < 2 * 3333333 + 3 * tickNs s.par.active) := by
  decide +kernel

/-- A running plane head 0 of 16 by 16 elements over a canvas of 16 by 16, its composition begun. -/
def withHead (h : HeadIx) (f : Head → Head) (s : State) : State := { s with head := vmod s.head h f }
def planeHead : State :=
  let s := withP P.HDT_TYPE 0 typePlane (withP P.PLN_COLS 0 16 (withP P.PLN_ROWS 0 16 (withP P.CMP_CANVAS_H 0 16
    (withP P.CMP_CANVAS_W 0 16 { standby with dev := .lit }))))
  let s := withHead 0 (fun x => { x with on := true, frames := 1 }) s
  { s with comp := vmod s.comp 0 (fun c => { c with busy := true }) }

theorem test_witness_HeadFramesAreComposed :
    ((planeHead.head[(0 : Fin 4)]).on = true ∧ (withHead 0 (fun x => { x with frames := 0 }) planeHead).head[(0 : Fin 4)].frames = 0 ∧
      multOf (withP P.TCK_HEAD_MULT 0 1 planeHead).par.active 0 = 2 ∧
      (planeHead.head[(0 : Fin 4)]).t0 < planeHead.tick.edgeAt + planeHead.tick.period / 2) ∧
    (planeHead.running 0 = true ∧ (planeHead.comp[(0 : Fin 4)]).busy = true) ∧
    (let s := { planeHead with comp := vmod planeHead.comp 0 (fun c => { c with canvas := List.replicate 16 [] }) };
      s.canvasH 0 ≤ (s.comp[(0 : Fin 4)]).canvas.length ∧ s.canvasH 0 = 16) ∧
    (let s := withT P.HDT_REGION 15 ([1#8, 0#8] ++ zeros 6 ++ toLE 2 16 ++ toLE 2 16 ++ toLE 2 3 ++ zeros 6) planeHead;
      (s.regionAt 0 15).mode = modeLive ∧ (s.regionAt 0 14).mode = 0 ∧
      (s.regionAt (Fin.ofNat 4 (15 / 16)) (15 % 16)).mode = modeLive ∧
      ((s.head[(0 : Fin 4)]).regions[(15 : Fin 16)]).count < (s.regionAt 0 15).n ∧
      (let t := withHead 0 (fun x => { x with regions := vmod x.regions 15 (fun g => { g with count := 3 }) }) s;
        (t.regionAt 0 15).n ≤ ((t.head[(0 : Fin 4)]).regions[(15 : Fin 16)]).count)) := by decide +kernel

/-! ## Plane heads -/

def withScn (h : HeadIx) (f : Scn → Scn) (s : State) : State := { s with scn := vmod s.scn h f }
def withPln (h : HeadIx) (f : Pln → Pln) (s : State) : State := { s with pln := vmod s.pln h f }

/-- A schedule of two slots, of field 0 and DARK, each with a DUR of 1,600 (09 Table 9-3). -/
def twoSlots : Bytes := toLE 2 2 ++ zeros 2 ++ zeros 4 ++ toLE 4 1600 ++ [1#8, 0#8, 0#8, 0#8] ++ toLE 4 1600 ++ zeros 1008
def use0 : Solve := ⟨0, 0, false, false, false, false, false, false, [], 0, 0, 0, 0, 0, []⟩

/-- A head frame of those two slots, presented lit, at the start of its tick. -/
def frame2 : PlaneFrame := { sched := twoSlots, use := some use0, first := true, blank := false, frame := 1, t0 := 0 }

/-- A plane head that waits for a SYNC_IN edge; one that loads a slot. -/
def syncWaiting : State := withPln 0 (fun p => { p with waiting := true }) (withP P.PLN_RDY_MODE 0 1 planeHead)
def loadingSlot (q : Nat) (f : Pln → Pln) : State := withPln 0 (fun p => f { p with loadSlot := some q, loading := frame2 }) planeHead

theorem test_witness_PlaneFramesLoad :
    ((planeHead.head[(0 : Fin 4)]).on = true ∧ planeHead.isPlane 0 = true ∧ (planeHead.pln[(0 : Fin 4)]).begun = false ∧
      (planeHead.pln[(0 : Fin 4)]).waiting = false ∧ (planeHead.head[(0 : Fin 4)]).rdyWait = false ∧
      (planeHead.head[(0 : Fin 4)]).frames ≠ 0 ∧ planeHead.syncMode 0 = false) ∧
    ((withP P.PLN_RDY_MODE 0 1 planeHead).syncMode 0 = true ∧ (planeHead.head[(0 : Fin 4)]).syncEdge = false ∧
      ((withHead 0 (fun x => { x with syncEdge := true }) (withP P.PLN_RDY_MODE 0 1 planeHead)).head[(0 : Fin 4)]).syncEdge = true) ∧
    (syncWaiting.isPlane 0 = true ∧ syncWaiting.syncMode 0 = true ∧ (syncWaiting.head[(0 : Fin 4)]).on = true ∧
      (syncWaiting.pln[(0 : Fin 4)]).waiting = true ∧ 1000 * (420001 - 420000) ≤ syncSlackPs syncWaiting.par.active 0 ∧
      (syncWaiting.head[(0 : Fin 4)]).syncRun ≠ 15 ∧
      ((withHead 0 (fun x => { x with syncRun := 15 }) syncWaiting).head[(0 : Fin 4)]).syncRun = 15) := by decide +kernel

theorem test_witness_PlaneBlocks :
    let s := loadingSlot 0 (fun p => { p with loadBlk := 3 })
    let d := loadingSlot 1 id
    (s.pln[(0 : Fin 4)]).loadSlot = some 0 ∧ (s.pln[(0 : Fin 4)]).loadBlk = 3 ∧ 3 < s.pN P.PLN_BLOCKS 0 ∧
    (((slotsOf (s.pln[(0 : Fin 4)]).loading.sched).getD 0 ⟨true, 0, 0, 0⟩).dark = false) ∧
    (d.pln[(0 : Fin 4)]).loadSlot = some 1 ∧ (d.pln[(0 : Fin 4)]).loadBlk = 0 ∧
    (((slotsOf (d.pln[(0 : Fin 4)]).loading.sched).getD 1 ⟨true, 0, 0, 0⟩).dark = true) := by decide +kernel

theorem test_witness_SlotBoundary :
    let s := loadingSlot 0 (fun p => { p with loadBlk := 32, strobes := [4, 5] })
    let l := loadingSlot 1 (fun p => { p with loadBlk := 32, losing := true, shown := frame2, slot := some 0 })
    ((s.pln[(0 : Fin 4)]).loadSlot = some 0 ∧ s.running 0 = true ∧ s.pN P.PLN_BLOCKS 0 ≤ (s.pln[(0 : Fin 4)]).loadBlk ∧
      5 ∈ (s.pln[(0 : Fin 4)]).strobes ∧ 0 + 1 ≠ (slotsOf (s.pln[(0 : Fin 4)]).loading.sched).length) ∧
    ((l.pln[(0 : Fin 4)]).loadSlot = some 1 ∧ l.running 0 = true ∧ l.pN P.PLN_BLOCKS 0 ≤ (l.pln[(0 : Fin 4)]).loadBlk ∧
      1 + 1 = (slotsOf (l.pln[(0 : Fin 4)]).loading.sched).length ∧ (l.pln[(0 : Fin 4)]).losing = true) := by decide +kernel

/-- Channel 5 bound to head 0 in role 2, and the conditions of its emission. -/
def emitting (s : State) : State :=
  { withHead 0 (fun x => { x with wait := false, showAt := 0 }) (withP P.EMT_BIND 5 0x82 s) with
    dev := .lit
    anc := { s.anc with pinA := true, pinB := true, motion := Vector.replicate 4 true }
    clk := { s.clk with pll := s.clk.pll.map (fun k => { k with st := .locked }) } }

/-- A channel permitted throughout its tick so far with a probe due. -/
def probeDue (s : State) : State :=
  { emitting s with em := vmod s.em 5 (fun e => { e with probeDue := true, steady := true, en := some 0 }) }

/-- A solve that gives channel 5 a peak, and a head frame that uses it. -/
def lampUse : Solve := { use0 with dt := 2 ^ 31, chans := [⟨5, 2, false, 32768, 32768, 0, Est.reset⟩] }

theorem test_witness_SlotEmission :
    let s := withPln 0 (fun p => { p with slot := some 0, shown := { frame2 with blank := true }, emitted := true }) planeHead
    let l := withPln 0 (fun p => { p with slot := some 0, shown := { frame2 with use := some lampUse } })
      (probeDue (withT P.PLN_FIELDS 0 ([2#8, 1#8] ++ zeros 30) planeHead))
    ((s.pln[(0 : Fin 4)]).slot = some 0 ∧ (s.pln[(0 : Fin 4)]).shown.use = some use0 ∧ s.running 0 = true ∧
      (s.pln[(0 : Fin 4)]).emitted = true ∧ (s.pln[(0 : Fin 4)]).shown.blank = true) ∧
    ((l.pln[(0 : Fin 4)]).slot = some 0 ∧ l.running 0 = true ∧ (l.pln[(0 : Fin 4)]).emitted = false ∧
      (l.pln[(0 : Fin 4)]).shown.blank = false ∧ (l.pln[(0 : Fin 4)]).dark = false ∧
      fieldOf l.par.active 0 ((slotsOf (l.pln[(0 : Fin 4)]).shown.sched).getD 0 ⟨true, 0, 0, 0⟩).field = some (2, 1) ∧
      (5 : Fin 48) ∈ chansOf l.par.active 0 2 ∧ (6 : Fin 48) ∉ chansOf l.par.active 0 2 ∧ (lampUse.chan 5).isSome = true ∧
      (l.em[(5 : Fin 48)]).en = some 0 ∧
      ((usesOf l.par.active 0 (l.pln[(0 : Fin 4)]).shown.sched lampUse.dt)[0]?.elim false
        (fun u => decide (0 < u.emit) && !u.slot.dark)) = true ∧
      ((usesOf l.par.active 0 (l.pln[(0 : Fin 4)]).shown.sched lampUse.dt)[1]?.elim false (fun u => u.slot.dark)) = true) := by decide +kernel

theorem test_witness_StripesAreRendered :
    let s := { withPln 0 (fun p => { p with bufs := vmod p.bufs 1 (fun b => { b with frame := 1 }) }) planeHead with
      comp := vmod planeHead.comp 0 (fun c => { c with canvas := List.replicate 16 [] }) }
    s.running 0 = true ∧ s.isPlane 0 = true ∧ 0 < stripesOf s.par.active 0 ∧ stripesOf s.par.active 0 = 1 ∧
    ((s.pln[(0 : Fin 4)]).bufs[(Fin.ofNat 3 (s.head[(0 : Fin 4)]).frames : Fin 3)]).done.contains 0 = false ∧
    ((s.pln[(0 : Fin 4)]).bufs[(Fin.ofNat 3 (s.head[(0 : Fin 4)]).frames : Fin 3)]).frame = (s.head[(0 : Fin 4)]).frames ∧
    s.stripeNeeds 0 0 ≤ (s.comp[(0 : Fin 4)]).canvas.length ∧ s.entryBare 0 0 = false ∧
    s.flt.failed[(31 : Fin 34)] = false ∧ s.flt.removed[(31 : Fin 34)] = false := by decide +kernel

theorem test_witness_ReadySignals :
    (planeHead.syncMode 0 = false ∧ (withP P.PLN_RDY_MODE 0 1 planeHead).syncMode 0 = true) ∧
    (let s := withHead 0 (fun x => { x with rdyWait := true, starting := true }) planeHead;
      (s.head[(0 : Fin 4)]).on = true ∧ s.isPlane 0 = true ∧ (s.head[(0 : Fin 4)]).starting = true ∧
      (s.head[(0 : Fin 4)]).late = false) ∧
    (planeHead.head[(0 : Fin 4)]).rdyWait = false ∧
    (planeHead.running 0 = true ∧ (planeHead.head[(0 : Fin 4)]).second = false) ∧
    ((5 : Fin 48) ∈ boundTo (emitting planeHead).par.active 0 ∧ (6 : Fin 48) ∉ boundTo (emitting planeHead).par.active 0 ∧
      (5 : Fin 48) ∉ chansOf (emitting planeHead).par.active 0 roleTouch) := by decide +kernel

/-- A probe in the DARK slot, and at the turning point of a scan head. -/
theorem test_witness_ProbeEmit :
    ((emitting planeHead).boundHead 5 = some (0, 2) ∧ ((emitting planeHead).em[(5 : Fin 48)]).probeDue = false) ∧
    (let s := probeDue (withPln 0 (fun p => { p with slot := some 1, shown := frame2, sigmaPs := 20000000 }) planeHead);
      (s.em[(5 : Fin 48)]).probeDue = true ∧ (s.em[(5 : Fin 48)]).steady = true ∧ s.permitted 5 = true ∧ s.blankNow 0 = false ∧
      s.isPlane 0 = true ∧ (s.pln[(0 : Fin 4)]).shown.first = true ∧ (s.pln[(0 : Fin 4)]).slot.isSome = true ∧
      (s.pln[(0 : Fin 4)]).slot = probeSlot (slotsOf (s.pln[(0 : Fin 4)]).shown.sched) ∧ (s.em[(5 : Fin 48)]).en = some 0 ∧
      tooEarly 0 (1000 * (s.pln[(0 : Fin 4)]).shown.t0 + (s.pln[(0 : Fin 4)]).sigmaPs)
        (100 * tX s.par.active 0 + 20000) = false) ∧
    (let s := withScn 0 (fun x => { x with turn := 1 })
        (probeDue (withP P.HDT_TYPE 0 typeScan (withT P.SCN_PROBE 0 (1#8 :: zeros 7) planeHead)));
      (s.em[(5 : Fin 48)]).probeDue = true ∧ s.permitted 5 = true ∧ s.blankNow 0 = false ∧ s.isPlane 0 = false ∧
      (s.scn[(0 : Fin 4)]).turn = s.probeSide 0 ∧ (s.scn[(0 : Fin 4)]).turn ≠ 0 ∧ (s.head[(0 : Fin 4)]).second = false) := by
  decide +kernel
/-! ## Scan heads, loops, sensing, interlocks -/

/-- A running scan head 0 whose fast axis is LOCKED. -/
def scanHead : State := withScn 0 (fun x => { x with st := .locked }) (withP P.HDT_TYPE 0 typeScan planeHead)

theorem test_witness_ScanLines :
    (scanHead.isScan 0 = true ∧ scanHead.running 0 = true ∧ (scanHead.scn[(0 : Fin 4)]).st = .locked ∧
      (scanHead.head[(0 : Fin 4)]).frames ≠ 0 ∧ (scanHead.scn[(0 : Fin 4)]).begun < scanHead.pN P.SCN_LINES_ACT 0 ∧
      ((scanHead.scn[(0 : Fin 4)]).begun ≠ 0 ∨ 490000 ≤ 490000) ∧ ((scanHead.scn[(0 : Fin 4)]).begun = 0 ∧ 489999 < 490000)) ∧
    (let s := withScn 0 (fun x => { x with active := some 3, forward := true }) scanHead;
      (s.scn[(0 : Fin 4)]).active = some 3 ∧ (s.scn[(0 : Fin 4)]).emitted < s.pN P.SCN_SAMPLES 0 ∧
      0 = (if (s.scn[(0 : Fin 4)]).forward then (s.scn[(0 : Fin 4)]).emitted
        else s.pN P.SCN_SAMPLES 0 - 1 - (s.scn[(0 : Fin 4)]).emitted) ∧ (s.scn[(0 : Fin 4)]).chips ≤ 0) ∧
    (let s := withScn 0 (fun x => { x with active := some 3, chips := 1, emitted := scanHead.pN P.SCN_SAMPLES 0 }) scanHead;
      (s.scn[(0 : Fin 4)]).emitted = s.pN P.SCN_SAMPLES 0 ∧ 0 < (s.scn[(0 : Fin 4)]).chips) := by decide +kernel

/-- A fast axis that has met a window for n periods of 2^31 times 192,000,000 units each. -/
def watched (st : FastState) (f : AxisWatch → AxisWatch) : State :=
  withScn 0 (fun x => { x with st := st, watch := f AxisWatch.reset }) scanHead

theorem test_witness_AxesAndLoopsRun :
    (((watched .locking (fun w => { w with window := some (256 * turnUnits) })).scn[(0 : Fin 4)]).st = .locking ∧
      lasted (some (256 * turnUnits)) 256 = true ∧ lasted (some (256 * turnUnits - 1)) 256 = false) ∧
    ((watched .locked (fun w => { w with amplitude := some (64 * turnUnits) })).isScan 0 = true ∧
      (watched .locked (fun w => { w with amplitude := some (64 * turnUnits) })).failHolds 0 .amplitude = true ∧
      scanHead.failHolds 0 .amplitude = false ∧
      (withScn 0 (fun x => { x with st := .sweep, reached := false })
        { scanHead with now := scanHead.now + 10000000000 }).failHolds 0 .timeout = true) ∧
    (let s := withScn 0 (fun x => { x with st := .failed, since := 0 }) { scanHead with now := 10000000 };
      (s.scn[(0 : Fin 4)]).st = .failed ∧ (s.scn[(0 : Fin 4)]).since + 10000000 ≤ s.latest) ∧
    scanHead.dev ≠ .boot ∧ (scanHead.blyDesc 127).law = lawOff ∧
    (let s := withT P.BLY_SLOT 127 ([1#8] ++ toLE 1 0 ++ zeros 2 ++ zeros 28) scanHead;
      (s.blyDesc 127).law ≠ lawOff) := by decide +kernel

/-- A MIRROR slot 3 that is due at base period 0 and has run, and the only one of its law. -/
theorem test_witness_MirrorDelivers :
    let s := withT P.BLY_SLOT 3 ([5#8, 0#8, 0#8, 0#8] ++ zeros 28)
      { scanHead with bly := { scanHead.bly with base := 0, slot := vmod scanHead.bly.slot 3 (fun x => { x with on := true }) } }
    (s.blyDesc 3).law = lawMirror ∧ s.blyDue 3 = true ∧ (s.bly.slot[(3 : Fin 128)]).on = true ∧ (s.blyDesc 4).law ≠ lawMirror ∧
    (Fin.ofNat 4 (s.blyDesc 3).outIdx : HeadIx) = 0 := by decide +kernel

/-- A PD_P front end above 60,000 at a middle and at the top range, and one quiet for 64 samples. -/
theorem test_witness_SensingJudgesChannels :
    ((standby.locked pllSns = false) ∧ (emitting (withP P.EMT_MAXCODE 5 1 standby)).locked pllSns = true ∧
      (emitting (withP P.EMT_MAXCODE 5 1 standby)).watched 5 = true ∧ standby.watched 5 = false) ∧
    (let f : SenseEnd := ⟨2, 0, true, false, 0⟩; f.overR = true ∧ f.range < 3) ∧
    (let f : SenseEnd := ⟨1, 64, false, false, 0⟩; f.overR = false ∧ f.low = 64 ∧ 0 < f.range) ∧
    (let f : SenseEnd := ⟨3, 0, true, false, 0⟩; f.overR = true ∧ 3 ≤ f.range) ∧
    (let s := withP P.EMT_FLT_MODE 5 1 (emitting standby);
      (s.boundHead 5).isSome = true ∧ s.pN P.EMT_FLT_MODE 5 ≠ 0 ∧ (s.em[(5 : Fin 48)]).driverF = false ∧ s.dev ≠ .boot) := by
  decide +kernel

/-- A sample above the limit latches POWER, blanks and enters SAFE with cause 4 (11 R578, 17 Table 17-5). -/
theorem test_anchor_power :
    let s := { emitting (withP P.EMT_MAXCODE 5 1 (withP P.EMT_MAXPWR 5 1 planeHead)) with
      em := vmod planeHead.em 5 (fun e => { e with mean := [1000, 1000] }) }
    let t := after (exec (.senseSample 5 1#16 0#16 ⟨0, 0, 0, 0, 0, false⟩) s)
    t.anc.power = true ∧ t.dev = .safe ∧ t.flt.safeCause = 4 ∧ (t.em[(5 : Fin 48)]).en = none := by decide +kernel


/-! ## Whole-machine invariants, interlocks, clocks, power -/

/-- A channel that emits in LIT. -/
theorem test_witness_EmissionGateKept :
    EmissionGated State.reset ∧ EmissionGated (emitting standby) ∧ gateOpen (emitting standby) = true ∧
    MemoryCanonical State.reset := by
  refine ⟨by unfold EmissionGated; decide +kernel, by unfold EmissionGated; decide +kernel, by decide +kernel,
    by unfold MemoryCanonical; decide +kernel⟩

theorem test_witness_InterlocksBlank :
    (let s := { planeHead with anc := { planeHead.anc with pinA := false, pinB := true } };
      s.dev = .lit ∧ (if EnPin.a = .a then s.anc.pinA else s.anc.pinB) = false ∧
      (if EnPin.b = .a then s.anc.pinA else s.anc.pinB) = true) ∧
    (let s := { standby with anc := { standby.anc with pinA := true, differAt := some 7 } };
      s.anc.differAt = some 7 ∧ s.dev ≠ .boot ∧ 7 + 2000000 < max s.now 2000008 ∧ s.anc.discrepancy = false ∧
      max s.now 2000007 ≤ 7 + 2000000) ∧
    (scanHead.isScan 0 = true ∧ scanHead.running 0 = true) := by decide +kernel

def modPll (k : PllIx) (f : Pll → Pll) (s : State) : State := { s with clk := { s.clk with pll := vmod s.clk.pll k f } }

/-- PLL 3 in each of its states, at the counts the configuration names. -/
theorem test_witness_PllsLockAndFail :
    ((standby.clk.pll[(3 : Fin 20)]).st ≠ .off ∧ (3 : Fin 20) ≠ pllIsl ∧
      (100 : Int).natAbs ≤ (withP P.CLK_LOCK_WIN 3 100 standby).pN P.CLK_LOCK_WIN 3 ∧
      (withP P.CLK_LOCK_WIN 3 100 standby).pN P.CLK_LOCK_WIN 3 < (-101 : Int).natAbs) ∧
    (let s := modPll 3 (fun x => { x with st := .locked, outRun := standby.pN P.CLK_LOCK_M 3 }) standby;
      (s.clk.pll[(3 : Fin 20)]).st = .locked ∧ s.pN P.CLK_LOCK_M 3 ≤ (s.clk.pll[(3 : Fin 20)]).outRun ∧
      ((modPll 3 (fun x => { x with outRun := 0 }) s).clk.pll[(3 : Fin 20)]).outRun < s.pN P.CLK_LOCK_M 3 ∧
      s.clk.refMissing = false ∧ pllOnSys 3 = true) ∧
    (let s := withIsl id; s.isl.run ≠ .off ∧ (s.clk.pll[pllIsl]).st ≠ .unlocked ∧ (s.clk.pll[pllIsl]).st ≠ .failed ∧
      (s.clk.pll[pllIsl]).st ≠ .off ∧ (s.clk.pll[pllIsl]).st ≠ .locked) ∧
    (let s := modPll 3 (fun x => { x with inRun := standby.pN P.CLK_LOCK_N 3 }) standby;
      (s.clk.pll[(3 : Fin 20)]).st ≠ .off ∧ (s.clk.pll[(3 : Fin 20)]).st ≠ .locked ∧
      s.pN P.CLK_LOCK_N 3 ≤ (s.clk.pll[(3 : Fin 20)]).inRun ∧
      (standby.clk.pll[(3 : Fin 20)]).inRun < standby.pN P.CLK_LOCK_N 3) ∧
    (let s := modPll 0 (fun x => { x with st := .unlocked, lostAt := 9 }) standby;
      (s.clk.pll[(0 : Fin 20)]).st = .unlocked ∧ (s.clk.pll[(0 : Fin 20)]).lostAt + 10000000 ≤ max s.now 10000009 ∧
      max s.now 10000008 < (s.clk.pll[(0 : Fin 20)]).lostAt + 10000000 ∧ pllDevice 0 = true ∧ s.dev = .standby) ∧
    (standby.clk.refMissing = false ∧
      ({ standby with clk := { standby.clk with refMissing := true } } : State).clk.refMissing = true) ∧
    (pllMc 10 = some 0 ∧ pllTrav 17 = some 1 ∧ pllHead 6 = some 3) := by decide +kernel

/-- HOLD entered from LIT by a level of 704, with a change of the power state. -/
def heldLow (f : Pwr → Pwr) : State :=
  let s := after (exec (.supplyWarning 5 .core 704) planeHead)
  { s with pwr := f s.pwr }

/-- A WARM reset that is due, and a boot that goes on. -/
def resetDue : State := after (exec (.watchdogExpiry 5) standby)
def booting : State := { State.reset with pwr := { State.reset.pwr with phase := .booting, bootAt := 0, due := none } }

theorem test_witness_HoldAndResetCauses :
    (warnLevel .core ≤ 705 ∧ 704 < warnLevel .core ∧ standby.dev ≠ .boot ∧ standby.dev ≠ .hold ∧ State.reset.dev = .boot) ∧
    ((heldLow id).dev = .hold ∧ (heldLow id).pwr.holdSafe = 0 ∧ (heldLow id).pwr.holdFrom = .lit ∧
      (heldLow id).pwr.holdDrop = false ∧ ((heldLow id).head[(0 : Fin 4)]).on = true ∧
      (heldLow fun x => { x with holdDrop := true }).pwr.holdDrop = true ∧
      (heldLow fun x => { x with holdSafe := 4 }).pwr.holdSafe ≠ 0) ∧
    (standby.pwr.due = none ∧ resetDue.pwr.due.isSome = true ∧ resetDue.pwr.dueAt ≤ max resetDue.now 5 ∧
      resetDue.dev ≠ .boot) ∧
    (booting.dev = .boot ∧ booting.pwr.phase = .booting ∧ booting.pwr.bootAt + 5000000000 ≤ max booting.now 5000000000 ∧
      booting.pwr.due = none ∧ max booting.now 4999999999 < booting.pwr.bootAt + 5000000000) ∧
    (let s := { booting with pwr := { booting.pwr with due := some .resetN, dueAt := 7 } };
      s.pwr.due.isSome = true ∧ s.pwr.dueAt ≤ max s.now 5000000000 ∧ s.dev = .boot ∧ s.pwr.phase = .booting) := by decide +kernel

theorem test_witness_ResetsKeepAndClear :
    (State.reset.fw.topEpoch = some (0, 1) ∧ (1 : Nat) ≠ 0xFFFFFFFF) ∧
    (let s := { State.reset with fw := { State.reset.fw with epochs := Vector.replicate 2 [] } }; s.fw.topEpoch = none) ∧
    (standby.pwr.due = none ∧ resetDue.pwr.due = some .watchdog ∧ resetDue.pwr.dueAt ≤ max resetDue.now 5) := by decide +kernel

/-- The state after reset boots no bank: no copy of the record qualifies in empty flash. -/
theorem test_witness_BootAndService :
    (State.reset.dev = .boot ∧ State.reset.pwr.phase = .inReset ∧ State.reset.pwr.aonUp = true ∧ State.reset.pwr.due = none ∧
      State.reset.pwr.cause = .powerOn ∧ State.reset.fw.bootCopy State.reset.pwr.otherBank State.reset.pwr.bankB = none) ∧
    (let s := { State.reset with pwr := { State.reset.pwr with phase := .booting } };
      s.dev = .boot ∧ s.pwr.phase = .booting ∧ s.pwr.due = none ∧ s.storeOk = true ∧
      s.acm.intent = none ∧ (∀ m ∈ s.acm.accepted, m.old = false) ∧ s.flt.spare[(32 : Fin 34)] = true ∧
      ({ s with par := { s.par with accA := s.par.accA.set 0 (s.par.accA[0] + 1) } } : State).storeOk = false) ∧
    (standby.dev ≠ .boot ∧ standby.pwr.phase ≠ .inReset ∧
      ({ State.reset with pwr := { State.reset.pwr with cause := .brownout, coreLow := true } } : State).pwr.coreLow = true) ∧
    (let s := after (exec (.resetNRelease 9 true true) State.reset);
      s.pwr.phase = .service ∧ s.fw.bootCopy false false = none) ∧
    (State.reset.pwr.phase ≠ .service ∧ State.reset.pwr.phase ≠ .noBank ∧ State.reset.pwr.resetPin = true ∧
      ({ standby with pwr := { standby.pwr with resetPin := false } } : State).pwr.resetPin = false) := by decide +kernel

theorem test_witness_RopesAreSpared :
    (standby.dev ≠ .boot ∧ standby.flt.failed[(5 : Fin 34)] = false ∧ standby.flt.removed[(5 : Fin 34)] = false ∧
      standby.flt.spare[(5 : Fin 34)] = false ∧ standby.flt.spare[(32 : Fin 34)] = true) ∧
    (let s := after (exec (.ropeFailure 5 .stall) standby);
      (∃ f, s.flt.waiting = [f] ∧ f.rope = 5) ∧ s.flt.spare[(32 : Fin 34)] = true ∧
      (∀ r : RopeIx, r.1 < 32 → s.flt.spare[r] = false)) ∧
    (let s := { after (exec (.ropeFailure 5 .stall) standby) with
        flt := { (after (exec (.ropeFailure 5 .stall) standby)).flt with
          spare := Vector.replicate 34 false, share := vset standby.flt.share 5 (some (2, 3)) } };
      s.flt.waiting ≠ [] ∧ (∀ r : RopeIx, s.flt.spare[r] = false) ∧ s.flt.share[(5 : Fin 34)] = some (2, 3)) := by
  refine ⟨by decide +kernel, ⟨⟨⟨5, .stall⟩, by decide +kernel⟩, by decide +kernel, by decide +kernel⟩, by decide +kernel⟩

/-- A die at 125 and below, and a diode out of its range and within it. -/
theorem test_witness_ThermalLevelsFollow :
    (fitsS16 12500 = true ∧ fitsS16 12499 = true ∧ fitsS16 32768 = false ∧ standby.dev = .standby) ∧
    (let s := withP P.THM_MODE 15 1 standby;
      s.readingFits (.remote 15) (.diode 650000000 650000001) = true ∧ s.readingFits (.remote 15) (.ntc 5) = false ∧
      s.remoteBad 15 (.diode 600000000 199999999) 2500 = true ∧ s.remoteBad 15 (.diode 600000000 650000000) 2500 = false) ∧
    (let s := { withPll 1 .locked standby with clk := { (withPll 1 .locked standby).clk with level := 1 } };
      s.wantLevel < s.levelSet ∧ s.thm.levelAt = none ∧ standby.levelSet ≤ standby.wantLevel ∧
      (let t := { s with thm := { s.thm with levelAt := some 4 } }; t.thm.levelAt = some 4 ∧ max t.now 100000003 < 4 + 100000000 ∧
        4 + 100000000 ≤ max t.now 100000004)) := by decide +kernel

/-! ## Memories -/

/-- A read, a write and a pool read, each the front request of channel 0. -/
def readReq : MemReq := ⟨0, false, [], 64, .codec, .none, .none⟩
def writeReq : MemReq := ⟨60, false, zeros 4, 0, .codec, .none, .none⟩
def withCh (f : Chan → Chan) (s : State) : State := { s with mem := { s.mem with ch := vmod s.mem.ch 0 f } }
def queued (r : MemReq) : State := after (exec (.memoryRequest (.lpddr 0 (some r) none)) standby)
def pooled : State := withCh (fun c => { c with queue := [⟨{ readReq with pool := true }, 0, false⟩] }) standby
def qdrOn : State := withP P.MEM_QDR_SIZE 1 1 standby

theorem test_witness_MemoryChannelsServe :
    (standby.reqFits 0 readReq = true ∧ standby.reqFits 0 writeReq = true ∧ (standby.mem.ch[(0 : Fin 8)]).queue.length < 64 ∧
      (let s := withCh (fun c => { c with queue := List.replicate 64 ⟨readReq, 0, false⟩ }) standby;
        64 ≤ (s.mem.ch[(0 : Fin 8)]).queue.length)) ∧
    (let s := queued writeReq; s.mayServe 0 0 = true ∧ (s.mem.ch[(0 : Fin 8)]).queue[0]? = some ⟨writeReq, 0, false⟩ ∧
      reqIsRead writeReq = false ∧ writeReq.addr % 64 + writeReq.data.length ≤ 64) ∧
    (let s := queued readReq; s.mayServe 0 0 = true ∧ (s.mem.ch[(0 : Fin 8)]).queue[0]? = some ⟨readReq, 0, false⟩ ∧
      reqIsRead readReq = true ∧ readReq.pool = false ∧ readReq.err = .none ∧ s.burstFailed .normal 0 = false ∧
      s.burstPoisoned .normal 0 = false) ∧
    (8 * 1048575 + 8 ≤ qdrBytes (qdrOn.pN P.MEM_QDR_SIZE 1)) ∧
    ((standby.mem.ch[(0 : Fin 8)]).selfRef = false ∧ standby.mcWaits 0 = false ∧ (withPll 10 .unlocked standby).mcWaits 0 = true ∧
      ((withPll 10 .unlocked standby).mem.ch[(0 : Fin 8)]).selfRef = false ∧
      ((withCh (fun c => { c with selfRef := true }) standby).mem.ch[(0 : Fin 8)]).selfRef = true) ∧
    ((withP P.MEM_SR_EN 0 1 standby).pB P.MEM_SR_EN = true ∧ (standby.mem.ch[(0 : Fin 8)]).queue = [] ∧
      (standby.mem.ch[(0 : Fin 8)]).lastReq + 1000 * standby.pN P.MEM_SR_IDLE_US ≤ max standby.now 200000000000 ∧
      max standby.now 999 < (standby.mem.ch[(0 : Fin 8)]).lastReq + 1000 * standby.pN P.MEM_SR_IDLE_US) ∧
    (let s := withP P.MEM_IDLE_NS 0 100 (withCh (fun c => { c with lastAcc := Vector.replicate 16 standby.now }) standby);
      (s.mem.ch[(0 : Fin 8)]).lastAcc[(3 : Fin 16)] + s.pN P.MEM_IDLE_NS 0 ≤ max s.now (standby.now + 100) ∧
      max s.now (standby.now + 99) < (s.mem.ch[(0 : Fin 8)]).lastAcc[(3 : Fin 16)] + s.pN P.MEM_IDLE_NS 0) := by decide +kernel

/-- The poisoned word of a copy, and a request of a given outcome. -/
def poisonedAt (c : Copy) (w : Nat) (s : State) : State :=
  match c with
  | .normal => { s with mem := { s.mem with poison := [w] } }
  | .primary => { s with mem := { s.mem with poisonP := [w] } }
  | .mirror => { s with mem := { s.mem with poisonM := [w] } }
def poolReq (e f : EccErr) : MemReq := { readReq with pool := true, err := e, errMirror := f }

/-- Good and bad copies: both good, the primary's word uncorrectable, both so, a poisoned word of the normal region. -/
theorem test_witness_CopiesGoodAndBad :
    CopyGood pooled .primary (poolReq .none .none) ∧ CopyGood pooled .mirror (poolReq (.uncorrectable 1) .single) ∧
    ¬ CopyGood pooled .primary (poolReq (.uncorrectable 1) .none) ∧
    ¬ CopyGood pooled .mirror (poolReq (.uncorrectable 1) (.uncorrectable 2)) ∧
    CopyGood standby .normal readReq ∧ ¬ CopyGood (poisonedAt .normal 3 standby) .normal readReq := by
  refine ⟨⟨by decide +kernel, by decide +kernel, by simp [poolReq]⟩, ⟨by decide +kernel, by decide +kernel, by simp [poolReq]⟩,
    fun h => h.2.2 1 (by simp [poolReq]), fun h => h.2.2 2 (by simp [poolReq]),
    ⟨by decide +kernel, by decide +kernel, by simp [readReq]⟩, fun h => absurd h.2.1 (by decide +kernel)⟩

theorem test_witness_MemoryErrorsContained :
    (standby.patrolPlace 0 0 = some (.normal, 0) ∧ standby.burstFailed .normal 0 = false ∧
      (standby.mem.poisoned .normal).contains 0 = false ∧
      ((poisonedAt .normal 0 standby).mem.poisoned .normal).contains 0 = true) ∧
    (8 * 1048575 + 8 ≤ qdrBytes (qdrOn.pN P.MEM_QDR_SIZE 1) ∧ (qdrOn.mem.qpoison[(1 : Fin 2)]).contains 1048575 = false ∧
      qdrBytes (qdrOn.pN P.MEM_QDR_SIZE 1) < 8 * 9437184 + 8 ∧
      ({ qdrOn with mem := { qdrOn.mem with qpoison := Vector.replicate 2 [5] } } : State).mem.qpoison[(1 : Fin 2)] = [5]) ∧
    (standby.mem.failed[(2 : Fin 4)] = false ∧ pairFailed (vset standby.mem.failed 2 true) = false ∧
      pairFailed (vset (vset standby.mem.failed 2 true) 0 true) = true ∧
      ((standby.mem.ueAt[(2 : Fin 4)]).filter (fun q => decide (max standby.now 5 < q + 1000000))).length ≤ 16) ∧
    (let s := queued readReq; (s.mem.ch[(0 : Fin 8)]).queue[0]? = some ⟨readReq, 0, false⟩ ∧ reqIsRead readReq = true ∧
      readReq.pool = false ∧ s.locked (Fin.ofNat 20 (10 + 0 / 2)) = false) ∧
    ((pooled.mem.ch[(0 : Fin 8)]).queue[0]? = some ⟨{ readReq with pool := true }, 0, false⟩ ∧
      pooled.burstFailed .mirror 0 = false ∧ pooled.burstPoisoned .mirror 0 = false ∧
      pooled.locked (Fin.ofNat 20 10) = false) := by decide +kernel

/-- A read gives the bytes a write stored (05 R234). -/
theorem test_memory_read_after_write :
    let s := after (exec (.memoryRequest (.lpddr 0 none (some 0))) (queued { writeReq with data := [1#8, 2#8, 3#8, 4#8] }))
    let t := after (exec (.memoryRequest (.lpddr 0 (some { readReq with addr := 58, len := 6 }) none)) s)
    ((after (exec (.memoryRequest (.lpddr 0 none (some 0))) t)).mem.ch[(0 : Fin 8)]).resp =
      some ([0#8, 0#8, 1#8, 2#8, 3#8, 4#8], false) := by decide +kernel

/-! ## Touch, lamps -/

def frame0 : TouchFrame := ⟨7, false, false, true, ⟨0, 0, 0, 0, 0, 2, 0, 0⟩, standby.now, [], []⟩
def touched (f : Touch → Touch) : State :=
  withP P.TCH_STUCK 1 10 { standby with
    tch := vmod standby.tch 1 (fun x => f { x with ready := [frame0] }), tick := { standby.tick with count := 100 } }
def contact3 : Contact := ⟨3, 0, 0, 0, 89, false, 0, 0, false, false⟩

theorem test_witness_TouchFramesEvaluated :
    (((touched id).tch[(1 : Fin 4)]).ready = [frame0] ∧ frame0.blank = false ∧ frame0.lit = true ∧
      (touched id).entryBare 2 1 = false ∧ ((touched fun x => { x with stage := .restart }).tch[(1 : Fin 4)]).stage = .restart ∧
      ((touched fun x => { x with stage := .learn 1 }).tch[(1 : Fin 4)]).stage = .learn 1 ∧
      ((touched fun x => { x with stage := .run }).tch[(1 : Fin 4)]).stage = .run) ∧
    (let s := touched fun x => { x with ready := [{ frame0 with lit := false }] };
      (s.tch[(1 : Fin 4)]).ready = [{ frame0 with lit := false }] ∧ s.now ≤ frame0.ended + s.tick.period) ∧
    (let s := { touched id with now := frame0.ended + (touched id).tick.period };
      frame0.ended + s.tick.period ≤ s.latest ∧ s.now ≤ frame0.ended + s.tick.period ∧
      frame0.ended + s.tick.period < ({ s with now := s.now + 1 } : State).now ∧
      ({ s with now := s.now - 1 } : State).latest < frame0.ended + s.tick.period) ∧
    (let s := touched fun x => { x with contacts := [contact3, { contact3 with id := 15, since := 90 }] };
      (s.tch[(1 : Fin 4)]).contacts[0]? = some contact3 ∧ contact3.id = (3 : Fin 16).1 ∧ s.pN P.TCH_STUCK 1 ≠ 0 ∧
      s.pN P.TCH_STUCK 1 < s.tick.count - contact3.since ∧ contact3.hidden = false ∧
      s.tick.count - ({ contact3 with id := 15, since := 90 } : Contact).since ≤ s.pN P.TCH_STUCK 1) := by decide +kernel

/-- Ten own edges after a contact began it is not stuck; eleven after it is (14 R688). -/
theorem test_touch_stuck :
    let s := touched fun x => { x with contacts := [contact3, { contact3 with id := 15, since := 90 }] }
    (((after (exec (.touchStuck 1 3) s)).tch[(1 : Fin 4)]).contacts.map (·.stuck)) = [true, false] ∧
    (((after (exec (.touchStuck 1 15) s)).tch[(1 : Fin 4)]).contacts.map (·.stuck)) = [false, false] := by decide +kernel

def withLmp (f : Lmp → Lmp) (s : State) : State := { s with lmp := f s.lmp }
/-- A scan that stands at row 15, lamp 255 probed 64 frames ago. -/
def scanning : State := withLmp (fun x => { x with run := true, row := 15 }) (withP P.LMP_ENABLE 0 1 standby)
def probed : State := withLmp (fun x => { x with
  lamps := vmod x.lamps 255 (fun l => { l with since := 64 }), front := List.replicate 512 255#8 }) scanning

theorem test_witness_LampsAreScanned :
    (standby.dev ≠ .boot ∧ standby.lmp.run = false ∧ standby.pB P.LMP_ENABLE = false ∧
      (withP P.LMP_ENABLE 0 1 standby).pB P.LMP_ENABLE = true) ∧
    (let s := withLmp (fun x => { x with row := 16, back := some (zeros 512) }) scanning;
      16 ≤ s.lmp.row ∧ s.lmp.run = true ∧ s.lmp.back = some (zeros 512) ∧ s.pB P.LMP_MODE = false ∧
      s.pB P.LMP_ENABLE = true) ∧
    (scanning.lmp.run = true ∧ scanning.lmp.row < 16 ∧ (255 : Fin 256).1 / 16 = scanning.lmp.row ∧
      (239 : Fin 256).1 / 16 ≠ scanning.lmp.row) ∧
    (probed.lmp.run = true ∧ probed.lmp.code 255 ≠ 0 ∧ 64 ≤ (probed.lmp.lamps[(255 : Fin 256)]).since) := by decide +kernel

/-! ## The cascade

Frames of device 1 under a cascade key of 32 bytes of 7; the tags are HMAC-SHA-256, worked out outside the model. -/

def trv (kind src dst : Nat) (body : Bytes) (tag : Nat) : Bytes :=
  [byteOf kind, byteOf src, byteOf dst, 7#8] ++ toBE 4 3 ++ toBE 8 500 ++ body ++ toBE 16 tag

/-- Is a frame taken, with something true of what is left? -/
def taken (s : State) (p : PortIx) (kind : Nat) (b : Bytes) (g : State → Trav → Bool) : Bool :=
  match s.travTake p kind b with
  | (u, some f) => g u f
  | _ => false

theorem of_taken {s : State} {p : PortIx} {kind : Nat} {b : Bytes} {g : State → Trav → Bool} (h : taken s p kind b g = true) :
    ∃ u f, s.travTake p kind b = (u, some f) ∧ g u f = true := by
  unfold taken at h
  split at h
  · exact ⟨_, _, ‹_›, h⟩
  · exact absurd h (by decide)

/-- SHA-256 of no bytes, the first eight: the digest of no shared group. -/
def digest0 : Nat := 0xe3b0c44298fc1c14
/-- No group is shared. -/
def link0 : State :=
  let s := linked (withP P.CAS_SHARED 0 0 (planned standby))
  { s with cas := { s.cas with shared := 0 } }
def slaved : State := { link0 with cas := { link0.cas with role := .slave, master := some 1, epoch := 3 } }
def at5 (s : State) : State := { s with now := max s.now 5 }

def frLink : Bytes := [1#8, 1#8, 255#8, 7#8] ++ zeros 12 ++ [1#8, 1#8, 5#8, 0#8] ++ List.replicate 8 255#8 ++ zeros 24 ++
  toBE 16 0xe631d98055f660a437a023fe6b024850
def frDup : Bytes := [1#8, 0#8, 255#8, 7#8] ++ zeros 12 ++ [1#8, 1#8, 5#8, 0#8] ++ List.replicate 8 255#8 ++ zeros 24 ++
  toBE 16 0x6c8e92c97aef1e706b975bd59d5faaaa
def frTick : Bytes := trv kindTick 1 255 (zeros 8 ++ toBE 4 16666667 ++ zeros 36) 0xd86590b5a56c153772648020139ffc59
def frCommit (op : Nat) (tag : Nat) : Bytes := trv kindCommit 1 255 ([byteOf op, 1#8, 4#8, 0#8] ++ toBE 8 700 ++ toBE 8 digest0) tag
def frPrepare : Bytes := frCommit opPrepare 0x66a37f5d17078faeb5ffce5a6823eaf5
def frGo : Bytes := frCommit opGo 0xc32a6aea99379cffb5ab82a4780dbcf5
def frAbort : Bytes := frCommit opAbort 0x108cf341f910e5b1db45b6f0aa07f021
def frAck : Bytes := trv kindVote 1 0 ([1#8, 0#8] ++ toBE 8 digest0) 0x48242f68780fe0b312a69d092009159d
def frNak : Bytes := trv kindVote 1 0 ([0#8, 2#8] ++ toBE 8 digest0) 0x8ebf77b41c9742ea5edeb15d1c539047
def frRelease : Bytes := trv kindAcm 1 0 [1#8, 2#8, 0#8, 0#8, 0#8, 9#8, 0#8, 0#8] 0xe64e4a6b3ddff48850669c3bf0efc722
def frReply : Bytes := trv kindAcm 1 0 (zeros 11 ++ [128#8] ++ zeros 36) 0x8d3de129f41d662276a9070d4625fe2a
def frAsk : Bytes := trv kindAcm 1 0 (zeros 11 ++ [32#8] ++ zeros 36) 0x8889277001801676a5d3057f4b98df5e
def frSurf : Bytes := trv kindSurface 1 0 dgSurf 0x7ce952467681936550f976976736deaf
def frSeam : Bytes := trv kindSeam 1 0 ([2#8, 0#8] ++ toBE 2 3 ++ toBE 2 16 ++ toBE 2 16 ++ zeros 128) 0xaaa347cd42664890abd30581c150c870
/-- A UDP datagram of eight bytes from 1.2.3.4 to 224.0.0.1, port 5004, from Ethernet port 1 of device 1. -/
def frVideo : Bytes := [9#8, 1#8, 255#8, 7#8] ++ zeros 12 ++ [1#8] ++ zeros 12 ++ toBE 2 0x0800 ++
  ([0x45#8] ++ zeros 8 ++ [17#8] ++ zeros 2 ++ toBE 4 0x01020304 ++ toBE 4 0xE0000001) ++
  (toBE 2 5004 ++ toBE 2 5004 ++ toBE 2 16 ++ zeros 2) ++ zeros 8

theorem test_witness_CascadeFollowsAMaster_ports :
    ((withP P.CAS_PORTS 0 1 standby).dev ≠ .boot ∧ bit ((withP P.CAS_PORTS 0 1 standby).pN P.CAS_PORTS) 0 = true ∧
      (standby.cas.port[(0 : Fin 2)]).held = false ∧ (standby.cas.port[(0 : Fin 2)]).link ≠ .up ∧
      (emitting (withP P.CAS_PORTS 0 1 standby)).locked (Fin.ofNat 20 16) = true ∧ State.reset.dev = .boot) ∧
    ((link0.cas.port[(0 : Fin 2)]).link ≠ .down ∧ (link0.cas.port[(1 : Fin 2)]).link = .down) ∧
    (let s := { slaved with pwr := { slaved.pwr with cascRole := true }, cas := { slaved.cas with silent := 3 } };
      s.cas.role = .slave ∧ s.pwr.cascRole = true ∧ s.patience ≤ s.cas.silent ∧ slaved.cas.silent < slaved.patience) := by
  decide +kernel

theorem test_witness_LinkFrame :
    (∃ u f, (at5 link0).travTake 0 kindLink frLink = (u, some f) ∧ (decide (f.src < 8)) = true) ∧
    (at5 link0).duplicate 0 (travOf frLink) = false :=
  ⟨of_taken (by decide +kernel), by decide +kernel⟩

theorem test_witness_LinkFrame_duplicate :
    link0.travUp 0 = true ∧ link0.clockLost (serdesTrav 0) = false ∧ (travOf frDup).kind = kindLink ∧ link0.travTagOk frDup = true ∧
    (at5 link0).duplicate 0 (travOf frDup) = true := by decide +kernel

theorem test_witness_TickFrame :
    (∃ u f, (at5 link0).travTake 0 kindTick frTick = (u, some f) ∧ (decide (f.src < 8) && u.follows f) = true) ∧
    (∃ u f, (at5 slaved).travTake 0 kindTick frTick = (u, some f) ∧ (decide (f.src < 8) && u.follows f) = true) ∧
    slaved.tick.commitAt = none :=
  ⟨of_taken (by decide +kernel), of_taken (by decide +kernel), by decide +kernel⟩

/-- A PREPARE that is acknowledged, and one that is not while a commit is pending. -/
theorem test_witness_CommitPrepare :
    (∃ u f, slaved.travTake 0 kindCommit frPrepare = (u, some f) ∧
      (u.fromMaster f && (u8 f.body 0 == opPrepare) && (u.voteOn (be64 f.body 12) == 0)) = true) ∧
    (∃ u f, (pendingAt (some 102) slaved).travTake 0 kindCommit frPrepare = (u, some f) ∧
      (u.fromMaster f && (u8 f.body 0 == opPrepare) && (u.voteOn (be64 f.body 12) != 0)) = true) :=
  ⟨of_taken (by decide +kernel), of_taken (by decide +kernel)⟩

theorem test_witness_CommitGoAndAbort :
    (∃ u f, (pendingAt (some 700) slaved).travTake 0 kindCommit frGo = (u, some f) ∧
      (u.fromMaster f && (u8 f.body 0 == opGo) && ((pendingAt (some 700) slaved).tick.commitAt == some (be64 f.body 4))) = true) ∧
    (∃ u f, slaved.travTake 0 kindCommit frGo = (u, some f) ∧
      (u.fromMaster f && (u8 f.body 0 == opGo) && (slaved.tick.commitAt != some (be64 f.body 4))) = true) ∧
    (∃ u f, (pendingAt (some 700) slaved).travTake 0 kindCommit frAbort = (u, some f) ∧
      (u.fromMaster f && (u8 f.body 0 == opAbort) && ((pendingAt (some 700) slaved).tick.commitAt == some (be64 f.body 4))) = true) ∧
    (∃ u f, slaved.travTake 0 kindCommit frAbort = (u, some f) ∧
      (u.fromMaster f && (u8 f.body 0 == opAbort) && (slaved.tick.commitAt != some (be64 f.body 4))) = true) :=
  ⟨of_taken (by decide +kernel), of_taken (by decide +kernel), of_taken (by decide +kernel), of_taken (by decide +kernel)⟩

/-- A master that has prepared a commit: an ACK and a NAK. -/
def asking : State :=
  let s := pendingAt (some 700) link0
  { s with cas := { s.cas with role := .master, master := some 0, mine := true } }

theorem test_witness_Vote :
    asking.cas.mine = true ∧ asking.cas.decision = .none ∧ asking.tick.commitAt.isSome = true ∧
    (∃ u f, asking.travTake 0 kindVote frAck = (u, some f) ∧
      (decide (f.src < 8) && (u8 f.body 0 != 0) && (be64 f.body 2 == u.sharedStaged)) = true) ∧
    (∃ u f, asking.travTake 0 kindVote frNak = (u, some f) ∧ (decide (f.src < 8) && (u8 f.body 0 == 0)) = true) :=
  ⟨by decide +kernel, by decide +kernel, by decide +kernel, of_taken (by decide +kernel), of_taken (by decide +kernel)⟩

theorem test_witness_TraverseAcm :
    (∃ u f, (at5 link0).travTake 0 kindAcm frRelease = (u, some f) ∧ (u8 f.body 0 == 1) = true) ∧
    (∃ u f, (at5 asking).travTake 0 kindAcm frReply = (u, some f) ∧ ((u8 f.body 0 != 1) && bit (u8 f.body 11) 7) = true) ∧
    (∃ u f, (at5 link0).travTake 0 kindAcm frAsk = (u, some f) ∧ ((u8 f.body 0 != 1) && !bit (u8 f.body 11) 7) = true) :=
  ⟨of_taken (by decide +kernel), of_taken (by decide +kernel), of_taken (by decide +kernel)⟩

theorem test_witness_TraverseSurface :
    (∃ u f, (linked filling).travTake 0 kindSurface frSurf = (u, some f) ∧ (f.body == dgSurf) = true) ∧
    SurfaceAuthentic (linked filling) dgSurf 1 ∧ (linked filling).dev ≠ .boot ∧
    (linked filling).surface (be32 dgSurf 4) = some (2, { atc16 with st := .filling }) :=
  ⟨of_taken (by decide +kernel), surfaceAuthentic, by decide +kernel, by decide +kernel⟩

/-- Row 3 of a strip of 16 by 16 pixels. -/
def stripped : State :=
  let s := withT P.CAS_SEAM_RX 2 ([1#8, 1#8, 0#8, 0#8] ++ toLE 4 0x1000001 ++ toLE 4 0x1000002 ++ zeros 4)
    (linked (withTbl [(1, { packed16 with st := .filling, format := 0x10 })] standby))
  { s with cas := { s.cas with seam := vmod s.cas.seam 2 (fun x => { x with filling := some (0x1000001, 3) }) } }

theorem test_witness_Seam :
    (∃ u f, stripped.travTake 0 kindSeam frSeam = (u, some f) ∧
      (decide (u8 f.body 0 < 8) && seamOn (stripped.pT P.CAS_SEAM_RX (u8 f.body 0)) &&
        (u8 (stripped.pT P.CAS_SEAM_RX (u8 f.body 0)) 1 == f.src) && (be16 f.body 2 == 3) && (be16 f.body 4 == 16) &&
        (be16 f.body 6 == 16)) = true) ∧
    (stripped.cas.seam[(2 : Fin 8)]).filling = some (0x1000001, 3) ∧
    stripped.surface 0x1000001 = some (1, { packed16 with st := .filling }) :=
  ⟨of_taken (by decide +kernel), by decide +kernel, by decide +kernel⟩

theorem test_witness_TraverseVideo :
    (∃ u f, (at5 link0).travTake 0 kindVideo frVideo = (u, some f) ∧
      (udpFields (f.body.drop 1) == some (0x01020304, 0xE0000001, 5004, zeros 8)) = true) ∧
    link0.pB P.ETH_RX_ENABLE 0 = false :=
  ⟨of_taken (by decide +kernel), by decide +kernel⟩

end Sys2Proof.Tests
end

section
/-! PROOF. The rules of the parameter banks, of running a chosen message, and of PARAM_SET's checks and effects (00 R6 to R15; 03
R133 to R149): each operation said once, for the statements over parameters. -/

namespace Sys2Proof.Machine

/-! ### Banks (00 R12; 02 R99) -/

/-- The row found for an ID is the row of that ID. -/
theorem paramDef_id {id : Nat} {d : ParamDef} (h : paramDef id = some d) : d.id = id :=
  eq_of_beq (List.find?_some (p := fun d : ParamDef => d.id == id) h)

theorem bankGet_bankSet_same (b : Bank) (id ix : Nat) (v : PVal) : bankGet (bankSet b id ix v) id ix = v := by
  unfold bankGet bankSet
  split
  next hr => rw [assocGet_del, if_pos rfl, hr]; rfl
  next => rw [assocGet_set, if_pos rfl]; rfl

@[simp] theorem Par.setStaged_staged (p : Par) (d : ParamDef) (ix : Nat) (v : PVal) :
    (p.setStaged d ix v).staged = bankSet p.staged d.id ix v := rfl
@[simp] theorem Par.setStaged_active (p : Par) (d : ParamDef) (ix : Nat) (v : PVal) : (p.setStaged d ix v).active = p.active := rfl
@[simp] theorem Par.setStaged_accA (p : Par) (d : ParamDef) (ix : Nat) (v : PVal) : (p.setStaged d ix v).accA = p.accA := rfl
@[simp] theorem Par.setActive_active (p : Par) (d : ParamDef) (ix : Nat) (v : PVal) :
    (p.setActive d ix v).active = bankSet p.active d.id ix v := rfl
@[simp] theorem Par.setActive_staged (p : Par) (d : ParamDef) (ix : Nat) (v : PVal) : (p.setActive d ix v).staged = p.staged := rfl
@[simp] theorem Par.setActive_held (p : Par) (d : ParamDef) (ix : Nat) (v : PVal) :
    (p.setActive d ix v).held = assocDel (pkey d.id ix) p.held := rfl

/-- A TICK write goes to the staged bank. -/
theorem Par.write_of_tick (p : Par) {d : ParamDef} (ix : Nat) (v : PVal) (hc : d.cls = .tick) :
    p.write d ix v = p.setStaged d ix v := by
  unfold Par.write; rw [hc]

/-- An IMM or STBY write goes to both banks. -/
theorem Par.write_of_immediate (p : Par) {d : ParamDef} (ix : Nat) (v : PVal) (hc : d.cls = .imm ∨ d.cls = .stby) :
    p.write d ix v = (p.setStaged d ix v).setActive d ix v := by
  unfold Par.write
  rcases hc with hc | hc <;> rw [hc]

theorem Par.write_of_ro (p : Par) {d : ParamDef} (ix : Nat) (v : PVal) (hc : d.cls = .ro) : p.write d ix v = p := by
  unfold Par.write; rw [hc]

/-- A write leaves both banks as they were at every other key. -/
theorem Par.write_other (p : Par) (d : ParamDef) (ix : Nat) (v : PVal) (i j : Nat) (h : pkey i j ≠ pkey d.id ix) :
    bankGet (p.write d ix v).staged i j = bankGet p.staged i j ∧ bankGet (p.write d ix v).active i j = bankGet p.active i j := by
  cases hc : d.cls with
  | tick => simp [p.write_of_tick ix v hc, bankGet_bankSet_ne _ _ _ _ _ _ h]
  | imm => simp [p.write_of_immediate ix v (.inl hc), bankGet_bankSet_ne _ _ _ _ _ _ h]
  | stby => simp [p.write_of_immediate ix v (.inr hc), bankGet_bankSet_ne _ _ _ _ _ _ h]
  | ro => simp [p.write_of_ro ix v hc]

/-- A block uses the active value where no POKE has made it differ. -/
theorem State.block_of_held_none (s : State) (id ix : Nat) (h : assocGet (pkey id ix) s.par.held = none) :
    s.block id ix = bankGet s.par.active id ix := by
  unfold State.block; rw [h]; rfl

/-! ### Running the chosen message (03 R133 to R138) -/

theorem runMessage_of_chosen {s : State} {m : Msg} (want : Msg → Bool) (f : State → Msg → Answer) (hc : s.chosen = some m)
    (hw : want m = true) : runMessage want f s = .next (s.finish m (f s m)) := by
  unfold runMessage
  simp only [hc, hw, if_true]

/-- The commands of `setRows` run the chosen message under their row. -/
theorem exec_of_setRows {c : Instr} {r : SetRow} (h : (c, r) ∈ setRows) (s : State) : exec c s = runSet r s := by
  simp only [setRows, List.mem_cons, List.not_mem_nil, or_false, Prod.mk.injEq] at h
  rcases h with ⟨rfl, rfl⟩ | ⟨rfl, rfl⟩ | ⟨rfl, rfl⟩ | ⟨rfl, rfl⟩ | ⟨rfl, rfl⟩ | ⟨rfl, rfl⟩ | ⟨rfl, rfl⟩ | ⟨rfl, rfl⟩ | ⟨rfl, rfl⟩ |
    ⟨rfl, rfl⟩ <;> rfl

/-- A chosen PARAM_SET of a row runs under the row's command. -/
theorem exec_set_of_chosen {c : Instr} {r : SetRow} {s : State} {m : Msg} (h : (c, r) ∈ setRows) (hc : s.chosen = some m)
    (ht : m.typ = typParamSet) (hr : rowOf m.body = r) : exec c s = .next (s.finish m (paramSet s m)) := by
  rw [exec_of_setRows h]
  exact runMessage_of_chosen _ _ hc (by simp [ht, hr])

/-- Completing a message writes the journal, the routes and the output beside the message's own effect. -/
theorem State.finish_eq (s0 s : State) (m : Msg) (st : Status) (payload : Bytes) :
    s0.finish m (s, st, payload) = { s with
      acm := (s0.finish m (s, st, payload)).acm
      cas := (s0.finish m (s, st, payload)).cas
      out := (s0.finish m (s, st, payload)).out } := by
  rw [State.finish_frame]; rfl

@[simp] theorem State.finish_par (s0 s : State) (m : Msg) (st : Status) (payload : Bytes) :
    (s0.finish m (s, st, payload)).par = s.par := by
  rw [State.finish_eq]

/-! ### The checks of PARAM_SET (03 R147, R148) -/

/-- A check passed: where its refusal is not the answer, the answer is that of the checks after it. -/
theorem check_passed {ε α : Type} {c : Prop} [Decidable c] {x : ε} {r : Except ε α} {a : α}
    (h : (if c then .error x else r) = .ok a) : ¬ c ∧ r = .ok a := by
  split at h
  · cases h
  next hc => exact ⟨hc, h⟩

/-- What an accepted entry of the parameter `d` has met: every check of `State.setEntry`, in its order. -/
structure State.Accepts (s : State) (was : Bool) (q : SessIx) (e : Entry) (d : ParamDef) : Prop where
  row      : paramDef e.id = some d
  index    : d.ix.has e.ix = true
  writable : d.cls ≠ .ro
  length   : e.value.length = d.len
  unsealed : (was && anchorParams.contains d.id) = false
  state    : (s.classRefused d.cls || (d.id == P.MEM_MAP && !s.surf.tbl.isEmpty)) = false
  range    : ∀ i, valueOf d e.value = .num i → d.inRange i = true
  value    : s.valueOk d e.ix (valueOf d e.value) = true
  handle   : s.seamStale d.id e.value = false
  budget   : ({ s with par := s.par.write d e.ix (valueOf d e.value) } : State).pendingRefused d.cls = false
  job      : e.id = P.ATC_JOB → s.jobRefusal q e.value = none

/-- An entry that is written has met every check, and only the parameters change. -/
theorem State.setEntry_ok {s u : State} {was : Bool} {q : SessIx} {e : Entry} (h : s.setEntry was q e = .ok u) :
    ∃ d, s.Accepts was q e d ∧ u = { s with par := s.par.write d e.ix (valueOf d e.value) } := by
  unfold State.setEntry at h
  cases hd : paramDef e.id with
  | none => simp [hd] at h
  | some d =>
    simp only [hd] at h
    obtain ⟨hform, h⟩ := check_passed h
    obtain ⟨hseal, h⟩ := check_passed h
    obtain ⟨hstate, h⟩ := check_passed h
    obtain ⟨hvalue, h⟩ := check_passed h
    obtain ⟨hhandle, h⟩ := check_passed h
    obtain ⟨hbudget, h⟩ := check_passed h
    obtain ⟨hix, hro, hlen⟩ : d.ix.has e.ix = true ∧ d.cls ≠ .ro ∧ e.value.length = d.len := by simpa using hform
    rw [Bool.or_eq_true, not_or] at hvalue
    obtain ⟨hrange, hok⟩ := hvalue
    split at h
    · cases h
    next hjob =>
      refine ⟨d, ⟨hd, hix, hro, hlen, Bool.eq_false_iff.mpr hseal, Bool.eq_false_iff.mpr hstate, fun i hi => ?_, by simpa using hok,
        Bool.eq_false_iff.mpr hhandle, Bool.eq_false_iff.mpr hbudget, fun hid => ?_⟩, (Except.ok.inj h).symm⟩
      · simpa [hi] using hrange
      · rwa [if_pos ((paramDef_id hd).trans hid)] at hjob

/-- An entry of the right form for an Anchor limit or the seal is refused while the seal stands (11 R574). -/
theorem State.setEntry_sealed (s : State) (q : SessIx) {e : Entry} {d : ParamDef} (hd : paramDef e.id = some d)
    (ha : e.id ∈ anchorParams) (hx : d.ix.has e.ix = true) (hro : d.cls ≠ .ro) (hl : e.value.length = d.len) :
    s.setEntry true q e = .error .errAnchorLocked := by
  have ha' : d.id ∈ anchorParams := paramDef_id hd ▸ ha
  simp [State.setEntry, hd, hx, hro, hl, ha']

/-- An accepted message of one entry: the entry it holds, accepted by the entry's checks. -/
theorem State.setAll_one_ok {s u : State} {q : SessIx} {b : Bytes} {e : Entry} (h : s.setAll q b = .ok (u, [e])) :
    messageEntries b = .ok [e] ∧ s.setEntry (s.pB P.ANC_SEAL) q e = .ok u := by
  unfold State.setAll at h
  split at h
  · cases h
  next es hes =>
    split at h
    · cases h
    · split at h
      · cases h
      next t ht =>
        split at h
        · cases h
        · obtain ⟨rfl, rfl⟩ := Prod.mk.inj (Except.ok.inj h)
          refine ⟨hes, ?_⟩
          simp only [State.setEntries] at ht
          split at ht
          · cases ht
          next hx => rw [hx, Except.ok.inj ht]

/-- A message of one entry that the entry's checks refuse is refused at position 0. -/
theorem State.setAll_one_error {s : State} {q : SessIx} {b : Bytes} {e : Entry} {st : Status} (hes : messageEntries b = .ok [e])
    (h : s.setEntry (s.pB P.ANC_SEAL) q e = .error st) : s.setAll q b = .error (st, 0) := by
  simp [State.setAll, hes, jobAlone, State.setEntries, h]

theorem paramSet_error {s : State} {m : Msg} {st : Status} {i : Nat} (h : s.setAll m.session m.body = .error (st, i)) :
    paramSet s m = (s, st, s.setReply i) := by
  unfold paramSet; rw [h]

/-- A refused PARAM_SET leaves all but the journal, the routes and the output, and is answered with the digests as they stand. -/
theorem exec_set_refused {c : Instr} {r : SetRow} {s : State} {m : Msg} {st : Status} {i : Nat} (h : (c, r) ∈ setRows)
    (hc : s.chosen = some m) (ht : m.typ = typParamSet) (hr : rowOf m.body = r)
    (he : s.setAll m.session m.body = .error (st, i)) :
    ∃ t, exec c s = .next t ∧ t = { s with acm := t.acm, cas := t.cas, out := t.out } ∧
      Answered s t m st (toBE 2 i ++ zeros 2 ++ toBE 8 (deviceDigest s.par.accS) ++ toBE 8 (deviceDigest s.par.accA)) := by
  refine ⟨_, exec_set_of_chosen h hc ht hr, ?_, ?_⟩
  · rw [paramSet_error he]; exact State.finish_eq ..
  · rw [paramSet_error he]; exact State.finish_answered _ _ _ _ _ rfl rfl

/-! ### The rows (95) -/

/-- The row of a message that writes one entry. -/
theorem rowOf_one {b : Bytes} {e : Entry} (h : messageEntries b = .ok [e]) :
    rowOf b =
      if e.id = P.ATC_JOB ∧ u8 e.value 0 ≤ 2 then .job (u8 e.value 0)
      else if e.id = P.ANC_SEAL ∧ natBE e.value = 1 then .seal
      else if e.id = P.EMT_FLTCLR then .fltClear
      else if e.id = P.TCH_RELEARN then .relearn
      else if e.id = P.LMP_FLTCLR then .lampClear
      else if e.id = P.LMP_LEVELS then .levels
      else if e.id = P.CLK_LOCK_WIN ∨ e.id = P.CLK_LOCK_N ∨ e.id = P.CLK_LOCK_M then .lock
      else .plain := by
  unfold rowOf
  by_cases hj : e.id = P.ATC_JOB ∧ u8 e.value 0 ≤ 2
  · simp [h, hj, Nat.ble_eq]
  · have hf : [e].find? (fun e => e.id == P.ATC_JOB && Nat.ble (u8 e.value 0) 2) = none := by
      simpa [Nat.ble_eq] using hj
    simp [h, hf, hj, writesAny]

/-- The seal's row writes 1 to ANC_SEAL. -/
theorem seal_of_rowOf {b : Bytes} {e : Entry} (h : messageEntries b = .ok [e]) (hr : rowOf b = .seal) :
    e.id = P.ANC_SEAL ∧ natBE e.value = 1 := by
  rw [rowOf_one h] at hr
  by_cases hseal : e.id = P.ANC_SEAL ∧ natBE e.value = 1
  · exact hseal
  · rw [if_neg hseal] at hr
    revert hr
    repeat' split
    all_goals exact fun hr => SetRow.noConfusion hr

/-- A descriptor that names no operation is refused, so an accepted ATC_JOB has a row of its own (07 Table 7-6). -/
theorem jobRefusal_of_unknown_op (s : State) (q : SessIx) {b : Bytes} (h : 2 < u8 b 0) : s.jobRefusal q b ≠ none := by
  have hj : jobOf b = none := by
    unfold jobOf
    split
    all_goals simp_all
  unfold State.jobRefusal
  rw [hj]
  split <;> simp

theorem not_job_of_plain {s u : State} {m : Msg} {e : Entry} (h : SetAccepted s u m .plain e) : e.id ≠ P.ATC_JOB := by
  obtain ⟨-, -, hr, hu⟩ := h
  obtain ⟨hes, he⟩ := State.setAll_one_ok hu
  obtain ⟨d, hacc, -⟩ := State.setEntry_ok he
  intro hid
  have hop : 2 < u8 e.value 0 := Nat.lt_of_not_le fun hle => by
    rw [rowOf_one hes, if_pos ⟨hid, hle⟩] at hr
    cases hr
  exact jobRefusal_of_unknown_op s m.session hop (hacc.job hid)

end Sys2Proof.Machine
end

section
/-! PROOF. What an accepted PARAM_SET of one entry leaves: the banks its class names, and the seal that stands against later writes
(00 R12; 02 R99; 11 R574, R575). -/

namespace Sys2Proof.Machine

/-! ### The effects of a write leave the parameters -/

theorem State.settle_par (s : State) : s.settle.par = s.par := by rw [State.settle_frame]

theorem State.relock_par (s : State) (k : PllIx) : (s.relock k).par = s.par := by
  unfold State.relock
  dsimp only
  split
  · rw [State.settle_par]
    split <;> rfl
  · rfl

theorem State.retarget_par (s : State) (k : PllIx) (t : Nat) : (s.retarget k t).par = s.par := by
  unfold State.retarget
  dsimp only
  split
  · rfl
  · split
    · rfl
    · exact State.relock_par s k

theorem State.pllRefresh_par (s : State) : s.pllRefresh.par = s.par := by
  refine foldl_keeps State.par _ (fun s k => ?_) _ s
  split
  · rfl
  · split <;> rfl

theorem State.copyPages_par (s : State) (h k : Nat) (pages : List Nat) : (s.copyPages h k pages).par = s.par := by
  unfold State.copyPages
  refine foldl_keeps State.par _ (fun _ _ => ?_) _ s
  rfl

theorem State.copyMaps_par (s : State) (h : Nat) : (s.copyMaps h).par = s.par :=
  foldl_keeps State.par _ (fun s k => State.copyPages_par s h k _) _ s

theorem State.copyChanged_par (s : State) (a b : Bank) : (s.copyChanged a b).par = s.par := by
  refine foldl_keeps State.par _ (fun s h => ?_) _ s
  split
  · rfl
  · exact State.copyMaps_par s h

theorem State.moveQdr_par (s : State) (a b : Bank) : (s.moveQdr a b).par = s.par := by
  unfold State.moveQdr
  dsimp only
  split <;> rfl

theorem State.mapWritten_par (s : State) (id ix : Nat) : (s.mapWritten id ix).par = s.par := by
  refine foldl_keeps State.par _ (fun s k => ?_) _ s
  split
  · exact State.copyPages_par s _ _ _
  · rfl

theorem State.travRelease_par (s : State) (p : PortIx) : (s.travRelease p).par = s.par := by
  unfold State.travRelease
  dsimp only
  split <;> rfl

theorem State.topologyChanged_par (s : State) : s.topologyChanged.par = s.par := by
  unfold State.topologyChanged
  dsimp only
  split
  · rfl
  · split <;> rfl

theorem State.travRestart_par (s : State) (p : PortIx) : (s.travRestart p).par = s.par := by
  unfold State.travRestart
  rw [State.topologyChanged_par, State.travRelease_par]
  rfl

theorem State.fltClear_par (s : State) (mask : Nat) : (s.fltClear mask).par = s.par := by
  unfold State.fltClear
  rw [State.settle_par]
  refine foldl_keeps State.par _ (fun s c => ?_) _ s
  split <;> rfl

theorem State.touchRelearn_par (s : State) (mask : Nat) : (s.touchRelearn mask).par = s.par := by
  refine foldl_keeps State.par _ (fun s h => ?_) _ s
  split <;> rfl

theorem State.lampClear_par (s : State) (mask : Bytes) : (s.lampClear mask).par = s.par := State.modLmp_par ..

theorem State.lampLevels_par (s : State) (v : Bytes) : (s.lampLevels v).par = s.par := State.modLmp_par ..

/-- A choice between two states that both keep the parameters keeps them. -/
theorem State.par_ite {c : Prop} [Decidable c] {a b s : State} (ha : a.par = s.par) (hb : b.par = s.par) :
    (if c then a else b).par = s.par := by
  split
  · exact ha
  · exact hb

/-- What follows from a write leaves the parameters as the write left them. -/
theorem State.writeEffect_par (s s0 : State) (e : Entry) : (s.writeEffect s0 e).par = s.par := by
  have hlink (p : PortIx) : ((s.linkRestart p).pllRefresh).par = s.par := State.pllRefresh_par _
  have hports (n : Nat) : ((allFin 2).foldl (fun s p => if bit n p.1 then s.travRelease p else s.travRestart p) s).par = s.par :=
    foldl_keeps State.par _ (fun s p => State.par_ite (State.travRelease_par s p) (State.travRestart_par s p)) _ s
  have hdev : ((allFin 2).foldl State.travRelease s).par = s.par := foldl_keeps State.par _ State.travRelease_par _ s
  unfold State.writeEffect
  exact State.par_ite rfl <| State.par_ite (State.retarget_par ..) <|
    State.par_ite (State.par_ite rfl (hlink _)) <| State.par_ite (State.par_ite rfl rfl) <|
    State.par_ite (State.pllRefresh_par s) <| State.par_ite (State.mapWritten_par ..) <|
    State.par_ite ((State.pllRefresh_par _).trans (hports _)) <| State.par_ite hdev <|
    State.par_ite (State.fltClear_par ..) <| State.par_ite (State.touchRelearn_par ..) <|
    State.par_ite (State.lampClear_par ..) <| State.par_ite (State.lampLevels_par ..) rfl

/-! ### An accepted message of one entry -/

/-- The state once the one entry `e` of a message has taken effect: `s` is the state before the message and `u` the one with the
entry written. -/
def State.entryDone (s u : State) (e : Entry) : State :=
  let t := u.writeEffect s e
  let t := if writesAny qdrIds e then (t.moveQdr s.par.active t.par.active).copyChanged s.par.active t.par.active else t
  ({ t with par := { t.par with budgetStaged := budgetOf t.par.staged } } : State).settle

/-- PARAM_SET of one accepted entry that is no codec job. -/
theorem paramSet_one {s u : State} {m : Msg} {e : Entry} (h : s.setAll m.session m.body = .ok (u, [e])) (hj : e.id ≠ P.ATC_JOB) :
    paramSet s m = (s.entryDone u e, .ok, (s.entryDone u e).setReply 0xFFFF) := by
  unfold paramSet
  simp only [h, List.foldl_cons, List.foldl_nil, List.any_cons, List.any_nil, Bool.or_false, hj, if_false]
  rfl

theorem State.entryDone_par (s u : State) (e : Entry) :
    (s.entryDone u e).par = { u.par with budgetStaged := budgetOf u.par.staged } := by
  unfold State.entryDone
  dsimp only
  rw [State.settle_par]
  split
  · simp only [State.copyChanged_par, State.moveQdr_par, State.writeEffect_par]
  · simp only [State.writeEffect_par]

/-- A chosen, accepted PARAM_SET of one entry that is no codec job: the command, and the parameters it leaves. -/
theorem exec_set_one {c : Instr} {r : SetRow} {s u : State} {m : Msg} {e : Entry} (hcr : (c, r) ∈ setRows)
    (h : SetAccepted s u m r e) (hj : e.id ≠ P.ATC_JOB) :
    ∃ t, exec c s = .next t ∧ t = { s.entryDone u e with acm := t.acm, cas := t.cas, out := t.out } ∧
      t.par = { u.par with budgetStaged := budgetOf u.par.staged } := by
  obtain ⟨hc, ht, hr, hu⟩ := h
  refine ⟨_, exec_set_of_chosen hcr hc ht hr, ?_, ?_⟩
  · rw [paramSet_one hu hj]; exact State.finish_eq ..
  · rw [paramSet_one hu hj, State.finish_par, State.entryDone_par]

/-- An accepted write of a plain parameter reaches the banks its class names, at its own key only. -/
theorem paramSet_reaches_banks {s u : State} {m : Msg} {e : Entry} {d : ParamDef} (h : SetAccepted s u m .plain e)
    (hd : paramDef e.id = some d) :
    ∃ t, exec .paramSet s = .next t ∧
      (d.cls = .tick → bankGet t.par.staged e.id e.ix = valueOf d e.value ∧ t.par.active = s.par.active ∧ t.par.accA = s.par.accA) ∧
      (d.cls = .imm ∨ d.cls = .stby → bankGet t.par.staged e.id e.ix = valueOf d e.value ∧
        bankGet t.par.active e.id e.ix = valueOf d e.value) ∧
      ∀ id ix, pkey id ix ≠ pkey e.id e.ix → bankGet t.par.staged id ix = bankGet s.par.staged id ix ∧
        bankGet t.par.active id ix = bankGet s.par.active id ix := by
  obtain ⟨t, hexec, -, hpar⟩ := exec_set_one (c := .paramSet) (by decide) h (not_job_of_plain h)
  obtain ⟨-, -, -, hu⟩ := h
  obtain ⟨-, he⟩ := State.setAll_one_ok hu
  obtain ⟨d', hacc, rfl⟩ := State.setEntry_ok he
  obtain rfl : d = d' := Option.some.inj (hd.symm.trans hacc.row)
  have hid : d.id = e.id := paramDef_id hd
  refine ⟨t, hexec, fun hc => ?_, fun hc => ?_, fun id ix hne => ?_⟩
  · simp [hpar, Par.write_of_tick _ _ _ hc, hid, bankGet_bankSet_same]
  · simp [hpar, Par.write_of_immediate _ _ _ hc, hid, bankGet_bankSet_same]
  · rw [hpar]
    exact Par.write_other _ d e.ix _ id ix (hid ▸ hne)

/-! ### The seal (11 R574, R575) -/

/-- The row of ANC_SEAL (11 Table 11-10): its one index and its class, and the value that 1 carries. -/
theorem paramDef_seal : ∃ d, paramDef P.ANC_SEAL = some d ∧ d.id = P.ANC_SEAL ∧ d.cls = .stby ∧
    (∀ ix, d.ix.has ix = true → ix = 0) ∧ ∀ b, natBE b = 1 → valueOf d b = .num 1 := by
  refine ⟨_, rfl, rfl, rfl, fun ix h => ?_, fun b h => ?_⟩
  · simpa [IxSet.has] using h
  · simp [valueOf, PTy.signed, h]

/-- A write of the seal has no effect beside the banks. -/
theorem State.entryDone_seal (s u : State) {e : Entry} (he : e.id = P.ANC_SEAL) :
    s.entryDone u e = ({ u with par := { u.par with budgetStaged := budgetOf u.par.staged } } : State).settle := by
  have hw : u.writeEffect s e = u := by
    unfold State.writeEffect
    rw [he]
    rfl
  have hq : writesAny qdrIds e = false := by
    unfold writesAny
    rw [he]
    rfl
  unfold State.entryDone
  simp only [hw, hq, Bool.false_eq_true, if_false]

/-- An accepted ANCHOR_SEAL seals, and writes no other active value. -/
theorem anchorSeal_seals {s u : State} {m : Msg} {e : Entry} (h : SetAccepted s u m .seal e) :
    ∃ t, exec .anchorSeal s = .next t ∧ bankGet t.par.active P.ANC_SEAL 0 = .num 1 ∧ bankGet t.par.staged P.ANC_SEAL 0 = .num 1 ∧
      t.pB P.ANC_SEAL = true ∧ (∀ id ix, pkey id ix ≠ pkey P.ANC_SEAL 0 → bankGet t.par.active id ix = bankGet s.par.active id ix) ∧
      t = { s with par := t.par, acm := t.acm, em := t.em, bly := t.bly, tch := t.tch, cas := t.cas, out := t.out } := by
  have ⟨_, _, hr, hu⟩ := h
  obtain ⟨hes, he⟩ := State.setAll_one_ok hu
  obtain ⟨hid, hval⟩ := seal_of_rowOf hes hr
  obtain ⟨t, hexec, hframe, hpar⟩ := exec_set_one (c := .anchorSeal) (by decide) h (by rw [hid]; decide)
  obtain ⟨d, hd, hdid, hcls, hix0, hvalueOf⟩ := paramDef_seal
  obtain ⟨d', hacc, rfl⟩ := State.setEntry_ok he
  obtain rfl : d = d' := Option.some.inj (hd.symm.trans (hid ▸ hacc.row))
  have hwrite : s.par.write d e.ix (valueOf d e.value) = (s.par.setStaged d 0 (.num 1)).setActive d 0 (.num 1) := by
    rw [Par.write_of_immediate _ _ _ (.inr hcls), hix0 _ hacc.index, hvalueOf _ hval]
  rw [hwrite] at hpar
  have hactive : bankGet t.par.active P.ANC_SEAL 0 = .num 1 := by
    simp [hpar, hdid, bankGet_bankSet_same]
  have hheld : assocGet (pkey P.ANC_SEAL 0) t.par.held = none := by
    simp [hpar, hdid, assocGet_del]
  refine ⟨t, hexec, hactive, ?_, ?_, fun id ix hne => ?_, ?_⟩
  · simp [hpar, hdid, bankGet_bankSet_same]
  · rw [State.pB, State.block_of_held_none _ _ _ hheld, hactive]; rfl
  · simp [hpar, hdid, bankGet_bankSet_ne _ _ _ _ _ _ hne]
  · rw [hframe, State.entryDone_seal _ _ hid, State.settle_frame]

/-- With the seal standing, a write of an Anchor limit or of the seal is refused and changes no parameter. -/
theorem sealed_write_refused {c : Instr} {r : SetRow} {s : State} {m : Msg} {e : Entry} {d : ParamDef} (hcr : (c, r) ∈ setRows)
    (hc : s.chosen = some m) (ht : m.typ = typParamSet) (hr : rowOf m.body = r) (hes : messageEntries m.body = .ok [e])
    (ha : e.id ∈ anchorParams) (hd : paramDef e.id = some d) (hx : d.ix.has e.ix = true) (hro : d.cls ≠ .ro)
    (hl : e.value.length = d.len) (hs : s.pB P.ANC_SEAL = true) :
    ∃ t, exec c s = .next t ∧ t = { s with acm := t.acm, cas := t.cas, out := t.out } ∧
      Answered s t m .errAnchorLocked (toBE 2 0 ++ zeros 2 ++ toBE 8 (deviceDigest s.par.accS) ++ toBE 8 (deviceDigest s.par.accA)) :=
  exec_set_refused hcr hc ht hr <|
    State.setAll_one_error hes (hs ▸ State.setEntry_sealed s m.session hd ha hx hro hl)

/-- Settles O23: one lemma per clause, each from the checks' inversion and the rule of the banks. -/
theorem writesReachBanks : Obligations.WritesReachBanks := by
  refine ⟨fun _ _ _ _ _ => paramSet_reaches_banks, fun _ _ _ _ => anchorSeal_seals,
    fun c r s m e d hcr hc ht hr hes ha hd hx hro hl hs => ?_⟩
  have hrows : (c, r) ∈ setRows := by
    have hsub : [(Instr.paramSet, SetRow.plain), (Instr.anchorSeal, SetRow.seal)] ⊆ setRows := by decide
    exact hsub hcr
  exact sealed_write_refused hrows hc ht hr hes ha hd hx hro hl hs

end Sys2Proof.Machine
end

section
/-! PROOF. PARAM_GET of one parameter (00 R14; 03 R146, R149). -/

namespace Sys2Proof.Machine

/-- A chosen PARAM_GET is answered by what `paramGet` finds, and leaves all but the journal, the routes and the output. -/
theorem exec_paramGet {s : State} {m : Msg} {st : Status} {payload : Bytes} (hc : s.chosen = some m) (ht : m.typ = typParamGet)
    (h : paramGet s m = (s, st, payload)) :
    ∃ t, exec .paramGet s = .next t ∧ t = { s with acm := t.acm, cas := t.cas, out := t.out } ∧ Answered s t m st payload := by
  refine ⟨_, runMessage_of_chosen _ _ hc (by simp [isType, ht]), ?_, ?_⟩
  · rw [h]; exact State.finish_eq ..
  · rw [h]; exact State.finish_answered _ _ _ _ _ rfl rfl

/-- Two bytes read of a field of a message are those of the message at the field's place. -/
theorem be16_field (b : Bytes) (i o k : Nat) (h : o + 2 ≤ k) : be16 ((b.drop i).take k) o = be16 b (i + o) := by
  unfold be16 slice
  rw [List.drop_take, List.take_take, List.drop_drop, Nat.min_eq_left (by omega)]

theorem u8_field (b : Bytes) (i o k : Nat) (h : o < k) : u8 ((b.drop i).take k) o = u8 b (i + o) := by
  unfold u8
  simp [List.getElem?_drop, h]

/-- The one entry of a body, read at its places there (03 R149): a known parameter answers its value. -/
theorem State.getEntry_known (s : State) {b : Bytes} {d : ParamDef} (hd : paramDef (be16 b 4) = some d)
    (hx : d.ix.has (be16 b 6) = true) :
    s.getEntry ((b.drop 4).take 8) = some (entryBytes d.id (be16 b 6) (s.readParam d (be16 b 6) (bit (u8 b 8) 0))) := by
  simp only [State.getEntry, be16_field b 4 0 8 (by decide), be16_field b 4 2 8 (by decide), u8_field b 4 4 8 (by decide), hd, hx,
    if_true]

theorem State.getEntry_unknown (s : State) {b : Bytes}
    (h : paramDef (be16 b 4) = none ∨ ∃ d, paramDef (be16 b 4) = some d ∧ d.ix.has (be16 b 6) = false) :
    s.getEntry ((b.drop 4).take 8) = none := by
  rcases h with h | ⟨d, hd, hx⟩
  · simp only [State.getEntry, be16_field b 4 0 8 (by decide), h]
  · simp only [State.getEntry, be16_field b 4 0 8 (by decide), be16_field b 4 2 8 (by decide), hd, hx, Bool.false_eq_true, if_false]

/-- A body of one entry holds that entry and nothing else. -/
theorem chunks_one {b : Bytes} (h : b.length = 12) : chunks 8 1 (b.drop 4) = [(b.drop 4).take 8] := by
  have hne : (b.drop 4).isEmpty = false := by
    rw [List.isEmpty_eq_false_iff, ← List.length_pos_iff, List.length_drop]
    omega
  simp only [chunks, hne, Bool.false_eq_true, if_false]

theorem paramGet_one_found {s : State} {m : Msg} {r : Bytes} (hl : m.body.length = 12) (hn : be16 m.body 0 = 1)
    (hr : s.getEntry ((m.body.drop 4).take 8) = some r) (hlen : r.length ≤ 8188) :
    paramGet s m = (s, .ok, toBE 2 1 ++ zeros 2 ++ r) := by
  have hshort : ¬ 8192 < (toBE 2 1).length + ((zeros 2).length + r.length) := by
    show ¬ 8192 < 2 + (2 + r.length)
    omega
  simp [paramGet, hl, hn, chunks_one hl, hr, hshort]

theorem paramGet_one_missing {s : State} {m : Msg} (hl : m.body.length = 12) (hn : be16 m.body 0 = 1)
    (hr : s.getEntry ((m.body.drop 4).take 8) = none) : paramGet s m = (s, .errParam, toBE 2 0) := by
  simp [paramGet, hl, hn, chunks_one hl, hr]

/-- Settles O26: the entry of the body is looked up once, and `paramGet` answers by what is found. -/
theorem paramGetAnswers : Obligations.ParamGetAnswers := by
  constructor
  · intro s m d hc ht hl hn hd hx hlen
    exact exec_paramGet hc ht (paramGet_one_found hl hn (s.getEntry_known hd hx) hlen)
  · intro s m hc ht hl hn hunknown
    exact exec_paramGet hc ht (paramGet_one_missing hl hn (s.getEntry_unknown hunknown))

end Sys2Proof.Machine
end

section
/-! PROOF. FRAME_PLAN: the edge a plan is checked for and the checks of its sources, then the plan taken or refused (06 R350 to
R357). -/

namespace Sys2Proof.Machine

/-! ### The body of a plan (06 Table 6-9) -/

/-- The sources SRC[0] to SRC[15] that a body names. -/
def planSources (b : Bytes) : List Nat := (List.range 16).map (fun j => be32 b (16 + 4 * j))

/-- The edge a plan becomes active at: its TARGET where that is to come, otherwise the next edge (R357). -/
def State.planEdge (s : State) (b : Bytes) : Nat := if s.tick.count < be64 b 8 then be64 b 8 else s.tick.count + 1

/-- The configuration a plan is checked against: the one active at its edge (R352). -/
def State.planBank (s : State) (b : Bytes) : Bank := s.bankAt (s.planEdge b)

/-- The plan that a body asks for. -/
def State.planAsked (s : State) (b : Bytes) : Plan := ⟨bit (u8 b 1) 0, be32 b 4, be64 b 8, s.planEdge b, planSources b⟩

/-- The length of a plan, and what R351 asks of its HEAD, its reserved fields and the furthest TARGET. -/
structure State.PlanForm (s : State) (b : Bytes) (h : HeadIx) : Prop where
  running     : s.dev ≠ .hold
  length      : b.length = 80
  head        : u8 b 0 = h.1
  flags       : bits (u8 b 1) 7 1 = 0
  reserved    : be16 b 2 = 0
  noWriteback : bit (u8 b 1) 0 = false → be32 b 4 = 0
  near        : be64 b 8 ≤ s.tick.count + 65536

/-- A plan of the right form gives ERR_RANGE no reason (R351). -/
theorem State.PlanForm.inRange {s : State} {b : Bytes} {h : HeadIx} (hf : s.PlanForm b h) :
    ¬ (4 ≤ u8 b 0 ∨ bits (u8 b 1) 7 1 ≠ 0 ∨ be16 b 2 ≠ 0 ∨ (bit (u8 b 1) 0 = false ∧ be32 b 4 ≠ 0) ∨
      s.tick.count + 65536 < be64 b 8) := by
  rintro (hhead | hflags | hres | ⟨hoff, hwb⟩ | hfar)
  · exact absurd h.2 (Nat.not_lt.mpr (hf.head ▸ hhead))
  · exact hflags hf.flags
  · exact hres hf.reserved
  · exact hwb (hf.noWriteback hoff)
  · exact absurd hf.near (Nat.not_le.mpr hfar)

/-- TARGET 0 stands for the next edge, and any other TARGET that is to come for itself. -/
theorem State.planEdge_of_ahead {s : State} {b : Bytes} (ht : be64 b 8 = 0 ∨ s.tick.count < be64 b 8) :
    s.planEdge b = if be64 b 8 = 0 then s.tick.count + 1 else be64 b 8 := by
  unfold State.planEdge
  rcases ht with hzero | hahead
  · simp [hzero]
  · rw [if_pos hahead, if_neg (by omega)]

/-- The reply that names no layer. -/
theorem planReply_noLayer (edge : Nat) : planReply edge 0xFF = toBE 8 edge ++ [0xFF#8, 0#8, 0#8, 0#8] := by
  unfold planReply
  rw [List.append_assoc]
  rfl

/-! ### The sources of a plan (R352, R353) -/

/-- Every source of an enabled layer of a head is admitted against a configuration. -/
def State.SourcesAdmitted (s : State) (k : Bank) (h : Nat) (src : List Nat) : Prop :=
  ∀ j < 16, (layerOf (bkT k P.CMP_LAYER (16 * h + j))).enable = true → src.getD j 0 ≠ 0 →
    s.sourceRefusal k (layerOf (bkT k P.CMP_LAYER (16 * h + j))) (src.getD j 0) = none

/-- The refused sources of a head's enabled layers, each with its layer. -/
def State.planFaults (s : State) (k : Bank) (h : Nat) (src : List Nat) : List (Status × Nat) :=
  (List.range 16).filterMap (fun j =>
    if src.getD j 0 = 0 ∨ (layerOf (bkT k P.CMP_LAYER (16 * h + j))).enable = false then none
    else (s.sourceRefusal k (layerOf (bkT k P.CMP_LAYER (16 * h + j))) (src.getD j 0)).map (fun st => (st, j)))

theorem State.planFaults_of_admitted {s : State} {k : Bank} {h : Nat} {src : List Nat} (hadm : s.SourcesAdmitted k h src) :
    s.planFaults k h src = [] := by
  refine List.filterMap_eq_nil_iff.mpr fun j hj => ?_
  split
  · rfl
  next hused =>
    obtain ⟨hsrc, hen⟩ := not_or.mp hused
    rw [hadm j (List.mem_range.mp hj) (eq_true_of_ne_false hen) hsrc]
    rfl

/-! ### The answer to a plan of the right form (R351 to R356) -/

/-- A plan of the right form is checked for its edge, its head, its sources and its writeback, in this order. -/
theorem framePlan_of_form {s : State} {m : Msg} {h : HeadIx} (hf : s.PlanForm m.body h) :
    framePlan s m =
      if be64 m.body 8 ≠ 0 ∧ be64 m.body 8 ≤ s.tick.count then (s, .errCommitLate, planReply 0 0xFF)
      else if bkN (s.planBank m.body) P.CMP_CLONE h.1 < 4 then (s, .errState, planReply 0 0xFF)
      else match s.planFaults (s.planBank m.body) h.1 (planSources m.body) with
        | (st, j) :: _ => (s, st, planReply 0 j)
        | [] =>
          match (if bit (u8 m.body 1) 0 then s.writebackRefusal (s.planBank m.body) h.1 (be32 m.body 4) (planSources m.body)
            else none) with
          | some st => (s, st, planReply 0 16)
          | none => (s.modComp h (fun x => { x with pend := some (s.planAsked m.body) }), .ok,
              planReply (s.planEdge m.body) 0xFF) := by
  have hix : (Fin.ofNat 4 (u8 m.body 0) : HeadIx) = h := by
    rw [hf.head]
    exact Fin.ofNat_val_eq_self h
  unfold framePlan
  simp only [if_neg hf.running, if_neg (fun hne => hne hf.length : ¬ m.body.length ≠ 80), if_neg hf.inRange, hix]
  rw [hf.head]
  rfl

theorem framePlan_late {s : State} {m : Msg} {h : HeadIx} (hf : s.PlanForm m.body h) (hset : be64 m.body 8 ≠ 0)
    (hpast : be64 m.body 8 ≤ s.tick.count) : framePlan s m = (s, .errCommitLate, planReply 0 0xFF) := by
  rw [framePlan_of_form hf, if_pos ⟨hset, hpast⟩]

/-- A TARGET that is 0 or to come is not late. -/
theorem not_late_of_ahead {c target : Nat} (ht : target = 0 ∨ c < target) : ¬ (target ≠ 0 ∧ target ≤ c) := by omega

theorem framePlan_cloning {s : State} {m : Msg} {h : HeadIx} (hf : s.PlanForm m.body h)
    (ht : be64 m.body 8 = 0 ∨ s.tick.count < be64 m.body 8) (hclone : bkN (s.planBank m.body) P.CMP_CLONE h.1 < 4) :
    framePlan s m = (s, .errState, planReply 0 0xFF) := by
  rw [framePlan_of_form hf, if_neg (not_late_of_ahead ht), if_pos hclone]

theorem framePlan_taken {s : State} {m : Msg} {h : HeadIx} (hf : s.PlanForm m.body h)
    (ht : be64 m.body 8 = 0 ∨ s.tick.count < be64 m.body 8) (hown : 4 ≤ bkN (s.planBank m.body) P.CMP_CLONE h.1)
    (hadm : s.SourcesAdmitted (s.planBank m.body) h.1 (planSources m.body))
    (hwb : bit (u8 m.body 1) 0 = true →
      s.writebackRefusal (s.planBank m.body) h.1 (be32 m.body 4) (planSources m.body) = none) :
    framePlan s m =
      (s.modComp h (fun x => { x with pend := some (s.planAsked m.body) }), .ok, planReply (s.planEdge m.body) 0xFF) := by
  have hwritable : (if bit (u8 m.body 1) 0 then s.writebackRefusal (s.planBank m.body) h.1 (be32 m.body 4) (planSources m.body)
      else none) = none := by
    split
    next hon => exact hwb hon
    · rfl
  rw [framePlan_of_form hf, if_neg (not_late_of_ahead ht), if_neg (Nat.not_lt.mpr hown), State.planFaults_of_admitted hadm]
  simp only [hwritable]

/-! ### The command -/

/-- A chosen FRAME_PLAN is answered by what `framePlan` decides. -/
theorem exec_framePlan {s u : State} {m : Msg} {st : Status} {payload : Bytes} (hc : s.chosen = some m) (ht : m.typ = typPlan)
    (h : framePlan s m = (u, st, payload)) (hacm : u.acm = s.acm) :
    ∃ t, exec .framePlan s = .next t ∧ t = { u with acm := t.acm, cas := t.cas, out := t.out } ∧ Answered s t m st payload := by
  refine ⟨_, runMessage_of_chosen _ _ hc (by simp [isType, ht]), ?_, ?_⟩
  · rw [h]; exact State.finish_eq ..
  · rw [h]; exact State.finish_answered _ _ _ _ _ (by rw [hacm]) (by rw [hacm])

/-- A plan of the right form that every check admits becomes its head's pending plan (R356, R357). -/
theorem exec_framePlan_taken {s : State} {m : Msg} {h : HeadIx} (hc : s.chosen = some m) (hty : m.typ = typPlan)
    (hf : s.PlanForm m.body h) (ht : be64 m.body 8 = 0 ∨ s.tick.count < be64 m.body 8)
    (hown : 4 ≤ bkN (s.planBank m.body) P.CMP_CLONE h.1)
    (hadm : s.SourcesAdmitted (s.planBank m.body) h.1 (planSources m.body))
    (hwb : bit (u8 m.body 1) 0 = true →
      s.writebackRefusal (s.planBank m.body) h.1 (be32 m.body 4) (planSources m.body) = none) :
    ∃ t, exec .framePlan s = .next t ∧ t = { s with comp := t.comp, acm := t.acm, cas := t.cas, out := t.out } ∧
      t.comp[h] = { s.comp[h] with pend := some (s.planAsked m.body) } ∧ (∀ k : HeadIx, k ≠ h → t.comp[k] = s.comp[k]) ∧
      Answered s t m .ok (toBE 8 (s.planEdge m.body) ++ [0xFF#8, 0#8, 0#8, 0#8]) := by
  obtain ⟨t, hexec, hframe, hans⟩ := exec_framePlan hc hty (framePlan_taken hf ht hown hadm hwb) rfl
  have hcomp : t.comp = vmod s.comp h (fun x => { x with pend := some (s.planAsked m.body) }) := by
    rw [hframe]
    rfl
  refine ⟨t, hexec, ?_, ?_, fun k hk => ?_, planReply_noLayer _ ▸ hans⟩
  · rw [hcomp]
    exact hframe
  · rw [hcomp, vmod_get, if_pos rfl]
  · rw [hcomp, vmod_get, if_neg hk.symm]

/-- Settles O33: a plan of the right form meets its checks in their order, and each clause is one outcome of them. -/
theorem plansAreTaken : Obligations.PlansAreTaken := by
  intro s m h src edge hc hty hdev hlen hhead hflags hres hnowb hnear hsrc hedge
  have hf : s.PlanForm m.body h := ⟨hdev, hlen, hhead, hflags, hres, hnowb, hnear⟩
  have hplanEdge : be64 m.body 8 = 0 ∨ s.tick.count < be64 m.body 8 → s.planEdge m.body = edge :=
    fun ht => (State.planEdge_of_ahead ht).trans hedge.symm
  obtain rfl : src = planSources m.body := hsrc
  refine ⟨fun ht hown hadm hwb => ?_, fun hset hpast => ?_, fun ht hclone => ?_⟩
  · obtain rfl := hplanEdge ht
    exact exec_framePlan_taken hc hty hf ht hown hadm hwb
  · exact planReply_noLayer 0 ▸ exec_framePlan hc hty (framePlan_late hf hset hpast) rfl
  · obtain rfl := hplanEdge ht
    exact planReply_noLayer 0 ▸ exec_framePlan hc hty (framePlan_cloning hf ht hclone) rfl

end Sys2Proof.Machine
end

section
/-! PROOF. What a codec job reads and writes: memory with the device's handling of its errors, never a parameter, the queue of
messages or another block (05 R253 to R268; 07 R398 to R402). -/

namespace Sys2Proof.Machine

/-! ### What reading and writing memory may change -/

/-- The state less what reading memory may change: what it notes of errors, with the primary copies it restores, the free values
drawn, the surfaces' error counts, the sessions' events and what leaves the device. The normal region's bytes stay. -/
def State.sansRead (s : State) : State :=
  { s with
    free := 0
    acm := { s.acm with sess := (Acm.reset 0).sess }
    mem := { Mem.reset with normal := s.mem.normal }
    surf := SurfTab.reset
    out := [] }

/-- The state less what reading and writing memory may change. -/
def State.sansAccess (s : State) : State := { s.sansRead with mem := Mem.reset }

theorem State.sansAccess_of_sansRead {s t : State} (h : t.sansRead = s.sansRead) : t.sansAccess = s.sansAccess :=
  congrArg (fun u : State => { u with mem := Mem.reset }) h

theorem State.normal_of_sansRead {s t : State} (h : t.sansRead = s.sansRead) : t.mem.normal = s.mem.normal :=
  (congrArg (fun u : State => u.mem.normal) h :)

theorem State.eq_of_sansAccess {s t : State} (h : t.sansAccess = s.sansAccess) :
    t = { s with free := t.free, acm := t.acm, mem := t.mem, surf := t.surf, out := t.out } := by
  cases s; cases t; simp_all [State.sansAccess, State.sansRead]

/-- Reading and writing memory leaves the messages that wait. -/
theorem State.queue_of_sansAccess {s t : State} (h : t.sansAccess = s.sansAccess) :
    t.acm.intent = s.acm.intent ∧ t.acm.accepted = s.acm.accepted :=
  ⟨(congrArg (fun u : State => u.acm.intent) h :), (congrArg (fun u : State => u.acm.accepted) h :)⟩

/-! ### Errors (05 R253, R258, R266) -/

theorem State.sendEvent_sansRead (s : State) (q : SessIx) (e : QEvent) : (s.sendEvent q e).sansRead = s.sansRead := by
  unfold State.sendEvent
  dsimp only
  split
  · rfl
  · rw [State.sendAcm_frame]; rfl

theorem State.raiseFor_sansRead (s : State) (q : SessIx) (code : Nat) (d : Bytes) :
    (s.raiseFor q code d).sansRead = s.sansRead := by
  unfold State.raiseFor
  dsimp only
  split
  · rfl
  · split
    · rfl
    · split
      · rfl
      · rw [State.sendEvent_sansRead]; rfl

theorem State.raise_sansRead (s : State) (code : Nat) (d : Bytes) : (s.raise code d).sansRead = s.sansRead :=
  foldl_keeps State.sansRead _ (fun s q => State.raiseFor_sansRead s q code d) _ s

theorem State.memEvent_sansRead (s : State) (unit : Fin 6) (e : Bytes) : (s.memEvent unit e).sansRead = s.sansRead := by
  have hraise := State.raise_sansRead s evMemUncorr e
  unfold State.memEvent
  generalize s.raise evMemUncorr e = u at hraise ⊢
  split
  · exact hraise
  · rfl

theorem State.modSurf_sansRead (s : State) (ix : Nat) (f : Surf → Surf) : (s.modSurf ix f).sansRead = s.sansRead := by
  unfold State.modSurf
  split <;> rfl

theorem State.uncorrectable_sansRead (s : State) (kind : Nat) (c : Copy) (word : Nat) (who : Requester) :
    (s.uncorrectable kind c word who).sansRead = s.sansRead := by
  unfold State.uncorrectable
  dsimp only
  rw [State.memEvent_sansRead]
  split
  · rfl
  · exact State.modSurf_sansRead ..

/-! ### Reading (05 R253, R257, R266) -/

theorem State.readBurst_sansRead (s : State) (pool : Bool) (a n : Nat) (who : Requester) :
    (s.readBurst pool a n who).1.sansRead = s.sansRead := by
  unfold State.readBurst
  split
  case h_1 => rfl
  case h_2 => rfl
  case h_3 => exact State.uncorrectable_sansRead ..
  case h_4 => rfl

theorem State.readMem_sansRead (s : State) (pool : Bool) (a n : Nat) (who : Requester) :
    (s.readMem pool a n who).1.sansRead = s.sansRead :=
  foldl_keeps (fun x : State × Bytes × Nat => x.1.sansRead) _
    (fun x p => State.readBurst_sansRead x.1 pool p.1 p.2 who) _ _

/-! ### Writing (05 R254, R265) -/

theorem State.writeCopy_sansAccess (s : State) (c : Copy) (a : Nat) (d : Bytes) (who : Requester) :
    (s.writeCopy c a d who).sansAccess = s.sansAccess := by
  unfold State.writeCopy
  dsimp only
  split
  · rfl
  · split
    · rfl
    · rw [State.sansAccess_of_sansRead (State.uncorrectable_sansRead ..)]; rfl

theorem State.writeBurst_sansAccess (s : State) (pool : Bool) (a : Nat) (d : Bytes) (who : Requester) :
    (s.writeBurst pool a d who).sansAccess = s.sansAccess := by
  unfold State.writeBurst
  split
  · rw [State.writeCopy_sansAccess, State.writeCopy_sansAccess]
  · exact State.writeCopy_sansAccess ..

theorem State.writeMem_sansAccess (s : State) (pool : Bool) (a : Nat) (d : Bytes) (who : Requester) :
    (s.writeMem pool a d who).sansAccess = s.sansAccess :=
  foldl_keeps State.sansAccess _ (fun s _ => State.writeBurst_sansAccess s pool _ _ who) _ s

/-! ### Tiles (07 R389, R398 to R402) -/

theorem State.readPacked_sansRead (s : State) (x : Surf) (t : Nat) : (s.readPacked x t).1.sansRead = s.sansRead := by
  refine foldl_keeps (fun y : State × List Nat × Nat => y.1.sansRead) _ (fun y row => ?_) _ _
  dsimp only
  split
  · exact State.readMem_sansRead ..
  · rfl

theorem State.readCoded_sansRead (s : State) (x : Surf) (t : Nat) : (s.readCoded x t).1.sansRead = s.sansRead := by
  have hread (s : State) (a n : Nat) : (s.readMem x.pool a n .codec).1.sansRead = s.sansRead := State.readMem_sansRead ..
  unfold State.readCoded
  dsimp only
  split
  · exact hread ..
  · split
    · exact hread ..
    · split
      · rw [hread, hread]
      · split
        · rw [hread, hread]
        · split
          · rw [hread, hread, hread]
          · split <;> rw [hread, hread, hread]

theorem State.writeTile_sansAccess (s : State) (y : Surf) (l : List Piece) : (s.writeTile y l).1.sansAccess = s.sansAccess := by
  unfold State.writeTile
  dsimp only
  split
  · rfl
  · split
    · exact State.sansAccess_of_sansRead (State.uncorrectable_sansRead ..)
    · refine foldl_keeps State.sansAccess _ (fun s p => ?_) l s
      exact State.writeMem_sansAccess s y.pool p.1 p.2 .codec

/-- VERIFY only reads (R402). -/
theorem State.jobTile_verify_sansRead (s : State) {j : Job} (x y : Surf) (w : Transfer) (r : JobRun) (t : Nat)
    (hj : j.op = .verify) : (s.jobTile j x y w r t).1.sansRead = s.sansRead := by
  have hcoded := s.readCoded_sansRead x t
  unfold State.jobTile
  simp only [hj]
  split
  · rfl
  · split
    · rfl
    · split
      next h => rw [← hcoded, h]
      next h => rw [← hcoded, h]
      next h => rw [← hcoded, h]

theorem State.jobTile_sansAccess (s : State) (j : Job) (x y : Surf) (w : Transfer) (r : JobRun) (t : Nat) :
    (s.jobTile j x y w r t).1.sansAccess = s.sansAccess := by
  by_cases hv : j.op = .verify
  · exact State.sansAccess_of_sansRead (s.jobTile_verify_sansRead x y w r t hv)
  have hpacked := State.sansAccess_of_sansRead (s.readPacked_sansRead x t)
  have hcoded := State.sansAccess_of_sansRead (s.readCoded_sansRead x t)
  unfold State.jobTile
  extract_lets stop firstBad put lost
  have hstop (s : State) (st : Status) : (stop s st).1 = s := rfl
  have hput (s : State) (l : List Piece) (r' : JobRun) : (put s l r').1.sansAccess = s.sansAccess := by
    simp only [put]
    split
    · exact State.writeTile_sansAccess ..
    · exact State.writeTile_sansAccess ..
  clear_value stop put lost
  split
  · rfl
  · split
    · rw [hstop]
    · split
      case h_1 =>
        dsimp only
        split
        · rw [hstop, hpacked]
        · split
          · rw [hstop, hpacked]
          · rw [hput, hpacked]
      case h_2 =>
        split
        next h => rw [hstop, ← hcoded, h]
        next h => rw [hput, ← hcoded, h]
        next h => rw [hput, ← hcoded, h]
      case h_3 hop => exact absurd hop hv

end Sys2Proof.Machine
end

section
/-! PROOF. An accepted codec job: its run over the tiles, ATC_RESULT and the counters, and the message it completes (07 R396 to
R406). -/

namespace Sys2Proof.Machine

/-! ### Little-endian fields (00 R20) -/

theorem length_toLE (n v : Nat) : (toLE n v).length = n := by
  induction n generalizing v with
  | zero => rfl
  | succ n ih => rw [toLE, List.length_cons, ih]

/-- The bytes of a number spell it, as far as they reach. -/
theorem natLE_toLE (n v : Nat) : natLE (toLE n v) = v % 256 ^ n := by
  induction n generalizing v with
  | zero => rw [Nat.pow_zero, Nat.mod_one]; rfl
  | succ n ih =>
    have hcons : natLE (toLE (n + 1) v) = natLE (toLE n (v / 256)) * 256 + v % 256 := by
      simp [toLE, natLE, byteOf]
    rw [hcons, ih, Nat.pow_succ', Nat.mod_mul]
    omega

/-- A field of `n` bytes is read where it was put. -/
theorem natLE_slice_toLE {a : Bytes} {o : Nat} (h : a.length = o) (n v : Nat) (b : Bytes) :
    natLE (slice (a ++ toLE n v ++ b) o n) = v % 256 ^ n := by
  unfold slice
  rw [List.append_assoc, List.drop_left' h, List.take_left' (length_toLE n v), natLE_toLE]

/-! ### The checks of a job (R396, R397) -/

/-- The surfaces of a job that no check refuses: where its operands come from, and where its result goes; VERIFY has the one. -/
structure State.JobReady (s : State) (b : Bytes) (j : Job) (x y : Surf) : Prop where
  job : jobOf b = some j
  src : ∃ i, s.surface j.src = some (i, x)
  dst : ∃ i, s.surface (if j.op = .verify then j.src else j.dst) = some (i, y)

theorem State.jobReady_of_accepted {s : State} {q : SessIx} {b : Bytes} (h : s.jobRefusal q b = none) :
    ∃ j x y, s.JobReady b j x y := by
  unfold State.jobRefusal at h
  split at h
  · cases h
  · split at h
    · cases h
    next j hj =>
      extract_lets src dst nt early at h
      clear_value nt early
      split at h
      · cases h
      · split at h
        next i x k y hx hy => exact ⟨j, x, y, hj, ⟨i, hx⟩, k, (apply_ite s.surface ..).trans hy⟩
        · cases h

/-- Which surfaces a job has is a matter of the surface table. -/
theorem State.JobReady.of_surf {s t : State} {b : Bytes} {j : Job} {x y : Surf} (h : s.JobReady b j x y) (hs : t.surf = s.surf) :
    t.JobReady b j x y := by
  have hsurface (n : Nat) : t.surface n = s.surface n := by
    unfold State.surface
    rw [hs]
  obtain ⟨hjob, hsrc, hdst⟩ := h
  exact ⟨hjob, by rwa [hsurface], by rwa [hsurface]⟩

theorem jobOf_verify {b : Bytes} {j : Job} (h : jobOf b = some j) (hop : u8 b 0 = 2) : j.op = .verify := by
  unfold jobOf at h
  rw [hop] at h
  dsimp only at h
  split at h
  · cases h
  · rw [← Option.some.inj h]

/-! ### The run (R398 to R402) -/

/-- The run of a job over its tiles in order. -/
def State.jobTiles (s : State) (j : Job) (x y : Surf) : State × JobRun :=
  (List.range j.count).foldl (fun (s, r) i => s.jobTile j x y (y.writer.getD ⟨0, 0, 0, 0⟩) r (j.first + i))
    (s, ⟨0, 0, 0, none, if j.op = .compress then j.dataOff else 0, none⟩)

theorem State.jobTiles_sansAccess (s : State) (j : Job) (x y : Surf) : (s.jobTiles j x y).1.sansAccess = s.sansAccess :=
  foldl_keeps (fun z : State × JobRun => z.1.sansAccess) _ (fun z i => z.1.jobTile_sansAccess j x y _ z.2 (j.first + i)) _ _

theorem State.jobTiles_verify_normal (s : State) {j : Job} (x y : Surf) (hj : j.op = .verify) :
    (s.jobTiles j x y).1.mem.normal = s.mem.normal :=
  State.normal_of_sansRead <|
    foldl_keeps (fun z : State × JobRun => z.1.sansRead) _
      (fun z i => z.1.jobTile_verify_sansRead x y _ z.2 (j.first + i) hj) _ _

/-! ### The result (R403 to R406, Table 7-10) -/

/-- ATC_RESULT and the counters after a job. -/
def Codec.reported (c : Codec) (j : Job) (r : JobRun) (seq crc : Nat) : Codec where
  result := toLE 2 (jobStatus j r).code ++ zeros 2 ++ toLE 4 seq ++ toLE 4 r.done ++ toLE 4 r.raw ++ toLE 4 r.failed ++
    toLE 4 (r.firstBad.getD 0xFFFFFFFF) ++ toLE 4 r.next ++ toLE 4 crc
  jobs := inc 64 c.jobs
  raw := inc 64 c.raw r.raw
  failed := inc 32 c.failed r.failed

theorem Status.code_lt (st : Status) : st.code < 256 ^ 2 := by cases st <;> decide

theorem Codec.reported_status (c : Codec) (j : Job) (r : JobRun) (seq crc : Nat) :
    le16 (c.reported j r seq crc).result 0 = (jobStatus j r).code := by
  have hread := natLE_slice_toLE (a := []) rfl 2 (jobStatus j r).code
  unfold Codec.reported
  simp only [List.append_assoc]
  exact (hread _).trans (Nat.mod_eq_of_lt (Status.code_lt _))

theorem Codec.reported_seq (c : Codec) (j : Job) (r : JobRun) (seq crc : Nat) :
    le32 (c.reported j r seq crc).result 4 = seq % 2 ^ 32 := by
  have hread := natLE_slice_toLE (a := toLE 2 (jobStatus j r).code ++ zeros 2) rfl 4 seq
  simp only [List.append_assoc] at hread
  unfold Codec.reported
  simp only [List.append_assoc]
  exact hread _

/-- A job with its surfaces runs over its tiles, and its result is written. -/
theorem State.runJob_of_ready {s : State} {b : Bytes} {j : Job} {x y : Surf} (h : s.JobReady b j x y) (seq : Nat) :
    ∃ crc, s.runJob b seq =
      ({ (s.jobTiles j x y).1 with codec := s.codec.reported j (s.jobTiles j x y).2 seq crc },
        jobStatus j (s.jobTiles j x y).2) := by
  obtain ⟨hj, ⟨i, hx⟩, k, hy⟩ := h
  have hcodec : (s.jobTiles j x y).1.codec = s.codec := by
    rw [State.eq_of_sansAccess (s.jobTiles_sansAccess j x y)]
  rw [← hcodec]
  unfold State.runJob
  simp only [hj, hx, hy]
  exact ⟨_, rfl⟩

/-- What a job leaves beside memory and the device's handling of its errors: the result with its status, and one job counted. -/
theorem State.runJob_codec {s : State} {b : Bytes} {j : Job} {x y : Surf} (h : s.JobReady b j x y) (seq : Nat) :
    le16 (s.runJob b seq).1.codec.result 0 = (s.runJob b seq).2.code ∧
      le32 (s.runJob b seq).1.codec.result 4 = seq % 2 ^ 32 ∧ (s.runJob b seq).1.codec.jobs = inc 64 s.codec.jobs := by
  obtain ⟨crc, hrun⟩ := State.runJob_of_ready h seq
  rw [hrun]
  exact ⟨Codec.reported_status .., Codec.reported_seq .., rfl⟩

theorem State.runJob_frame {s : State} {b : Bytes} {j : Job} {x y : Surf} (h : s.JobReady b j x y) (seq : Nat) :
    (s.runJob b seq).1 = { s with
      free := (s.runJob b seq).1.free
      acm := (s.runJob b seq).1.acm
      mem := (s.runJob b seq).1.mem
      surf := (s.runJob b seq).1.surf
      codec := (s.runJob b seq).1.codec
      out := (s.runJob b seq).1.out } := by
  obtain ⟨crc, hrun⟩ := State.runJob_of_ready h seq
  rw [hrun, State.eq_of_sansAccess (s.jobTiles_sansAccess j x y)]

/-- A job leaves the messages that wait. -/
theorem State.runJob_queue {s : State} {b : Bytes} {j : Job} {x y : Surf} (h : s.JobReady b j x y) (seq : Nat) :
    (s.runJob b seq).1.acm.intent = s.acm.intent ∧ (s.runJob b seq).1.acm.accepted = s.acm.accepted := by
  obtain ⟨crc, hrun⟩ := State.runJob_of_ready h seq
  obtain ⟨hintent, haccepted⟩ := State.queue_of_sansAccess (s.jobTiles_sansAccess j x y)
  rw [hrun]
  exact ⟨hintent, haccepted⟩

theorem State.runJob_verify_normal {s : State} {b : Bytes} {j : Job} {x y : Surf} (h : s.JobReady b j x y) (seq : Nat)
    (hj : j.op = .verify) : (s.runJob b seq).1.mem.normal = s.mem.normal := by
  obtain ⟨crc, hrun⟩ := State.runJob_of_ready h seq
  rw [hrun]
  exact s.jobTiles_verify_normal x y hj

/-! ### The message (R396, R403) -/

/-- A PARAM_SET of an accepted ATC_JOB: the job runs, and its status is the message's. -/
theorem paramSet_job {s u : State} {m : Msg} {e : Entry} (h : s.setAll m.session m.body = .ok (u, [e])) (hj : e.id = P.ATC_JOB) :
    paramSet s m =
      (let w := (s.entryDone u e).runJob e.value m.seq
       (w.1, w.2, w.1.setReply 0xFFFF)) := by
  unfold paramSet
  simp only [h, List.foldl_cons, List.foldl_nil, List.any_cons, List.any_nil, Bool.or_false, hj, if_true]
  rfl

/-- A write of ATC_JOB has no effect beside the banks before its job runs. -/
theorem State.entryDone_job (s u : State) {e : Entry} (he : e.id = P.ATC_JOB) :
    s.entryDone u e = ({ u with par := { u.par with budgetStaged := budgetOf u.par.staged } } : State).settle := by
  have hw : u.writeEffect s e = u := by
    unfold State.writeEffect
    rw [he]
    rfl
  have hq : writesAny qdrIds e = false := by
    unfold writesAny
    rw [he]
    rfl
  unfold State.entryDone
  simp only [hw, hq, Bool.false_eq_true, if_false]

/-- The row of a job writes ATC_JOB with the job's operation. -/
theorem job_of_rowOf {b : Bytes} {e : Entry} {op : Nat} (h : messageEntries b = .ok [e]) (hr : rowOf b = .job op) :
    e.id = P.ATC_JOB ∧ u8 e.value 0 = op := by
  rw [rowOf_one h] at hr
  by_cases hjob : e.id = P.ATC_JOB ∧ u8 e.value 0 ≤ 2
  · rw [if_pos hjob] at hr
    exact ⟨hjob.1, SetRow.job.inj hr⟩
  · rw [if_neg hjob] at hr
    revert hr
    repeat' split
    all_goals exact fun hr => SetRow.noConfusion hr

/-- The state a job runs from is the one with its entry written, but for the budget and what settling may note. -/
theorem State.entryDone_job_frame (s u : State) {e : Entry} (he : e.id = P.ATC_JOB) :
    s.entryDone u e = { u with
      par := (s.entryDone u e).par, em := (s.entryDone u e).em, tch := (s.entryDone u e).tch, bly := (s.entryDone u e).bly } := by
  rw [State.entryDone_job s u he, State.settle_frame]

/-- The rows of the codec's commands: each has its operation, and VERIFY has 2 (Table 7-6). -/
theorem jobRow {c : Instr} {r : SetRow}
    (h : (c, r) ∈ [(Instr.compress, SetRow.job 0), (Instr.decompress, SetRow.job 1), (Instr.verify, SetRow.job 2)]) :
    ∃ op, r = .job op ∧ (c, .job op) ∈ setRows ∧ (c = .verify → op = 2) := by
  simp only [List.mem_cons, List.not_mem_nil, or_false, Prod.mk.injEq] at h
  rcases h with ⟨rfl, rfl⟩ | ⟨rfl, rfl⟩ | ⟨rfl, rfl⟩
  · exact ⟨0, rfl, by decide, Instr.noConfusion⟩
  · exact ⟨1, rfl, by decide, Instr.noConfusion⟩
  · exact ⟨2, rfl, by decide, fun _ => rfl⟩

/-- An accepted job runs from the state with its entry written, and its status completes the message. -/
theorem exec_job {c : Instr} {op : Nat} {s u : State} {m : Msg} {e : Entry} {j : Job} {x y : Surf}
    (hcr : (c, .job op) ∈ setRows) (h : SetAccepted s u m (.job op) e) (hid : e.id = P.ATC_JOB)
    (hready : (s.entryDone u e).JobReady e.value j x y) (hacm : u.acm = s.acm) :
    let w := (s.entryDone u e).runJob e.value m.seq
    ∃ t, exec c s = .next t ∧ t = { w.1 with acm := t.acm, cas := t.cas, out := t.out } ∧
      Answered s t m w.2 (toBE 2 0xFFFF ++ zeros 2 ++ toBE 8 (deviceDigest u.par.accS) ++ toBE 8 (deviceDigest u.par.accA)) := by
  intro w
  obtain ⟨hc, ht, hr, hu⟩ := h
  have hpar : w.1.par = { u.par with budgetStaged := budgetOf u.par.staged } := by
    rw [State.runJob_frame hready, State.entryDone_par]
  have hstart : (s.entryDone u e).acm = s.acm := by
    rw [State.entryDone_job_frame s u hid, hacm]
  obtain ⟨hintent, haccepted⟩ := State.runJob_queue hready m.seq
  rw [hstart] at hintent haccepted
  have hreply : w.1.setReply 0xFFFF =
      toBE 2 0xFFFF ++ zeros 2 ++ toBE 8 (deviceDigest u.par.accS) ++ toBE 8 (deviceDigest u.par.accA) := by
    unfold State.setReply
    rw [hpar]
  refine ⟨_, exec_set_of_chosen hcr hc ht hr, ?_, ?_⟩
  · rw [paramSet_job hu hid]
    exact State.finish_eq ..
  · rw [paramSet_job hu hid, ← hreply]
    exact State.finish_answered _ _ _ _ _ hintent haccepted

/-- Settles O25: the checks give the job its surfaces, its run keeps all but memory and the handling of its errors, and the
report is what the run writes. -/
theorem codecJobsReport : Obligations.CodecJobsReport := by
  intro c r s u m e hcr h
  obtain ⟨op, rfl, hrows, hop⟩ := jobRow hcr
  have ⟨_, _, hr, hu⟩ := h
  obtain ⟨hes, he⟩ := State.setAll_one_ok hu
  obtain ⟨hid, hcode⟩ := job_of_rowOf hes hr
  obtain ⟨d, hacc, hwritten⟩ := State.setEntry_ok he
  have hstart := State.entryDone_job_frame s u hid
  obtain ⟨j, x, y, hbefore⟩ := State.jobReady_of_accepted (hacc.job hid)
  have hready : (s.entryDone u e).JobReady e.value j x y := hbefore.of_surf (by rw [hstart, hwritten])
  obtain ⟨t, hexec, hframe, hans⟩ := exec_job hrows h hid hready (by rw [hwritten])
  obtain ⟨hstatus, hseq, hjobs⟩ := State.runJob_codec hready m.seq
  have hrun := State.runJob_frame hready m.seq
  have hcodec : t.codec = ((s.entryDone u e).runJob e.value m.seq).1.codec := by rw [hframe]
  have hmem : t.mem = ((s.entryDone u e).runJob e.value m.seq).1.mem := by rw [hframe]
  have hpar : t.par = { u.par with budgetStaged := budgetOf u.par.staged } := by
    rw [hframe, ← State.entryDone_par s u e, hrun]
  refine ⟨t, j, hexec, hready.job, ?_, ?_, ?_, ?_, ?_, ?_, fun hv a => ?_⟩
  · rw [← State.entryDone_job s u hid]
    exact ⟨hmem, by rw [hframe], hcodec, hcodec ▸ hstatus, hans⟩
  · rw [hframe, hrun, hstart, hwritten]
  · rw [hcodec, hjobs, hstart, hwritten]
  · rw [hcodec, hseq]
  · rw [hpar]
  · rw [hpar]
  · rw [hmem, State.runJob_verify_normal hready m.seq (jobOf_verify hready.job (hcode.trans (hop hv))), hstart, hwritten]

end Sys2Proof.Machine
end

section
/-! PROOF. Fixed arrays changed at one entry, once or once at each entry of a list. -/

namespace Sys2Proof.Machine

theorem vmod_same {α : Type} {n : Nat} (v : Vector α n) (i : Fin n) (f : α → α) : (vmod v i f)[i] = f v[i] := by
  rw [vmod_get, if_pos rfl]

theorem vmod_other {α : Type} {n : Nat} (v : Vector α n) {i k : Fin n} (f : α → α) (h : k ≠ i) : (vmod v i f)[k] = v[k] := by
  rw [vmod_get, if_neg h.symm]

@[simp] theorem vmod_vmod {α : Type} {n : Nat} (v : Vector α n) (i : Fin n) (f g : α → α) :
    vmod (vmod v i f) i g = vmod v i (fun a => g (f a)) := by
  unfold vmod
  simp

/-- Only what a change makes of its entry matters. -/
theorem vmod_congr {α : Type} {n : Nat} {v : Vector α n} {i : Fin n} {f g : α → α} (h : f v[i] = g v[i]) :
    vmod v i f = vmod v i g := by
  unfold vmod
  rw [h]

/-- A change that leaves the entry as it is leaves the array. -/
theorem vmod_of_fixed {α : Type} {n : Nat} {v : Vector α n} {i : Fin n} {f : α → α} (h : f v[i] = v[i]) : vmod v i f = v := by
  unfold vmod
  rw [h]
  simp

/-- A fold that changes one entry at a time, each at most once, changes the entries of its list. -/
theorem foldl_vmod {σ α : Type} {n : Nat} (p : σ → Vector α n) (Inv : σ → Prop) {f : σ → Fin n → σ} {F : Fin n → α → α}
    (hInv : ∀ s c, Inv s → Inv (f s c)) (hf : ∀ s c, Inv s → p (f s c) = vmod (p s) c (F c)) {l : List (Fin n)}
    (hl : l.Nodup) {s : σ} (hs : Inv s) (d : Fin n) :
    (p (l.foldl f s))[d] = if d ∈ l then F d (p s)[d] else (p s)[d] := by
  induction l generalizing s with
  | nil => rfl
  | cons c r ih =>
    obtain ⟨hc, hr⟩ := List.nodup_cons.mp hl
    rw [List.foldl_cons, ih hr (hInv s c hs), hf s c hs]
    by_cases hd : d = c
    · subst hd
      rw [if_neg hc, if_pos (List.mem_cons_self ..), vmod_same]
    · rw [vmod_other _ _ hd]
      simp only [List.mem_cons, hd, false_or]

/-- The channels of a group are listed once each. -/
theorem chansOf_nodup (b : Bank) (h role : Nat) : (chansOf b h role).Nodup := (List.nodup_finRange 48).filter _

theorem boundTo_nodup (b : Bank) (h : Nat) : (boundTo b h).Nodup := (List.nodup_finRange 48).filter _

end Sys2Proof.Machine
end

section
/-! PROOF. One pulse of a channel (11 R539 to R541, R547, R577). -/

namespace Sys2Proof.Machine

/-- A channel after its pulse: where it is enabled it loads the other core, with the code limited to `m`, 0 too early. -/
def Emit.pulsed (e : Emit) (m base code : Nat) (start : Int) (len gain : Nat) : Emit :=
  match e.en with
  | none => e
  | some t =>
    if len = 0 then e
    else
      let asked := if tooEarly t base start then 0 else code
      { e with
        clamps := if m < asked then inc 32 e.clamps else e.clamps
        sums := { e.sums with e := e.sums.e + min asked m * len * gain }
        cores := vset e.cores (e.core + 1) (min asked m)
        core := e.core + 1 }

theorem Emit.pulsed_of_disabled {e : Emit} (h : e.en = none) (m base code : Nat) (start : Int) (len gain : Nat) :
    e.pulsed m base code start len gain = e := by
  unfold Emit.pulsed
  rw [h]

@[simp] theorem Emit.pulsed_en (e : Emit) (m base code : Nat) (start : Int) (len gain : Nat) :
    (e.pulsed m base code start len gain).en = e.en := by
  unfold Emit.pulsed
  split
  · rfl
  · split <;> rfl

@[simp] theorem Emit.pulsed_probes (e : Emit) (m base code : Nat) (start : Int) (len gain : Nat) :
    (e.pulsed m base code start len gain).probes = e.probes := by
  unfold Emit.pulsed
  split
  · rfl
  · split <;> rfl

@[simp] theorem Emit.pulsed_probeDue (e : Emit) (m base code : Nat) (start : Int) (len gain : Nat) :
    (e.pulsed m base code start len gain).probeDue = e.probeDue := by
  unfold Emit.pulsed
  split
  · rfl
  · split <;> rfl

/-- An enabled channel loads its other core (R540), with 0 within 10 us of the enable (R547). -/
theorem Emit.pulsed_cores {e : Emit} {t : Nat} (h : e.en = some t) (m base code : Nat) (start : Int) {len : Nat} (hl : len ≠ 0)
    (gain : Nat) :
    (e.pulsed m base code start len gain).core = e.core + 1 ∧
      (e.pulsed m base code start len gain).cores[e.core + 1] = if tooEarly t base start then 0 else min code m := by
  unfold Emit.pulsed
  simp only [h, if_neg hl, vset_get, if_true, true_and]
  split
  · exact Nat.zero_min m
  · rfl

/-- Limiting a code takes the smaller one, and counts where it reduces (R577). -/
theorem State.limitCode_eq (s : State) (c : ChanIx) (code : Nat) :
    s.limitCode c code = (s.modEm c (fun e => { e with
      clamps := if s.pN P.EMT_MAXCODE c.1 < code then inc 32 e.clamps else e.clamps }), min code (s.pN P.EMT_MAXCODE c.1)) := by
  unfold State.limitCode
  dsimp only
  split
  next h => rw [Nat.min_eq_right (Nat.le_of_lt h)]
  next h =>
    have hsame : s.modEm c (fun e => e) = s := by
      unfold State.modEm
      rw [vmod_of_fixed rfl]
    rw [Nat.min_eq_left (Nat.le_of_not_lt h), hsame]

theorem State.modEm_modEm (s : State) (c : ChanIx) (f g : Emit → Emit) :
    (s.modEm c f).modEm c g = s.modEm c (fun e => g (f e)) := by
  unfold State.modEm
  simp only [vmod_vmod]

theorem State.modEm_congr {s : State} {c : ChanIx} {f g : Emit → Emit} (h : f s.em[c] = g s.em[c]) :
    s.modEm c f = s.modEm c g := by
  unfold State.modEm
  rw [vmod_congr h]

/-- A pulse of an enabled channel: what it makes of the channel, and what leaves unless the code is 0. -/
theorem State.pulse_of_enabled {s : State} {c : ChanIx} {t : Nat} (h : (s.em[c]).en = some t) {base code sent : Nat} {start : Int}
    (hsent : sent = min (if tooEarly t base start then 0 else code) (s.pN P.EMT_MAXCODE c.1)) {len : Nat} (hl : len ≠ 0)
    (gain : Nat) :
    s.pulse c base code start len gain =
      let u := s.modEm c (fun e => e.pulsed (s.pN P.EMT_MAXCODE c.1) base code start len gain)
      if sent = 0 then u else u.emit (.pulse c ((s.em[c]).core + 1) sent start len) := by
  subst hsent
  unfold State.pulse
  simp only [h, if_neg hl, State.limitCode_eq, State.modEm_modEm, State.modEm_em, vmod_same]
  rw [State.modEm_congr]
  unfold Emit.pulsed
  simp only [h, if_neg hl]

/-- What a pulse makes of the channels; beside them it writes what leaves. -/
theorem State.pulse_frame (s : State) (c : ChanIx) (base code : Nat) (start : Int) (len gain : Nat) :
    s.pulse c base code start len gain = { s with
      em := vmod s.em c (fun e => e.pulsed (s.pN P.EMT_MAXCODE c.1) base code start len gain)
      out := (s.pulse c base code start len gain).out } := by
  cases h : (s.em[c]).en with
  | none =>
    rw [vmod_of_fixed (Emit.pulsed_of_disabled h ..)]
    unfold State.pulse
    rw [h]
  | some t =>
    by_cases hl : len = 0
    · have hkept : (s.em[c]).pulsed (s.pN P.EMT_MAXCODE c.1) base code start len gain = s.em[c] := by
        unfold Emit.pulsed
        simp only [h, hl, if_true]
      rw [vmod_of_fixed hkept]
      unfold State.pulse
      simp only [h, hl, if_true]
    · generalize hsent : min (if tooEarly t base start then 0 else code) (s.pN P.EMT_MAXCODE c.1) = sent
      rw [State.pulse_of_enabled h hsent.symm hl]
      dsimp only
      split <;> rfl

/-- A pulse of an enabled channel in time, with a code above 0 within its limit, leaves the device. -/
theorem State.pulse_out {s : State} {c : ChanIx} {t : Nat} (h : (s.em[c]).en = some t) {base code : Nat} {start : Int}
    (hlate : tooEarly t base start = false) {len : Nat} (hl : len ≠ 0) (hc : 0 < code) (hm : code ≤ s.pN P.EMT_MAXCODE c.1)
    (gain : Nat) :
    (s.pulse c base code start len gain).out = .pulse c ((s.em[c]).core + 1) code start len :: s.out := by
  have hsent : code = min (if tooEarly t base start then 0 else code) (s.pN P.EMT_MAXCODE c.1) := by
    simp [hlate, hm]
  rw [State.pulse_of_enabled h hsent hl, if_neg (Nat.ne_of_gt hc)]
  rfl

end Sys2Proof.Machine
end

section
/-! PROOF. PLh_RDY and the faults of its loss; the range point; probes (09 R496 to R500; 11 R545, R562). -/

namespace Sys2Proof.Machine

/-! ### PLh_RDY (R496 to R500) -/

theorem exec_rdyAssert_ready {s : State} {h : HeadIx} (hm : s.syncMode h = false) :
    exec (.plhRdyAssert h) s = .next { s with
      pln := vmod s.pln h (fun p => { p with rdy := true })
      head := vmod s.head h (fun x => { x with rdyWait := false, starting := false }) } := by
  have hready : ¬ s.syncMode h = true := by rw [hm]; exact Bool.false_ne_true
  exact if_neg hready

theorem exec_rdyAssert_sync {s : State} {h : HeadIx} (hm : s.syncMode h = true) :
    exec (.plhRdyAssert h) s = .next { s with pln := vmod s.pln h (fun p => { p with rdy := true }) } := if_pos hm

/-- The signal of a start that has not come in time, the first time. -/
theorem execPlhRdyStartTimeout_first {s : State} {h : HeadIx} (hon : (s.head[h]).on = true) (hplane : s.isPlane h = true)
    (hst : (s.head[h]).starting = true) (hlate : (s.head[h]).late = false) :
    execPlhRdyStartTimeout h s =
      .next ((((s.modHead h (fun x => { x with late := true, wait := true })).modPln h
        (fun p => { p with rdyLoss := inc 32 p.rdyLoss })).settle).log (0x18 + h.1) 5 clsHead h.1 []) := by
  simp only [execPlhRdyStartTimeout, hon, hplane, hst, hlate, Bool.not_false, Bool.and_self, if_true]

theorem execPlhRdyStartTimeout_late {s : State} {h : HeadIx} (hlate : (s.head[h]).late = true) :
    execPlhRdyStartTimeout h s = .next s := by
  simp only [execPlhRdyStartTimeout, hlate, Bool.not_true, Bool.and_false, Bool.false_eq_true, if_false]

theorem exec_rdyStartTimeout {s : State} {h : HeadIx} (hon : (s.head[h]).on = true) (hplane : s.isPlane h = true)
    (hst : (s.head[h]).starting = true) (hlate : (s.head[h]).late = false) :
    ∃ t, exec (.plhRdyStartTimeout h) s = .next t ∧
      t = { s with
        head := vmod s.head h (fun x => { x with late := true, wait := true })
        pln := vmod s.pln h (fun p => { p with rdyLoss := inc 32 p.rdyLoss })
        em := t.em, tch := t.tch, bly := t.bly, flt := t.flt } ∧
      t.flt.seq = s.flt.seq + 1 ∧ exec (.plhRdyStartTimeout h) t = .next t := by
  refine ⟨_, execPlhRdyStartTimeout_first hon hplane hst hlate, ?_, ?_, execPlhRdyStartTimeout_late ?_⟩
  · rw [State.log_frame, State.settle_frame]
    rfl
  · rw [State.settle_frame]
    rfl
  · rw [State.log_head, State.settle_frame]
    exact congrArg Head.late (vmod_same ..)

theorem exec_rdyLoss {s : State} {h : HeadIx} (hon : (s.head[h]).on = true) (hplane : s.isPlane h = true)
    (hm : s.syncMode h = false) (hw : (s.head[h]).rdyWait = false) :
    ∃ t, exec (.plhRdyLoss h) s = .next t ∧
      t = { s with
        head := vmod s.head h (fun x => { x with rdyWait := true })
        pln := vmod s.pln h (fun p => { p with rdy := false, losing := true, rdyLoss := inc 32 p.rdyLoss })
        flt := t.flt } ∧ t.flt.seq = s.flt.seq + 1 := by
  let u := s.modPln h (fun p => { p with rdy := false })
  have huplane : u.isPlane h = true := hplane
  have humode : u.syncMode h = false := hm
  have hexec : exec (.plhRdyLoss h) s =
      .next (((u.modPln h (fun p => { p with losing := true, rdyLoss := inc 32 p.rdyLoss })).modHead h
        (fun x => { x with rdyWait := true })).log (0x18 + h.1) 1 clsHead h.1 []) := by
    show execPlhRdyLoss h s = _
    simp only [execPlhRdyLoss, State.modPln_head, hon, hw, huplane, humode, Bool.not_false, Bool.and_self, if_true, u]
  refine ⟨_, hexec, ?_, rfl⟩
  rw [State.log_frame]
  simp only [u, State.modHead, State.modPln, vmod_vmod]

/-! ### The range point (R545) -/

/-- The range that a channel of a head takes from a solve: TCH_RANGE in the role TOUCH, else its own where the solve has one. -/
def State.rangeFor (s : State) (h : HeadIx) (x : Option Solve) (c : ChanIx) (old : Nat) : Nat :=
  if bindOf s.par.active c.1 == some (h.1, roleTouch) then s.pN P.TCH_RANGE h.1
  else ((x.bind (fun y => y.chan c.1)).map (·.range)).getD old

theorem State.rangeFor_touch {s : State} {h : HeadIx} {c : ChanIx} (hc : c ∈ chansOf s.par.active h.1 roleTouch)
    (x : Option Solve) (old : Nat) : s.rangeFor h x c old = s.pN P.TCH_RANGE h.1 := if_pos (List.mem_filter.mp hc).2

theorem State.rangeFor_solved {s : State} {h : HeadIx} {c : ChanIx} (hc : c ∉ chansOf s.par.active h.1 roleTouch)
    {x : Solve} {u : ChanUse} (hu : x.chan c.1 = some u) (old : Nat) : s.rangeFor h (some x) c old = u.range := by
  have hrole : ¬ (bindOf s.par.active c.1 == some (h.1, roleTouch)) = true :=
    fun hb => hc (List.mem_filter.mpr ⟨List.mem_finRange c, hb⟩)
  unfold State.rangeFor
  rw [if_neg hrole, Option.bind_some, hu]
  rfl

/-- A channel in the role TOUCH of a head is bound to it. -/
theorem mem_boundTo_of_chansOf {b : Bank} {h role : Nat} {c : ChanIx} (hc : c ∈ chansOf b h role) : c ∈ boundTo b h := by
  obtain ⟨hmem, hrole⟩ := List.mem_filter.mp hc
  have hbind : bindOf b c.1 = some (h, role) := by simpa using hrole
  refine List.mem_filter.mpr ⟨hmem, ?_⟩
  simp [hbind]

theorem State.setRanges_frame (s : State) (h : HeadIx) (x : Option Solve) :
    s.setRanges h x = { s with em := (s.setRanges h x).em } := by
  unfold State.setRanges
  refine foldl_inv (fun u : State => u = { s with em := u.em }) _ (fun u c hu => ?_) _ s rfl
  rw [hu]
  split
  · rfl
  · split <;> rfl

/-- Every channel bound to the head, and no other, takes its range. -/
theorem State.setRanges_em (s : State) (h : HeadIx) (x : Option Solve) (c : ChanIx) :
    (s.setRanges h x).em[c] =
      if c ∈ boundTo s.par.active h.1 then { s.em[c] with range := s.rangeFor h x c (s.em[c]).range } else s.em[c] := by
  refine foldl_vmod State.em (fun u => u.par = s.par) (F := fun c e => { e with range := s.rangeFor h x c e.range })
    (fun u c hu => ?_) (fun u c hu => ?_) (boundTo_nodup ..) rfl c
  · split
    · exact hu
    · split <;> exact hu
  · have hpN : u.pN P.TCH_RANGE h.1 = s.pN P.TCH_RANGE h.1 := by
      unfold State.pN State.block
      rw [hu]
    unfold State.rangeFor
    rw [hu, hpN]
    split
    · rfl
    · split
      next v hv => simp only [hv, State.modEm, Option.map_some, Option.getD_some]
      next hv => simp only [hv, Option.map_none, Option.getD_none, vmod_of_fixed]

theorem exec_rangePoint {s : State} {h : HeadIx} (hr : s.running h = true)
    (hk : s.isScan h = true ∨ (s.isPlane h = true ∧ (s.head[h]).second = false)) :
    exec (.rangePoint h) s = .next (s.setRanges h (s.col[h]).cur) := by
  have hnow : (s.isScan h || (s.isPlane h && !(s.head[h]).second)) = true := by simpa using hk
  show execRangePoint h s = _
  unfold execRangePoint
  rw [hr, hnow]
  rfl

/-- The ranges of a range point. -/
theorem rangePoint_takes {s : State} {h : HeadIx} (hr : s.running h = true)
    (hk : s.isScan h = true ∨ (s.isPlane h = true ∧ (s.head[h]).second = false)) :
    ∃ t, exec (.rangePoint h) s = .next t ∧ t = { s with em := t.em } ∧
      (∀ c : ChanIx, c ∉ boundTo s.par.active h.1 → t.em[c] = s.em[c]) ∧
      (∀ c : ChanIx, c ∈ chansOf s.par.active h.1 roleTouch → (t.em[c]).range = s.pN P.TCH_RANGE h.1) ∧
      ∀ (c : ChanIx) (x : Solve) (u : ChanUse), c ∈ boundTo s.par.active h.1 → c ∉ chansOf s.par.active h.1 roleTouch →
        (s.col[h]).cur = some x → x.chan c.1 = some u → (t.em[c]).range = u.range := by
  refine ⟨_, exec_rangePoint hr hk, State.setRanges_frame .., fun c hc => ?_, fun c hc => ?_, fun c x u hb hc hx hu => ?_⟩
  · rw [State.setRanges_em, if_neg hc]
  · rw [State.setRanges_em, if_pos (mem_boundTo_of_chansOf hc)]
    exact State.rangeFor_touch hc ..
  · rw [State.setRanges_em, if_pos hb, hx]
    exact State.rangeFor_solved hc hu _

/-! ### Probes (R562) -/

theorem exec_probeEmit_notDue {s : State} {c : ChanIx} {h : HeadIx} {role : Nat} (hb : s.boundHead c = some (h, role))
    (hd : (s.em[c]).probeDue = false ∨ (s.em[c]).steady = false) : exec (.probeEmit c) s = .next s := by
  have hnot : (!(s.em[c]).probeDue || !(s.em[c]).steady || !s.permitted c || s.blankNow h) = true := by
    rcases hd with hd | hd <;> simp only [hd, Bool.not_false, Bool.true_or, Bool.or_true]
  show execProbeEmit c s = _
  unfold execProbeEmit
  simp only [hb, hnot, if_true]

/-- A probe is due and its channel and head may pulse. -/
structure State.ProbeReady (s : State) (c : ChanIx) (h : HeadIx) : Prop where
  bound     : ∃ role, s.boundHead c = some (h, role)
  due       : (s.em[c]).probeDue = true
  steady    : (s.em[c]).steady = true
  permitted : s.permitted c = true
  lit       : s.blankNow h = false

theorem State.ProbeReady.inDarkSlot {s : State} {c : ChanIx} {h : HeadIx} (hready : s.ProbeReady c h) (hplane : s.isPlane h = true)
    (hfirst : (s.pln[h]).shown.first = true) (hsome : (s.pln[h]).slot.isSome = true)
    (hslot : (s.pln[h]).slot = probeSlot (slotsOf (s.pln[h]).shown.sched)) :
    exec (.probeEmit c) s =
      .next (s.emitProbe c (1000 * (s.pln[h]).shown.t0 + (s.pln[h]).sigmaPs) (100 * tX s.par.active h.1 + 20000)) := by
  obtain ⟨⟨role, hb⟩, hd, hs, hp, hl⟩ := hready
  have hhere : ((s.pln[h]).slot == probeSlot (slotsOf (s.pln[h]).shown.sched)) = true := by rw [hslot]; exact beq_self_eq_true _
  show execProbeEmit c s = _
  unfold execProbeEmit
  simp only [hb, hd, hs, hp, hl, hplane, hfirst, hsome, hhere, Bool.not_true, Bool.or_self, Bool.and_self, Bool.false_eq_true,
    if_false, if_true]

theorem State.ProbeReady.atTurn {s : State} {c : ChanIx} {h : HeadIx} (hready : s.ProbeReady c h) (hplane : s.isPlane h = false)
    (hturn : (s.scn[h]).turn = s.probeSide h) (hmoves : (s.scn[h]).turn ≠ 0) (hfirst : (s.head[h]).second = false) :
    exec (.probeEmit c) s = .next (s.emitProbe c (1000 * (s.scn[h]).lineAt) (-40000)) := by
  obtain ⟨⟨role, hb⟩, hd, hs, hp, hl⟩ := hready
  show execProbeEmit c s = _
  unfold execProbeEmit
  simp only [hb, hd, hs, hp, hl, hplane, Bool.not_true, Bool.or_self, Bool.false_eq_true, if_false]
  exact if_pos ⟨hturn, hmoves, hfirst⟩

/-- A channel as its probe finds it: the probe counted, and due no more. -/
def Emit.probing (e : Emit) : Emit :=
  { e with probes := inc 32 e.probes, probeDue := false, sums := { e.sums with probed := true } }

theorem State.emitProbe_eq (s : State) (c : ChanIx) (base : Nat) (start : Int) :
    s.emitProbe c base start = (s.modEm c Emit.probing).pulse c base (s.probeCode c) start 80000
      ((s.modEm c Emit.probing).gainNow c) := rfl

/-- A probe: its channel counts it and has it behind, and no other channel changes. -/
theorem State.emitProbe_counts (s : State) (c : ChanIx) (base : Nat) (start : Int) :
    s.emitProbe c base start = { s with em := (s.emitProbe c base start).em, out := (s.emitProbe c base start).out } ∧
      ((s.emitProbe c base start).em[c]).probes = inc 32 (s.em[c]).probes ∧
      ((s.emitProbe c base start).em[c]).probeDue = false ∧ ((s.emitProbe c base start).em[c]).en = (s.em[c]).en ∧
      ∀ d : ChanIx, d ≠ c → (s.emitProbe c base start).em[d] = s.em[d] := by
  rw [State.emitProbe_eq, State.pulse_frame]
  simp only [State.modEm_em, vmod_vmod]
  refine ⟨rfl, ?_, ?_, ?_, fun d hd => vmod_other _ _ hd⟩
  all_goals rw [vmod_same]
  · exact Emit.pulsed_probes ..
  · exact Emit.pulsed_probeDue ..
  · exact Emit.pulsed_en ..

/-- A probe of an enabled channel in time is a pulse of its code, on the other current core, for 2 us. -/
theorem State.emitProbe_out {s : State} {c : ChanIx} {t : Nat} (hen : (s.em[c]).en = some t) {base : Nat} {start : Int}
    (hcode : 0 < s.probeCode c) (hlate : tooEarly t base start = false) :
    (s.emitProbe c base start).out = .pulse c ((s.em[c]).core + 1) (s.probeCode c) start 80000 :: s.out := by
  have hprobing : ((s.modEm c Emit.probing).em[c]) = (s.em[c]).probing := vmod_same ..
  have hen' : ((s.modEm c Emit.probing).em[c]).en = some t := by rw [hprobing]; exact hen
  rw [State.emitProbe_eq, State.pulse_out hen' hlate (by decide) hcode (Nat.min_le_right ..), hprobing]
  rfl

/-- Settles O44: one lemma per command, the probe's two places joined by what a probe leaves. -/
theorem readySignalsAndProbes : Obligations.ReadySignalsAndProbes := by
  refine ⟨fun s h => ⟨exec_rdyAssert_ready, exec_rdyAssert_sync⟩, fun s h => exec_rdyStartTimeout, fun s h => exec_rdyLoss,
    fun s h => rangePoint_takes, fun s c h role hb => ⟨exec_probeEmit_notDue hb, ?_, ?_⟩⟩
  · intro hd hs hp hl hplane hfirst hsome hslot
    have hready : s.ProbeReady c h := ⟨⟨role, hb⟩, hd, hs, hp, hl⟩
    obtain ⟨hframe, hcount, hdone, hen, hothers⟩ := s.emitProbe_counts c (1000 * (s.pln[h]).shown.t0 + (s.pln[h]).sigmaPs)
      (100 * tX s.par.active h.1 + 20000)
    exact ⟨_, hready.inDarkSlot hplane hfirst hsome hslot, hframe, hcount, hdone, hen, fun t ht => State.emitProbe_out ht, hothers⟩
  · intro hd hs hp hl hplane hturn hmoves hfirst
    have hready : s.ProbeReady c h := ⟨⟨role, hb⟩, hd, hs, hp, hl⟩
    obtain ⟨hframe, hcount, hdone, hen, hothers⟩ := s.emitProbe_counts c (1000 * (s.scn[h]).lineAt) (-40000)
    exact ⟨_, hready.atTurn hplane hturn hmoves hfirst, hframe, hcount, hdone, hen, hothers⟩

end Sys2Proof.Machine
end

section
/-! PROOF. Timing events: a head notes its event, the GPIOs signal it, and no other head changes (13 R641 to R645). -/

namespace Sys2Proof.Machine

/-- An event enters its head's record, and is signalled. -/
theorem State.headEvent_frame (s : State) (h : HeadIx) (code ps : Nat) :
    s.headEvent h code ps = { s with
      head := vmod s.head h (fun x => { x with marks := putMark (stepOf ps, code) x.marks })
      gpio := (s.headEvent h code ps).gpio
      out := (s.headEvent h code ps).out } := by
  unfold State.headEvent
  refine foldl_inv (fun u : State => u = { s with
    head := vmod s.head h (fun x => { x with marks := putMark (stepOf ps, code) x.marks }), gpio := u.gpio, out := u.out })
    _ (fun u g hu => ?_) _ _ rfl
  rw [hu]
  dsimp only
  split <;> rfl

/-- What has left the device stays on record when an event is signalled before some of it. -/
theorem mem_putBefore {o x : Out} (later : Out → Bool) {l : List Out} (hx : x ∈ l) : x ∈ putBefore o later l := by
  induction l with
  | nil => cases hx
  | cons y r ih =>
    unfold putBefore
    split
    · rcases List.mem_cons.mp hx with rfl | hr
      · exact List.mem_cons_self ..
      · exact List.mem_cons_of_mem _ (ih hr)
    · exact List.mem_cons_of_mem _ hx

theorem State.mem_headEvent_out {s : State} {o : Out} (ho : o ∈ s.out) (h : HeadIx) (code ps : Nat) :
    o ∈ (s.headEvent h code ps).out := by
  unfold State.headEvent
  refine foldl_inv (fun u : State => o ∈ u.out) _ (fun u g hu => ?_) _ _ ho
  dsimp only
  split
  · exact mem_putBefore _ hu
  · exact hu

/-- A completed head frame draws its free instant, notes it and the event. -/
theorem State.frameDone_frame (s : State) (h : HeadIx) :
    s.frameDone h = { s with
      free := (s.frameDone h).free, head := (s.frameDone h).head, gpio := (s.frameDone h).gpio, out := (s.frameDone h).out } ∧
      ∀ k : HeadIx, k ≠ h → (s.frameDone h).head[k] = s.head[k] := by
  have hnoted : s.frameDone h = (s.draw.modHead h (fun x => { x with doneNs := s.freeNs.2 })).headEvent h evFrameDone
      (s.draw.framePs h s.freeNs.2) := rfl
  rw [hnoted, State.headEvent_frame]
  exact ⟨rfl, fun k hk => (vmod_other _ _ hk).trans (vmod_other _ _ hk)⟩

end Sys2Proof.Machine
end

section
/-! PROOF. A stripe goes into the stripe store and the plane store, or the rope that failed its comparison fails (05 R254, R268,
R273; 09 R482, R483; 13 R663; 17 R781). -/

namespace Sys2Proof.Machine

/-! ### The mirror pool is written beside the normal region -/

theorem State.writeCopy_pool_sansRead (s : State) {c : Copy} (hc : c ≠ .normal) (a : Nat) (d : Bytes) (who : Requester) :
    (s.writeCopy c a d who).sansRead = s.sansRead := by
  have hcells (k : List Nat) : ((s.mem.setCells c (memWrite (s.mem.cells c) a d)).setPoisoned c k).normal = s.mem.normal := by
    cases c with
    | normal => exact absurd rfl hc
    | primary => rfl
    | mirror => rfl
  have hwrite (k : List Nat) : ({ s with
      mem := (s.mem.setCells c (memWrite (s.mem.cells c) a d)).setPoisoned c k } : State).sansRead = s.sansRead := by
    simp only [State.sansRead, hcells]
  unfold State.writeCopy
  dsimp only
  split
  · rfl
  · split
    · exact hwrite _
    · rw [State.uncorrectable_sansRead, hwrite]

theorem State.writeBurst_pool_sansRead (s : State) (a : Nat) (d : Bytes) (who : Requester) :
    (s.writeBurst true a d who).sansRead = s.sansRead := by
  unfold State.writeBurst
  rw [if_pos rfl, State.writeCopy_pool_sansRead _ (by decide), State.writeCopy_pool_sansRead _ (by decide)]

theorem State.writeMem_pool_sansRead (s : State) (a : Nat) (d : Bytes) (who : Requester) :
    (s.writeMem true a d who).sansRead = s.sansRead :=
  foldl_keeps State.sansRead _ (fun s _ => s.writeBurst_pool_sansRead _ _ who) _ s

theorem State.writeStripe_sansRead (s : State) (h : HeadIx) (stripe : Nat) (rows : List (List (List Nat))) :
    (s.writeStripe h stripe rows).sansRead = s.sansRead :=
  foldl_keeps State.sansRead _ (fun s _ => foldl_keeps State.sansRead _ (fun s _ => s.writeMem_pool_sansRead _ _ .pitch) _ s) _ s

theorem State.qdrRead_sansRead (s : State) (x : Fin 2) (word kind : Nat) (err : EccErr) (who : Requester) :
    (s.qdrRead x word kind err who).sansRead = s.sansRead := by
  unfold State.qdrRead
  split
  · rfl
  · rfl
  · unfold State.qdrUncorr
    dsimp only
    rw [State.memEvent_sansRead]
    rfl

theorem State.qdrFlagged_sansRead (s : State) (x : Fin 2) (words : List Nat) (who : Requester) :
    (s.qdrFlagged x words who).sansRead = s.sansRead :=
  foldl_keeps State.sansRead _ (fun s w => s.qdrRead_sansRead x w 1 .none who) _ s

/-! ### A stripe (R482, R483) -/

/-- The rows of a stripe that stand within the array. -/
def State.stripeRows (s : State) (h : HeadIx) (stripe : Nat) : Nat := min 16 (s.pN P.PLN_ROWS h.1 - 16 * stripe)

/-- The field codes of a stripe: those of its canvas rows under the solve, or 0 without one. -/
def State.stripeCodes (s : State) (h : HeadIx) (stripe : Nat) : List (List (List Nat)) :=
  let band : Band := ⟨((s.comp[h]).canvas.map List.toArray).toArray, (s.stripeSpan h stripe).1, (s.stripeSpan h stripe).2⟩
  match (s.col[h]).cur with
  | some x => (List.range (s.stripeRows h stripe)).map (fun k => s.rowCodes h band x (16 * stripe + k))
  | none => (List.range (s.stripeRows h stripe)).map (fun _ =>
      (fieldsOf s.par.active h.1).map (fun _ => List.replicate (s.pN P.PLN_COLS h.1) 0))

theorem State.stripeCodes_length (s : State) (h : HeadIx) (stripe : Nat) :
    (s.stripeCodes h stripe).length = s.stripeRows h stripe := by
  unfold State.stripeCodes
  dsimp only
  split <;> rw [List.length_map, List.length_range]

/-- A stripe is entered as rendered in a buffer of the plane store. -/
def Pln.rendered (p : Pln) (ix : Fin 3) (stripe : Nat) : Pln :=
  { p with bufs := vmod p.bufs ix (fun x => { x with done := stripe :: x.done }) }

/-- The state with a stripe of the running head frame in the stripe store and in the plane store. -/
def State.stripeStored (s : State) (h : HeadIx) (stripe : Nat) : State :=
  let flags := s.stripeFlags h (16 * stripe) (s.stripeRows h stripe)
  let codes := s.stripeCodes h stripe
  ((((s.qdrFlagged flags.1 flags.2 .pitch).modPln h (fun p => p.store ⟨(s.head[h]).frames, stripe, codes⟩)).writeStripe h stripe
    codes).modPln h (fun p => p.rendered (Fin.ofNat 3 (s.head[h]).frames) stripe))

/-- Beside reads' errors and the mirror pool, storing a stripe writes its head's stripe store and its entry. -/
theorem State.stripeStored_sansRead (s : State) (h : HeadIx) (stripe : Nat) :
    (s.stripeStored h stripe).sansRead = (s.modPln h (fun p =>
      (p.store ⟨(s.head[h]).frames, stripe, s.stripeCodes h stripe⟩).rendered
        (Fin.ofNat 3 (s.head[h]).frames) stripe)).sansRead := by
  have hmod (u : State) (f : Pln → Pln) : (u.modPln h f).sansRead = u.sansRead.modPln h f := rfl
  unfold State.stripeStored
  dsimp only
  rw [hmod, State.writeStripe_sansRead, hmod, State.qdrFlagged_sansRead, hmod]
  simp only [State.modPln, vmod_vmod]

/-- What a stripe that may be rendered meets. -/
structure State.StripeDue (s : State) (h : HeadIx) (stripe : Nat) (rope : RopeIx) : Prop where
  running  : s.running h = true
  plane    : s.isPlane h = true
  inArray  : stripe < stripesOf s.par.active h.1
  notYet   : ((s.pln[h]).bufs[(Fin.ofNat 3 (s.head[h]).frames : Fin 3)]).done.contains stripe = false
  buffer   : ((s.pln[h]).bufs[(Fin.ofNat 3 (s.head[h]).frames : Fin 3)]).frame = (s.head[h]).frames
  composed : s.stripeNeeds h stripe ≤ (s.comp[h]).canvas.length
  shared   : s.entryBare 0 h.1 = false
  standing : s.flt.failed[rope] = false

theorem State.StripeDue.not_skipped {s : State} {h : HeadIx} {stripe : Nat} {rope : RopeIx} (hd : s.StripeDue h stripe rope) :
    (!s.running h || !s.isPlane h || !Nat.blt stripe (stripesOf s.par.active h.1) ||
      ((s.pln[h]).bufs[(Fin.ofNat 3 (s.head[h]).frames : Fin 3)]).done.contains stripe ||
      ((s.pln[h]).bufs[(Fin.ofNat 3 (s.head[h]).frames : Fin 3)]).frame != (s.head[h]).frames ||
      Nat.blt (s.comp[h]).canvas.length (s.stripeNeeds h stripe) || s.entryBare 0 h.1 || s.flt.failed[rope]) = false := by
  obtain ⟨hrun, hplane, hin, hnew, hbuf, hrows, hbare, hrope⟩ := hd
  have hin' : Nat.blt stripe (stripesOf s.par.active h.1) = true := by simpa using hin
  have hrows' : Nat.blt (s.comp[h]).canvas.length (s.stripeNeeds h stripe) = false := by
    rw [Bool.eq_false_iff, ne_eq, Nat.blt_eq]
    exact Nat.not_lt.mpr hrows
  rw [hrun, hplane, hin', hnew, hbuf, hrows', hbare, hrope, bne_self_eq_false]
  rfl

/-- A due stripe is stored, and the last of a head frame completes it. -/
theorem State.StripeDue.exec_good {s : State} {h : HeadIx} {stripe : Nat} {rope : RopeIx} (hd : s.StripeDue h stripe rope) :
    exec (.stripeRendered h stripe rope true) s =
      if ((s.pln[h]).bufs[(Fin.ofNat 3 (s.head[h]).frames : Fin 3)]).done.length + 1 = stripesOf s.par.active h.1 then
        .next ((s.stripeStored h stripe).frameDone h)
      else .next (s.stripeStored h stripe) := by
  show execStripeRendered h stripe rope true s = _
  unfold execStripeRendered
  simp only [hd.not_skipped, Bool.not_true, Bool.false_eq_true, if_false]
  rfl

/-- A due stripe whose comparison fails counts, and its rope fails. -/
theorem State.StripeDue.exec_bad {s : State} {h : HeadIx} {stripe : Nat} {rope : RopeIx} (hd : s.StripeDue h stripe rope) :
    exec (.stripeRendered h stripe rope false) s =
      .next ((s.modHead h (fun x => { x with shadowErr := inc 32 x.shadowErr })).ropeFail rope .shadow) := by
  show execStripeRendered h stripe rope false s = _
  unfold execStripeRendered
  simp only [hd.not_skipped, Bool.not_false, Bool.false_eq_true, if_false, if_true]

theorem stripe_rendered {s : State} {h : HeadIx} {stripe : Nat} {rope : RopeIx} (hd : s.StripeDue h stripe rope) :
    ∃ t, exec (.stripeRendered h stripe rope true) s = .next t ∧
      t = { s with free := t.free, mem := t.mem, surf := t.surf, acm := t.acm, head := t.head, pln := t.pln, gpio := t.gpio,
                   out := t.out } ∧
      t.pln = vmod s.pln h (fun p =>
        (p.store ⟨(s.head[h]).frames, stripe, s.stripeCodes h stripe⟩).rendered (Fin.ofNat 3 (s.head[h]).frames) stripe) ∧
      t.mem.normal = s.mem.normal ∧ ∀ k : HeadIx, k ≠ h → t.head[k] = s.head[k] := by
  have hstored := s.stripeStored_sansRead h stripe
  have hnormal := State.normal_of_sansRead hstored
  have hframe := State.eq_of_sansAccess (State.sansAccess_of_sansRead hstored)
  have hgood := hd.exec_good
  generalize s.stripeStored h stripe = u at hnormal hframe hgood
  obtain ⟨hdone, hheads⟩ := u.frameDone_frame h
  have hhead : u.head = s.head := by rw [hframe]; rfl
  have hpln : u.pln = vmod s.pln h (fun p =>
      (p.store ⟨(s.head[h]).frames, stripe, s.stripeCodes h stripe⟩).rendered (Fin.ofNat 3 (s.head[h]).frames) stripe) := by
    rw [hframe]; rfl
  split at hgood
  · refine ⟨_, hgood, ?_, ?_, ?_, fun k hk => ?_⟩
    · rw [hdone, hframe]; rfl
    · rw [hdone, hpln]
    · rw [hdone, hnormal]; rfl
    · rw [hheads k hk, hhead]
  · refine ⟨_, hgood, ?_, hpln, hnormal, fun k hk => by rw [hhead]⟩
    rw [hframe]; rfl

/-! ### A failed comparison (13 R663; 17 R781) -/

theorem State.ropeFail_frame (s : State) (r : RopeIx) (cause : RopeCause) :
    s.ropeFail r cause = { s with flt := (s.ropeFail r cause).flt } := by
  unfold State.ropeFail
  split
  · rfl
  · split <;> rfl

/-- A rope in service, or a spare, is failed after its failure; no other rope is touched. -/
theorem State.ropeFail_failed (s : State) (r : RopeIx) (cause : RopeCause) (q : RopeIx) :
    (s.ropeFail r cause).flt.failed[q] = if r = q ∧ s.flt.removed[r] = false then true else s.flt.failed[q] := by
  have hset : (vset s.flt.failed r true)[q] = if r = q then true else s.flt.failed[q] := vset_get ..
  unfold State.ropeFail
  split
  next hout =>
    split
    next hq =>
      obtain ⟨rfl, hremoved⟩ := hq
      simpa [hremoved] using hout
    · rfl
  next hin =>
    have hremoved : s.flt.removed[r] = false := by
      simp only [Bool.or_eq_true, not_or, Bool.not_eq_true] at hin
      exact hin.2
    simp only [hremoved, and_true]
    split
    · exact hset
    · exact hset

/-- Settles O43: storing the stripe keeps all but what `sansRead` leaves out and the head's stores; the failed comparison is the
rope's failure. -/
theorem stripesAreRendered : Obligations.StripesAreRendered := by
  intro s h stripe rope hrun hplane hin hnew hbuf hrows hbare hrope
  have hd : s.StripeDue h stripe rope := ⟨hrun, hplane, hin, hnew, hbuf, hrows, hbare, hrope⟩
  constructor
  · obtain ⟨t, hexec, hframe, hpln, hnormal, hheads⟩ := stripe_rendered hd
    have hp : t.pln[h] = ((s.pln[h]).store ⟨(s.head[h]).frames, stripe, s.stripeCodes h stripe⟩).rendered
        (Fin.ofNat 3 (s.head[h]).frames) stripe := by
      rw [hpln, vmod_same]
    refine ⟨t, hexec, hframe, ?_,
      ⟨⟨(s.head[h]).frames, stripe, s.stripeCodes h stripe⟩, ?_, rfl, rfl, s.stripeCodes_length h stripe⟩, ?_, fun a => by rw [hnormal], fun k hk => ⟨hheads k hk, by rw [hpln, vmod_other _ _ hk]⟩⟩
    · rw [hp]; rfl
    · rw [hp]
      exact (vset_get ..).trans (if_pos rfl)
    · rw [hp]
      exact congrArg PlaneBuf.done (vmod_same ..)
  · refine ⟨_, hd.exec_bad, ?_, ?_, ?_, ?_, fun k hk => ?_⟩
    · rw [State.ropeFail_frame]; rfl
    · rw [State.ropeFail_frame]
      exact congrArg Head.shadowErr (vmod_same ..)
    · intro hin
      rw [State.ropeFail_failed]
      exact if_pos ⟨rfl, hin⟩
    · intro r hr
      rw [State.ropeFail_failed, if_neg (fun hq => hr hq.1.symm)]
      rfl
    · rw [State.ropeFail_frame]
      exact vmod_other _ _ hk

end Sys2Proof.Machine
end

section
/-! PROOF. The loads of a head frame begin: at L0, at a SYNC_IN edge, or at a miss (09 R481, R485, R486; 13 R646 to R650). -/

namespace Sys2Proof.Machine

/-! ### The loads of a slot begin (R481, R485, R486) -/

/-- The plane side of a head at the first block of slot `q`, with its frame sources and count of underruns. -/
def Pln.loadingFrom (p : Pln) (q : Nat) (src : List (Nat × List (Option Nat))) (underruns : Nat) : Pln :=
  { p with loadSlot := some q, loadBlk := 0, darkNext := false, crc := 0xFFFFFFFF#32, strobes := [], src := src
           underruns := underruns }

/-- A head with an underrun noted, or none. -/
def Head.underNoted (x : Head) (now : Bool) (under : Nat) (marks : List (Nat × Nat)) : Head :=
  { x with underNow := now, under := under, marks := marks }

/-- The state less what beginning loads may change. -/
def State.sansLoads (s : State) : State :=
  { s with head := State.reset.head, pln := State.reset.pln, gpio := State.reset.gpio, out := [] }

theorem State.eq_of_sansLoads {s t : State} (h : t.sansLoads = s.sansLoads) :
    t = { s with head := t.head, pln := t.pln, gpio := t.gpio, out := t.out } := by
  cases s; cases t; simpa [State.sansLoads] using h

/-- The loads of slot `q` begin, with or without an underrun of the head frame that loads. -/
structure State.LoadsBegun (s t : State) (h : HeadIx) (q : Nat) : Prop where
  frame : t.sansLoads = s.sansLoads
  pln   : ∃ src n, t.pln = vmod s.pln h (fun p => p.loadingFrom q src n)
  head  : ∃ now n marks, t.head = vmod s.head h (fun x => x.underNoted now n marks)
  out   : ∀ o ∈ s.out, o ∈ t.out

/-- The loads begin with no underrun. -/
theorem State.loadsBegun_quiet {s : State} {h : HeadIx} {q : Nat} {f : Pln → Pln} {src : List (Nat × List (Option Nat))} {n : Nat}
    (hf : f s.pln[h] = (s.pln[h]).loadingFrom q src n) : s.LoadsBegun (s.modPln h f) h q where
  frame := rfl
  pln := ⟨src, n, vmod_congr hf⟩
  head := ⟨(s.head[h]).underNow, (s.head[h]).under, (s.head[h]).marks, (vmod_of_fixed rfl).symm⟩
  out := fun _ ho => ho

/-- An underrun is counted and signalled. -/
theorem State.underrunEvent_frame (s : State) (h : HeadIx) (ps : Nat) :
    s.underrunEvent h ps = { s with
      head := vmod s.head h (fun x => { x with under := x.under + 1, marks := putMark (stepOf ps, evUnderrunCode) x.marks })
      gpio := (s.underrunEvent h ps).gpio
      out := (s.underrunEvent h ps).out } := by
  unfold State.underrunEvent
  rw [State.headEvent_frame]
  simp only [State.modHead, vmod_vmod]

theorem State.mem_underrunEvent_out {s : State} {o : Out} (ho : o ∈ s.out) (h : HeadIx) (ps : Nat) :
    o ∈ (s.underrunEvent h ps).out := by
  unfold State.underrunEvent
  exact State.mem_headEvent_out (by exact ho) ..

/-- The loads begin, and an underrun of the head frame that loads shows. -/
theorem State.LoadsBegun.underrun {s t : State} {h : HeadIx} {q : Nat} (hb : s.LoadsBegun t h q) (f : Head → Bool) (ps : Nat) :
    s.LoadsBegun ((t.modHead h (fun y => { y with underNow := f y })).underrunEvent h ps) h q := by
  obtain ⟨hframe, hpln, ⟨now, n, marks, hhead⟩, hout⟩ := hb
  refine ⟨?_, ?_, ?_, fun o ho => State.mem_underrunEvent_out (by exact hout o ho) ..⟩
  · rw [State.underrunEvent_frame]
    exact hframe
  · rw [State.underrunEvent_frame]
    exact hpln
  · rw [State.underrunEvent_frame]
    refine ⟨f (t.head[h]), n + 1, putMark (stepOf ps, evUnderrunCode) marks, ?_⟩
    simp only [State.modHead_head, hhead, vmod_vmod]
    refine vmod_congr ?_
    rw [vmod_same]
    rfl

/-- Two updates of one head's plane state are one. -/
theorem State.modPln_modPln (s : State) (h : HeadIx) (f g : Pln → Pln) :
    (s.modPln h f).modPln h g = s.modPln h (fun p => g (f p)) := by
  simp only [State.modPln, vmod_vmod]

theorem State.beginLoads_begun (s : State) (h : HeadIx) (q : Nat) : s.LoadsBegun (s.beginLoads h q) h q := by
  unfold State.beginLoads
  extract_lets p slots x u src v w
  split
  · exact State.loadsBegun_quiet (src := (s.pln[h]).src) rfl
  · split
    · have hw : s.LoadsBegun w h q := by
        simp only [w, v, u, State.modPln_modPln]
        exact State.loadsBegun_quiet (src := (x.field, src) :: (s.pln[h]).src) rfl
      exact hw.underrun _ _
    · simp only [v, u, State.modPln_modPln]
      exact State.loadsBegun_quiet (src := (x.field, src) :: (s.pln[h]).src) rfl

/-! ### The loads of a head frame begin (R471, R480, R648) -/

/-- Slot 0 of the head frame `coming` loads, `deltaPs` after L0. -/
def FrameBegins (t : State) (h : HeadIx) (coming : PlaneFrame) (deltaPs : Nat) : Prop :=
  (t.pln[h]).begun = true ∧ (t.pln[h]).waiting = false ∧ (t.pln[h]).loadSlot = some 0 ∧ (t.pln[h]).loadBlk = 0 ∧
    (t.pln[h]).loading = coming ∧ (t.pln[h]).lambdaPs = 420000000 + 2500 * tCycle t.par.active h.1 + deltaPs

/-- No other head changes. -/
def OtherHeadsKept (s t : State) (h : HeadIx) : Prop := ∀ k : HeadIx, k ≠ h → t.head[k] = s.head[k] ∧ t.pln[k] = s.pln[k]

/-- The plane side of a head whose loads turn to the head frame that runs. -/
def Pln.turned (p : Pln) (lambdaPs : Nat) : Pln :=
  { p with loading := p.coming, waiting := false, begun := true, src := [], logged := false, lambdaPs := lambdaPs }

/-- The loads of the head frame that runs begin, and nothing else changes but for an underrun. -/
structure State.FrameBegun (s t : State) (h : HeadIx) (deltaPs : Nat) : Prop where
  frame  : t.sansLoads = s.sansLoads
  begins : FrameBegins t h (s.pln[h]).coming deltaPs
  slot   : (t.pln[h]).slot = (s.pln[h]).slot
  shown  : (t.pln[h]).shown = (s.pln[h]).shown
  head   : ∃ now n marks, t.head[h] = (s.head[h]).underNoted now n marks
  others : OtherHeadsKept s t h

theorem State.beginFrame_begun (s : State) (h : HeadIx) (deltaPs : Nat) : s.FrameBegun (s.beginFrame h deltaPs) h deltaPs := by
  have hturned : s.beginFrame h deltaPs =
      (s.modPln h (fun p => p.turned (420000000 + 2500 * tCycle s.par.active h.1 + deltaPs))).beginLoads h 0 := rfl
  rw [hturned]
  obtain ⟨hframe, ⟨src, n, hpln⟩, ⟨now, under, marks, hhead⟩, -⟩ := State.beginLoads_begun (s.modPln h
    (fun p => p.turned (420000000 + 2500 * tCycle s.par.active h.1 + deltaPs))) h 0
  generalize State.beginLoads _ h 0 = t at hframe hpln hhead
  have hpar : t.par = s.par := (congrArg State.par hframe :)
  have hp : t.pln[h] = ((s.pln[h]).turned (420000000 + 2500 * tCycle s.par.active h.1 + deltaPs)).loadingFrom 0 src n := by
    rw [hpln, vmod_same, State.modPln_pln, vmod_same]
  refine ⟨hframe, ?_, by rw [hp]; rfl, by rw [hp]; rfl, ⟨now, under, marks, by rw [hhead, vmod_same]; rfl⟩, fun k hk => ⟨?_, ?_⟩⟩
  · unfold FrameBegins
    rw [hp, hpar]
    exact ⟨rfl, rfl, rfl, rfl, rfl, rfl⟩
  · rw [hhead, vmod_other _ _ hk]
    rfl
  · rw [hpln, vmod_other _ _ hk, State.modPln_pln, vmod_other _ _ hk]

/-- Where the head was changed before its loads begin, no other head changes either. -/
theorem State.FrameBegun.others_of_modHead {s u t : State} {h : HeadIx} {deltaPs : Nat} (hb : u.FrameBegun t h deltaPs)
    {f : Head → Head} (hhead : u.head = vmod s.head h f) (hpln : u.pln = s.pln) : OtherHeadsKept s t h := by
  intro k hk
  obtain ⟨hk1, hk2⟩ := hb.others k hk
  rw [hk1, hk2, hhead, hpln, vmod_other _ _ hk]
  exact ⟨rfl, rfl⟩

/-! ### PLANE_LOAD_START (R481, R496; 13 R648) -/

/-- A running plane head owes no ready signal, and its head frame's loads have not begun. -/
structure State.LoadDue (s : State) (h : HeadIx) : Prop where
  on      : (s.head[h]).on = true
  plane   : s.isPlane h = true
  fresh   : (s.pln[h]).begun = false
  waiting : (s.pln[h]).waiting = false
  ready   : (s.head[h]).rdyWait = false
  runs    : (s.head[h]).frames ≠ 0

theorem State.LoadDue.exec {s : State} {h : HeadIx} (hd : s.LoadDue h) :
    exec (.planeLoadStart h) s =
      if s.syncMode h then
        if (s.head[h]).syncEdge then .next (s.syncLoad h 0) else .next (s.modPln h (fun p => { p with waiting := true }))
      else .next (s.beginFrame h 0) := by
  obtain ⟨hon, hplane, hfresh, hwaiting, hready, hruns⟩ := hd
  show execPlaneLoadStart h s = _
  unfold execPlaneLoadStart
  simp only [hon, hplane, hfresh, hwaiting, hready, hruns, Bool.not_true, Bool.or_self, decide_false, Bool.false_eq_true, if_false]

/-- Loads at an edge: the state they begin from. -/
theorem State.syncLoad_eq (s : State) (h : HeadIx) (deltaPs : Nat) :
    s.syncLoad h deltaPs =
      (s.modHead h (fun x => { x with syncDelta := deltaPs / 1000, syncAt := true, syncRun := 0 })).beginFrame h deltaPs := rfl

/-- At L0 the loads begin, in SYNC mode where the edge has been. -/
theorem State.LoadDue.begins {s : State} {h : HeadIx} (hd : s.LoadDue h)
    (hm : s.syncMode h = false ∨ (s.head[h]).syncEdge = true) :
    ∃ t, Machine.exec (.planeLoadStart h) s = .next t ∧ t = { s with head := t.head, pln := t.pln, gpio := t.gpio, out := t.out } ∧
      FrameBegins t h (s.pln[h]).coming 0 ∧ (t.pln[h]).slot = (s.pln[h]).slot ∧ (t.pln[h]).shown = (s.pln[h]).shown ∧
      OtherHeadsKept s t h := by
  have hexec := hd.exec
  cases hsync : s.syncMode h with
  | false =>
    obtain ⟨hframe, hbegins, hslot, hshown, -, hothers⟩ := s.beginFrame_begun h 0
    rw [hsync, if_neg Bool.false_ne_true] at hexec
    exact ⟨_, hexec, State.eq_of_sansLoads hframe, hbegins, hslot, hshown, hothers⟩
  | true =>
    have hedge : (s.head[h]).syncEdge = true := hm.resolve_left (by rw [hsync]; decide)
    rw [hsync, hedge, if_pos rfl, if_pos rfl, State.syncLoad_eq] at hexec
    have hb := State.beginFrame_begun (s.modHead h (fun x => { x with syncDelta := 0 / 1000, syncAt := true, syncRun := 0 })) h 0
    exact ⟨_, hexec, State.eq_of_sansLoads hb.frame, hb.begins, hb.slot, hb.shown, hb.others_of_modHead (State.modHead_head ..) rfl⟩

/-- In SYNC mode with no edge yet the head waits. -/
theorem State.LoadDue.waits {s : State} {h : HeadIx} (hd : s.LoadDue h) (hm : s.syncMode h = true)
    (he : (s.head[h]).syncEdge = false) :
    Machine.exec (.planeLoadStart h) s = .next { s with pln := vmod s.pln h (fun p => { p with waiting := true }) } := by
  rw [hd.exec, hm, he]
  rfl

/-! ### SYNC_IN_EDGE (R497, R499; 13 R646, R648) -/

/-- An edge of a running plane head in SYNC mode ends its wait for the signal: the head frame notes it up to L0, and a head that
waits loads at one within the slack. -/
theorem exec_syncInEdge {s : State} {h : HeadIx} (hplane : s.isPlane h = true) (hm : s.syncMode h = true)
    (hon : (s.head[h]).on = true) (dt : Nat) :
    exec (.syncInEdge h dt) s =
      let u := s.modHead h (fun x => { x with rdyWait := false, starting := false })
      if dt ≤ 420000 then .next (u.modHead h (fun x => { x with syncEdge := true }))
      else if (u.pln[h]).waiting && Nat.ble (1000 * (dt - 420000)) (syncSlackPs u.par.active h.1) then
        .next (u.syncLoad h (1000 * (dt - 420000)))
      else .next u := by
  show execSyncInEdge h dt s = _
  unfold execSyncInEdge
  simp only [hplane, hm, hon, Bool.not_true, Bool.or_self, Bool.false_eq_true, if_false]

theorem syncEdge_counts {s : State} {h : HeadIx} (hplane : s.isPlane h = true) (hm : s.syncMode h = true)
    (hon : (s.head[h]).on = true) {dt : Nat} (hdt : dt ≤ 420000) :
    ∃ t, exec (.syncInEdge h dt) s = .next t ∧ t = { s with head := t.head } ∧
      t.head[h] = { s.head[h] with rdyWait := false, starting := false, syncEdge := true } ∧
      ∀ k : HeadIx, k ≠ h → t.head[k] = s.head[k] := by
  have hexec := exec_syncInEdge hplane hm hon dt
  rw [if_pos hdt] at hexec
  refine ⟨_, hexec, rfl, ?_, fun k hk => ?_⟩
  · simp only [State.modHead_head, vmod_vmod, vmod_same]
  · simp only [State.modHead_head, vmod_vmod, vmod_other _ _ hk]

theorem syncEdge_loads {s : State} {h : HeadIx} (hplane : s.isPlane h = true) (hm : s.syncMode h = true)
    (hon : (s.head[h]).on = true) (hw : (s.pln[h]).waiting = true) {dt late : Nat} (hdt : ¬ dt ≤ 420000)
    (hlate : dt - 420000 = late) (hslack : 1000 * late ≤ syncSlackPs s.par.active h.1) :
    ∃ t, exec (.syncInEdge h dt) s = .next t ∧ t = { s with head := t.head, pln := t.pln, gpio := t.gpio, out := t.out } ∧
      FrameBegins t h (s.pln[h]).coming (1000 * late) ∧
      (t.head[h]).syncDelta = late ∧ (t.head[h]).syncRun = 0 ∧ (t.head[h]).rdyWait = false ∧ OtherHeadsKept s t h := by
  have hexec := exec_syncInEdge hplane hm hon dt
  have hnow : ((s.pln[h]).waiting && Nat.ble (1000 * late) (syncSlackPs s.par.active h.1)) = true := by
    rw [hw, Nat.ble_eq.mpr hslack]; rfl
  rw [if_neg hdt, hlate] at hexec
  simp only [State.modHead_pln, State.modHead_par, hnow, if_true, State.syncLoad_eq] at hexec
  generalize hu : (s.modHead h (fun x => { x with rdyWait := false, starting := false })).modHead h (fun x => { x with
    syncDelta := 1000 * late / 1000, syncAt := true, syncRun := 0 }) = u at hexec
  have hframe : u.sansLoads = s.sansLoads := by rw [← hu]; rfl
  have hpln : u.pln = s.pln := by rw [← hu]; rfl
  have hhead : u.head = vmod s.head h (fun x => { x with
      rdyWait := false, starting := false, syncDelta := 1000 * late / 1000, syncAt := true, syncRun := 0 }) := by
    simp only [← hu, State.modHead_head, vmod_vmod]
  have hb := u.beginFrame_begun h (1000 * late)
  obtain ⟨now, n, marks, hx⟩ := hb.head
  rw [hhead, vmod_same] at hx
  refine ⟨_, hexec, State.eq_of_sansLoads (hb.frame.trans hframe), hpln ▸ hb.begins, ?_, ?_, ?_, hb.others_of_modHead hhead hpln⟩
  · rw [hx]
    exact Nat.mul_div_cancel_left late (by decide)
  · rw [hx]; rfl
  · rw [hx]; rfl

/-! ### SYNC_MISS (R648, R650) -/

/-- A head that no edge has come to. -/
def Head.missed (x : Head) : Head :=
  { x with syncMiss := inc 32 x.syncMiss, syncRun := x.syncRun + 1, syncAt := false, syncDelta := 0xFFFFFFFF }

/-- A miss is counted, and the sixteenth in a row is logged. -/
def State.missNoted (s : State) (h : HeadIx) : State :=
  let u := s.modHead h Head.missed
  if (s.head[h]).syncRun = 15 then u.log (0x18 + h.1) 3 clsInfo h.1 [] else u

theorem State.missNoted_frame (s : State) (h : HeadIx) :
    s.missNoted h = { s with flt := (s.missNoted h).flt, head := vmod s.head h Head.missed } := by
  unfold State.missNoted
  dsimp only
  split <;> rfl

theorem State.missNoted_logged {s : State} {h : HeadIx} (hr : (s.head[h]).syncRun = 15) :
    (s.missNoted h).flt.seq = s.flt.seq + 1 := by
  unfold State.missNoted
  rw [if_pos hr]
  rfl

theorem State.missNoted_silent {s : State} {h : HeadIx} (hr : (s.head[h]).syncRun ≠ 15) : (s.missNoted h).flt = s.flt := by
  unfold State.missNoted
  rw [if_neg hr]
  rfl

theorem exec_syncMiss {s : State} {h : HeadIx} (hw : (s.pln[h]).waiting = true) :
    exec (.syncMiss h) s = .next ((s.missNoted h).beginFrame h (syncSlackPs s.par.active h.1)) := by
  have hrun : (((s.modHead h Head.missed).head[h]).syncRun = 16) = ((s.head[h]).syncRun = 15) := by
    rw [State.modHead_head, vmod_same]
    exact propext Nat.succ_inj
  have hnoted : s.missNoted h = if ((s.modHead h Head.missed).head[h]).syncRun = 16 then
      (s.modHead h Head.missed).log (0x18 + h.1) 3 clsInfo h.1 [] else s.modHead h Head.missed := by
    simp only [State.missNoted, hrun]
  have hpar : (s.missNoted h).par = s.par := by rw [State.missNoted_frame]
  have hgo : ¬ (!(s.pln[h]).waiting) = true := by rw [hw]; decide
  rw [← hpar, hnoted]
  exact if_neg hgo

theorem syncMiss_loads {s : State} {h : HeadIx} (hw : (s.pln[h]).waiting = true) :
    ∃ t, exec (.syncMiss h) s = .next t ∧ t = { s with head := t.head, pln := t.pln, flt := t.flt, gpio := t.gpio, out := t.out } ∧
      (t.head[h]).syncMiss = inc 32 (s.head[h]).syncMiss ∧ (t.head[h]).syncRun = (s.head[h]).syncRun + 1 ∧
      (t.head[h]).syncAt = false ∧ FrameBegins t h (s.pln[h]).coming (syncSlackPs s.par.active h.1) ∧ OtherHeadsKept s t h ∧
      ((s.head[h]).syncRun = 15 → t.flt.seq = s.flt.seq + 1) ∧ ((s.head[h]).syncRun ≠ 15 → t.flt = s.flt) := by
  have hexec := exec_syncMiss hw
  have hnoted := s.missNoted_frame h
  have hlogged : (s.head[h]).syncRun = 15 → (s.missNoted h).flt.seq = s.flt.seq + 1 := State.missNoted_logged
  have hsilent : (s.head[h]).syncRun ≠ 15 → (s.missNoted h).flt = s.flt := State.missNoted_silent
  generalize s.missNoted h = u at hexec hnoted hlogged hsilent
  have hhead : u.head = vmod s.head h Head.missed := by rw [hnoted]
  have hpln : u.pln = s.pln := by rw [hnoted]
  have hb := u.beginFrame_begun h (syncSlackPs s.par.active h.1)
  obtain ⟨now, n, marks, hx⟩ := hb.head
  rw [hhead, vmod_same] at hx
  generalize u.beginFrame h (syncSlackPs s.par.active h.1) = t at hexec hb hx
  have hflt : t.flt = u.flt := (congrArg State.flt hb.frame :)
  refine ⟨t, hexec, ?_, by rw [hx]; rfl, by rw [hx]; rfl, by rw [hx]; rfl, hpln ▸ hb.begins, hb.others_of_modHead hhead hpln,
    fun hr => ?_, fun hr => ?_⟩
  · rw [State.eq_of_sansLoads hb.frame, hnoted]
  · rw [hflt, hlogged hr]
  · rw [hflt, hsilent hr]

end Sys2Proof.Machine
end

section
/-! PROOF. What has left the device stays out: sending and reading only put before it (03 R113, R158; 05 R253). -/

namespace Sys2Proof.Machine

/-- A fold whose every step only adds to what has left the device only adds to it. -/
theorem out_suffix_foldl {σ α : Type} (out : σ → List Out) {f : σ → α → σ} (h : ∀ s a, out s <:+ out (f s a)) (l : List α)
    (s : σ) : out s <:+ out (l.foldl f s) :=
  foldl_inv (fun t => out s <:+ out t) f (fun t a ht => ht.trans (h t a)) l s List.suffix_rfl

theorem State.sendAcm_out (s : State) (dst : ReplyTo) (sp fl ty mb : Nat) (q : SessIx) (sq irt st tk : Nat) (d : Bytes) :
    s.out <:+ (s.sendAcm dst sp fl ty mb q sq irt st tk d).out := by
  unfold State.sendAcm State.sendAcmAs
  dsimp only
  split
  · exact List.suffix_cons ..
  · exact List.suffix_rfl

theorem State.sendEvent_out (s : State) (q : SessIx) (e : QEvent) : s.out <:+ (s.sendEvent q e).out := by
  unfold State.sendEvent
  dsimp only
  split
  · exact List.suffix_rfl
  · exact State.sendAcm_out (State.modSess ..) ..

theorem State.raiseFor_out (s : State) (q : SessIx) (code : Nat) (d : Bytes) : s.out <:+ (s.raiseFor q code d).out := by
  unfold State.raiseFor
  dsimp only
  split
  · exact List.suffix_rfl
  · split
    · exact List.suffix_rfl
    · split
      · exact List.suffix_rfl
      · exact State.sendEvent_out (State.modSess ..) ..

theorem State.raise_out (s : State) (code : Nat) (d : Bytes) : s.out <:+ (s.raise code d).out :=
  out_suffix_foldl State.out (fun s q => s.raiseFor_out q code d) _ s

theorem State.memEvent_out (s : State) (unit : Fin 6) (e : Bytes) : s.out <:+ (s.memEvent unit e).out := by
  unfold State.memEvent
  split
  · exact s.raise_out evMemUncorr e
  · exact List.suffix_rfl

theorem State.uncorrectable_out (s : State) (kind : Nat) (c : Copy) (word : Nat) (who : Requester) :
    s.out <:+ (s.uncorrectable kind c word who).out := by
  have hsurf (u : State) (ix : Nat) (f : Surf → Surf) : (u.modSurf ix f).out = u.out := by
    unfold State.modSurf
    split <;> rfl
  unfold State.uncorrectable
  dsimp only
  refine List.IsSuffix.trans ?_ (State.memEvent_out ..)
  split
  · exact List.suffix_rfl
  · rw [hsurf]
    exact List.suffix_rfl

theorem State.readBurst_out (s : State) (pool : Bool) (a n : Nat) (who : Requester) :
    s.out <:+ (s.readBurst pool a n who).1.out := by
  unfold State.readBurst
  split
  case h_1 => exact List.suffix_rfl
  case h_2 => exact List.suffix_rfl
  case h_3 => exact State.uncorrectable_out ..
  case h_4 => exact List.suffix_rfl

theorem State.readMem_out (s : State) (pool : Bool) (a n : Nat) (who : Requester) :
    s.out <:+ (s.readMem pool a n who).1.out :=
  out_suffix_foldl (fun x : State × Bytes × Nat => x.1.out) (fun x (p : Nat × Nat) => x.1.readBurst_out pool p.1 p.2 who) _
    (s, [], 0)

end Sys2Proof.Machine
end

section
/-! PROOF. One block of a slot on the plane link: its control beat, its rows with the check of their slices, the PHASE_STROBE (09
R489 to R493, R501, R502). -/

namespace Sys2Proof.Machine

/-! ### What the link may change -/

/-- The plane side of a head less what sending a block's rows may change: the scramblers, and the check of the slices. -/
def Pln.sansLink (p : Pln) : Pln :=
  { p with lanes := Vector.replicate 32 0, crc := 0, checkErr := 0, darkNext := false, logged := false }

/-- The state less what sending on the link of head `h` may change. The normal region's bytes stay. -/
def State.sansLink (s : State) (h : HeadIx) : State :=
  { s.sansRead with flt := Flt.reset, pln := vmod s.pln h Pln.sansLink }

theorem State.eq_of_sansLink {s t : State} {h : HeadIx} (hst : t.sansLink h = s.sansLink h) :
    t = { s with free := t.free, mem := t.mem, surf := t.surf, acm := t.acm, pln := t.pln, flt := t.flt, out := t.out } := by
  cases s; cases t; simp_all [State.sansLink, State.sansRead]

theorem State.sansLink_of_sansRead {s t : State} (hst : t.sansRead = s.sansRead) (h : HeadIx) : t.sansLink h = s.sansLink h :=
  congrArg (fun u : State => { u with flt := Flt.reset, pln := vmod u.pln h Pln.sansLink }) hst

theorem State.sansLink_normal {s t : State} {h : HeadIx} (hst : t.sansLink h = s.sansLink h) : t.mem.normal = s.mem.normal :=
  (congrArg (fun u : State => u.mem.normal) hst :)

theorem State.sansLink_same {s t : State} {h : HeadIx} (hst : t.sansLink h = s.sansLink h) :
    (t.pln[h]).sansLink = (s.pln[h]).sansLink := by
  have hpln : vmod t.pln h Pln.sansLink = vmod s.pln h Pln.sansLink := congrArg State.pln hst
  rw [← vmod_same t.pln h Pln.sansLink, hpln, vmod_same]

theorem State.sansLink_other {s t : State} {h k : HeadIx} (hst : t.sansLink h = s.sansLink h) (hk : k ≠ h) :
    t.pln[k] = s.pln[k] := by
  have hpln : vmod t.pln h Pln.sansLink = vmod s.pln h Pln.sansLink := congrArg State.pln hst
  rw [← vmod_other t.pln Pln.sansLink hk, hpln, vmod_other _ _ hk]

/-- A change of the plane side that has nothing to do with the link. -/
theorem State.modPln_sansLink {s t : State} {h : HeadIx} (hst : t.sansLink h = s.sansLink h) {f : Pln → Pln}
    (hf : ∀ p, f p.sansLink = (f p).sansLink) : (t.modPln h f).sansLink h = (s.modPln h f).sansLink h := by
  have hmod (u : State) : (u.modPln h f).sansLink h = (u.sansLink h).modPln h f := by
    simp only [State.modPln, State.sansLink, State.sansRead, vmod_vmod, hf]
  rw [hmod, hmod, hst]

/-- What sending on a link leaves: all but what the link may change, and what has left the device. -/
structure State.LinkSent (s t : State) (h : HeadIx) : Prop where
  rest : t.sansLink h = s.sansLink h
  out  : s.out <:+ t.out

theorem State.LinkSent.refl (s : State) (h : HeadIx) : s.LinkSent s h := ⟨rfl, List.suffix_rfl⟩

theorem State.LinkSent.trans {s t u : State} {h : HeadIx} (hst : s.LinkSent t h) (htu : t.LinkSent u h) : s.LinkSent u h :=
  ⟨htu.rest.trans hst.rest, hst.out.trans htu.out⟩

theorem State.LinkSent.emit {s t : State} {h : HeadIx} (hst : s.LinkSent t h) (o : Out) : s.LinkSent (t.emit o) h :=
  ⟨hst.rest, hst.out.trans (List.suffix_cons ..)⟩

theorem State.linkSent_foldl {α : Type} {h : HeadIx} {f : State → α → State}
    (hf : ∀ (s : State) a, s.LinkSent (f s a) h) (l : List α) (s : State) : s.LinkSent (l.foldl f s) h :=
  foldl_inv (fun t => s.LinkSent t h) f (fun t a ht => ht.trans (hf t a)) l s (.refl s h)

/-! ### Beats, rows and checks -/

theorem State.modPln_linkSent (s : State) (h : HeadIx) {f : Pln → Pln} (hf : ∀ p, (f p).sansLink = p.sansLink) :
    s.LinkSent (s.modPln h f) h where
  rest := by simp only [State.modPln, State.sansLink, State.sansRead, vmod_vmod, hf]
  out := List.suffix_rfl

theorem State.setLanes_linkSent (s : State) (h : HeadIx) (v : Vector (BitVec 58) 32) :
    s.LinkSent (s.modPln h (fun p => { p with lanes := v })) h := s.modPln_linkSent h (fun _ => rfl)

theorem State.sendBeat_linkSent (s : State) (h : HeadIx) (header : BitVec 2) (payload : Vector (BitVec 64) 32) :
    s.LinkSent (s.sendBeat h header payload) h := by
  unfold State.sendBeat
  exact (s.setLanes_linkSent h _).emit _

theorem State.sendControl_linkSent (s : State) (h : HeadIx) (block : Nat) : s.LinkSent (s.sendControl h block) h :=
  s.sendBeat_linkSent h ..

theorem State.sendData_linkSent (s : State) (h : HeadIx) (b : Bytes) : s.LinkSent (s.sendData h b) h :=
  State.linkSent_foldl (fun (s : State) _ => s.sendBeat_linkSent h ..) _ s

theorem State.sendIdle_linkSent (s : State) (h : HeadIx) : s.LinkSent (s.sendIdle h) h := by
  have hdraw : s.LinkSent s.draw h := ⟨rfl, List.suffix_rfl⟩
  unfold State.sendIdle
  exact (hdraw.trans (s.draw.setLanes_linkSent h _)).emit _

theorem State.readMem_linkSent (s : State) (h : HeadIx) (pool : Bool) (a n : Nat) (who : Requester) :
    s.LinkSent (s.readMem pool a n who).1 h :=
  ⟨State.sansLink_of_sansRead (s.readMem_sansRead pool a n who) h, s.readMem_out pool a n who⟩

theorem State.sliceFails_linkSent (s : State) (h : HeadIx) : s.LinkSent (s.sliceFails h) h := by
  have hmod : s.LinkSent (s.modPln h (fun p => { p with checkErr := inc 32 p.checkErr, darkNext := true, logged := true })) h :=
    s.modPln_linkSent h (fun _ => rfl)
  unfold State.sliceFails
  dsimp only
  split
  · exact ⟨hmod.rest, hmod.out⟩
  · exact hmod

theorem State.sendRow_linkSent (s : State) (h : HeadIx) (x : Slot) (y : Nat) : s.LinkSent (s.sendRow h x y).1 h := by
  unfold State.sendRow
  extract_lets b rowLen stripe src
  clear_value src
  cases src with
  | none => exact .refl s h
  | some frame =>
    have hread (s : State) (a n : Nat) : s.LinkSent (s.readMem true a n .pitch).1 h := s.readMem_linkSent h ..
    have hcrc (s : State) (reg : BitVec 32) : s.LinkSent (s.modPln h (fun p => { p with crc := reg })) h :=
      s.modPln_linkSent h (fun _ => rfl)
    have hrow := hread s (s.sliceAt h frame stripe (planeNo b h.1 x.field x.bit) + y % 16 * rowLen) rowLen
    dsimp only
    generalize s.readMem true (s.sliceAt h frame stripe (planeNo b h.1 x.field x.bit) + y % 16 * rowLen) rowLen .pitch = r
      at hrow ⊢
    obtain ⟨u, d, k⟩ := r
    dsimp only at hrow ⊢
    generalize crc32Run _ d = reg
    have hreg := hrow.trans (hcrc u reg)
    split
    · dsimp only
      split
      · exact hreg.trans (hread ..)
      · exact (hreg.trans (hread ..)).trans (State.sliceFails_linkSent ..)
    · exact hreg

theorem State.sendRows_linkSent (s : State) (h : HeadIx) (x : Slot) (r0 n : Nat) : s.LinkSent (s.sendRows h x r0 n).1 h :=
  foldl_inv (fun acc : State × List Bytes => s.LinkSent acc.1 h) _
    (fun acc k ht => ht.trans (acc.1.sendRow_linkSent h x (r0 + k))) _ _ (.refl s h)

/-! ### A block (R492, R493) -/

/-- A control beat that has left since is among what has left. -/
theorem controlSent_of_suffix {s u t : State} {h : HeadIx} {block : Nat} {new : List Out} (hsu : s.out <:+ u.out)
    (hut : (u.sendControl h block).out <:+ t.out) (hnew : t.out = new ++ s.out) : ControlSent new h block := by
  obtain ⟨before, hbefore⟩ := hsu
  obtain ⟨since, hsince⟩ := hut
  obtain ⟨sent, hbeat⟩ : ∃ sent, (u.sendControl h block).out =
      .beat h headerControl (List.replicate 32 (BitVec.ofNat 64 block)) sent :: u.out :=
    ⟨_, by unfold State.sendControl State.sendBeat; simp only [Vector.toList_replicate]; rfl⟩
  have hall : new = since ++ .beat h headerControl (List.replicate 32 (BitVec.ofNat 64 block)) sent :: before := by
    refine List.append_cancel_right (bs := s.out) ?_
    rw [← hnew, ← hsince, hbeat, ← hbefore, List.append_assoc, List.cons_append]
  exact ⟨sent, hall ▸ List.mem_append_right _ (List.mem_cons_self ..)⟩

/-- The plane side of a head whose block's strobe has been announced. -/
def Pln.blockDone (p : Pln) (block : Nat) : Pln := { p with loadBlk := block + 1, strobes := p.strobes ++ [block] }

/-- What ends a block: its PHASE_STROBE, and IDLE after the last one. -/
def State.endBlock (s : State) (h : HeadIx) (block q : Nat) : State :=
  let t := (s.sendControl h (phaseStrobe block q)).modPln h (fun p => p.blockDone block)
  if block + 1 = t.pN P.PLN_BLOCKS h.1 then t.sendIdle h else t

theorem State.endBlock_sansLink {s u : State} {h : HeadIx} (hu : u.sansLink h = s.sansLink h) (block q : Nat) :
    (u.endBlock h block q).sansLink h = (s.modPln h (fun p => p.blockDone block)).sansLink h := by
  have hdone := State.modPln_sansLink ((u.sendControl_linkSent h (phaseStrobe block q)).rest.trans hu)
    (f := fun p => p.blockDone block) (fun _ => rfl)
  unfold State.endBlock
  dsimp only
  split
  · exact (State.sendIdle_linkSent _ h).rest.trans hdone
  · exact hdone

theorem State.endBlock_out (u : State) (h : HeadIx) (block q : Nat) :
    (u.sendControl h (phaseStrobe block q)).out <:+ (u.endBlock h block q).out := by
  have hidle := (State.sendIdle_linkSent ((u.sendControl h (phaseStrobe block q)).modPln h (fun p => p.blockDone block)) h).out
  unfold State.endBlock
  dsimp only
  split
  · exact hidle
  · exact List.suffix_rfl

/-- Two states agree on memory, on the fault log and on the messages. -/
def State.SameStores (s t : State) : Prop := t.mem = s.mem ∧ t.flt = s.flt ∧ t.acm = s.acm

theorem State.sendControl_sameStores (s : State) (h : HeadIx) (block : Nat) : s.SameStores (s.sendControl h block) :=
  ⟨rfl, rfl, rfl⟩

theorem State.sendIdle_sameStores (s : State) (h : HeadIx) : s.SameStores (s.sendIdle h) := ⟨rfl, rfl, rfl⟩

/-- The end of a block writes none of them. -/
theorem State.endBlock_sameStores (u : State) (h : HeadIx) (block q : Nat) : u.SameStores (u.endBlock h block q) := by
  have hidle := State.sendIdle_sameStores ((u.sendControl h (phaseStrobe block q)).modPln h (fun p => p.blockDone block)) h
  have hcontrol := u.sendControl_sameStores h (phaseStrobe block q)
  unfold State.endBlock
  dsimp only
  split
  · exact hidle
  · exact hcontrol

/-- A block of a slot that is not DARK: its control beat and its rows. -/
def State.blockSent (s : State) (h : HeadIx) (x : Slot) (block q : Nat) : State :=
  let r0 := blockRow s.par.active h.1 block
  let n := blockRow s.par.active h.1 (block + 1) - r0
  let r := (s.sendControl h (blockLoad block q r0 n)).sendRows h x r0 n
  r.1.sendData h (r.2 ++ zeros (256 * blockBeats s.par.active h.1 block - r.2.length))

theorem State.blockSent_linkSent (s : State) (h : HeadIx) (x : Slot) (block q : Nat) :
    let first := blockRow s.par.active h.1 block
    (s.sendControl h (blockLoad block q first (blockRow s.par.active h.1 (block + 1) - first))).LinkSent
      (s.blockSent h x block q) h :=
  (State.sendRows_linkSent ..).trans (State.sendData_linkSent ..)

/-- What stands before the end of the block that loads: a DARK slot clears the array before its first block. -/
def State.blockBegun (s : State) (h : HeadIx) (x : Slot) (block q : Nat) : State :=
  if x.dark then (if block = 0 then s.sendControl h (arrayClear q) else s) else s.blockSent h x block q

theorem State.blockBegun_linkSent (s : State) (h : HeadIx) (x : Slot) (block q : Nat) :
    s.LinkSent (s.blockBegun h x block q) h := by
  unfold State.blockBegun
  split
  · split
    · exact s.sendControl_linkSent h _
    · exact .refl s h
  · exact (s.sendControl_linkSent h _).trans (s.blockSent_linkSent h x block q)

theorem exec_planeBlockLoad {s : State} {h : HeadIx} {q block : Nat} (hq : (s.pln[h]).loadSlot = some q)
    (hb : block = (s.pln[h]).loadBlk) (hn : block < s.pN P.PLN_BLOCKS h.1) :
    exec (.planeBlockLoad h block) s =
      .next ((s.blockBegun h ((slotsOf (s.pln[h]).loading.sched).getD q ⟨true, 0, 0, 0⟩) block q).endBlock h block q) := by
  have hnow : ¬ (block ≠ (s.pln[h]).loadBlk ∨ s.pN P.PLN_BLOCKS h.1 ≤ block) := by omega
  show execPlaneBlockLoad h block s = _
  unfold execPlaneBlockLoad
  have hphase (u : State) : (u.sendPhase h block q).modPln h (fun p => { p with loadBlk := block + 1 }) =
      (u.sendControl h (phaseStrobe block q)).modPln h (fun p => p.blockDone block) := by
    unfold State.sendPhase
    simp only [State.modPln, vmod_vmod]
    rfl
  simp only [hq, if_neg hnow, hphase]
  unfold State.endBlock State.blockBegun State.blockSent
  rfl

/-- The block that is next in the slot that loads is sent, with its PHASE_STROBE. -/
theorem planeBlockLoad_sends {s : State} {h : HeadIx} {q block : Nat} (hq : (s.pln[h]).loadSlot = some q)
    (hb : block = (s.pln[h]).loadBlk) (hn : block < s.pN P.PLN_BLOCKS h.1) :
    ∃ t new, exec (.planeBlockLoad h block) s = .next t ∧ t.out = new ++ s.out ∧ ControlSent new h (phaseStrobe block q) ∧
      t = { s with free := t.free, mem := t.mem, surf := t.surf, acm := t.acm, pln := t.pln, flt := t.flt, out := t.out } ∧
      (t.pln[h]).loadBlk = block + 1 ∧ (t.pln[h]).loadSlot = some q ∧ (t.pln[h]).strobes = (s.pln[h]).strobes ++ [block] ∧
      (∀ k : HeadIx, k ≠ h → t.pln[k] = s.pln[k]) ∧ (∀ a, memGet t.mem.normal a = memGet s.mem.normal a) ∧
      (((slotsOf (s.pln[h]).loading.sched).getD q ⟨true, 0, 0, 0⟩).dark = true → t.mem = s.mem ∧ t.flt = s.flt ∧ t.acm = s.acm ∧
        (block = 0 → ControlSent new h (arrayClear q))) ∧
      (((slotsOf (s.pln[h]).loading.sched).getD q ⟨true, 0, 0, 0⟩).dark = false →
        ControlSent new h (blockLoad block q (blockRow s.par.active h.1 block)
          (blockRow s.par.active h.1 (block + 1) - blockRow s.par.active h.1 block))) := by
  have hexec := exec_planeBlockLoad hq hb hn
  generalize (slotsOf (s.pln[h]).loading.sched).getD q ⟨true, 0, 0, 0⟩ = x at hexec ⊢
  have hbegun := s.blockBegun_linkSent h x block q
  have hend := State.endBlock_sansLink hbegun.rest block q
  have hframe := State.eq_of_sansLink hend
  have hphase := State.endBlock_out (s.blockBegun h x block q) h block q
  have hdone : ((State.endBlock (s.blockBegun h x block q) h block q).pln[h]).sansLink = ((s.pln[h]).blockDone block).sansLink := by
    rw [State.sansLink_same hend, State.modPln_pln, vmod_same]
  have hsince : (s.blockBegun h x block q).out <:+ (State.endBlock (s.blockBegun h x block q) h block q).out :=
    (State.sendControl_linkSent _ h _).out.trans hphase
  obtain ⟨new, hnew⟩ := hbegun.out.trans hsince
  refine ⟨_, new, hexec, hnew.symm, controlSent_of_suffix hbegun.out hphase hnew.symm, hframe,
    congrArg Pln.loadBlk hdone, (congrArg Pln.loadSlot hdone).trans hq, congrArg Pln.strobes hdone, fun k hk => ?_,
    fun a => by rw [State.sansLink_normal hend]; rfl, fun hdark => ?_, fun hlit => ?_⟩
  · rw [State.sansLink_other hend hk, State.modPln_pln, vmod_other _ _ hk]
  · have hkept : s.SameStores (s.blockBegun h x block q) := by
      unfold State.blockBegun
      rw [if_pos hdark]
      split
      · exact s.sendControl_sameStores h _
      · exact ⟨rfl, rfl, rfl⟩
    obtain ⟨hmem, hflt, hacm⟩ := State.endBlock_sameStores (s.blockBegun h x block q) h block q
    obtain ⟨hmem', hflt', hacm'⟩ := hkept
    refine ⟨hmem.trans hmem', hflt.trans hflt', hacm.trans hacm', fun hfirst => ?_⟩
    have hclear : s.blockBegun h x block q = s.sendControl h (arrayClear q) := by
      unfold State.blockBegun
      rw [if_pos hdark, if_pos hfirst]
    exact controlSent_of_suffix List.suffix_rfl (hclear ▸ hsince) hnew.symm
  · have hrows : s.blockBegun h x block q = s.blockSent h x block q := by
      unfold State.blockBegun
      rw [if_neg (by rw [hlit]; exact Bool.false_ne_true)]
    have hload := (s.blockSent_linkSent h x block q).out
    exact controlSent_of_suffix List.suffix_rfl (hload.trans (hrows ▸ hsince)) hnew.symm

end Sys2Proof.Machine
end

section
/-! PROOF. A slot boundary: the loaded slot is strobed and shown, a lost ready signal blanks the head, and the next slot loads
or the schedule has ended (09 R474, R481, R493, R500). -/

namespace Sys2Proof.Machine

/-! ### The slot is shown and strobed -/

/-- Sending one thing for each entry of a list puts them before what has left. -/
theorem State.emit_foldl {α : Type} (g : α → Out) (l : List α) (s : State) :
    l.foldl (fun s a => s.emit (g a)) s = { s with out := (l.map g).reverse ++ s.out } := by
  induction l generalizing s with
  | nil => rfl
  | cons a r ih =>
    rw [List.foldl_cons, ih]
    simp

/-- The duration of the slot shown, of the schedule shown. -/
def State.shownDur (s : State) (h : HeadIx) : Nat :=
  ((usesOf s.par.active h.1 (s.pln[h]).shown.sched (2 ^ 31)).getD ((s.pln[h]).slot.getD 0) ⟨⟨true, 0, 0, 0⟩, 0, 0, 0, 0⟩).d

/-- The plane side of a head at the boundary of the slot `q` that has loaded, `d` after the one before. -/
def Pln.atBoundary (p : Pln) (q d : Nat) : Pln :=
  let p := if q = 0 then { p with shown := p.loading, sigmaPs := p.lambdaPs } else { p with sigmaPs := p.sigmaPs + 2500 * d }
  { p with slot := some q, emitted := false, dark := p.darkNext, loadSlot := none }

theorem Pln.atBoundary_frame (p : Pln) (q d : Nat) :
    p.atBoundary q d = { p with
      shown := (p.atBoundary q d).shown, sigmaPs := (p.atBoundary q d).sigmaPs
      slot := some q, emitted := false, dark := p.darkNext, loadSlot := none } := by
  unfold Pln.atBoundary
  dsimp only
  split <;> rfl

theorem Pln.atBoundary_losing (p : Pln) (q d : Nat) : (p.atBoundary q d).losing = p.losing := by
  rw [Pln.atBoundary_frame]

theorem Pln.atBoundary_later (p : Pln) {q : Nat} (hq : q ≠ 0) (d : Nat) :
    (p.atBoundary q d).shown = p.shown ∧ (p.atBoundary q d).sigmaPs = p.sigmaPs + 2500 * d := by
  unfold Pln.atBoundary
  dsimp only
  rw [if_neg hq]
  exact ⟨rfl, rfl⟩

/-- The strobes of a slot, by the instant of its boundary. -/
def State.strobesOf (s : State) (h : HeadIx) (p : Pln) : List Out :=
  p.strobes.map (fun b => Out.strobe h b (some (p.sigmaPs / 2500 + b * s.pN P.PLN_TPHASE h.1)))

theorem State.strobeSlot_eq (s : State) (h : HeadIx) :
    s.strobeSlot h = { s with
      pln := vmod s.pln h (fun p => { p with strobes := [] }), out := (s.strobesOf h s.pln[h]).reverse ++ s.out } := by
  unfold State.strobeSlot
  dsimp only
  rw [State.emit_foldl]
  rfl

/-- A head that has lost its ready signal is blank from here. -/
def State.lossTaken (s : State) (h : HeadIx) : State :=
  if (s.pln[h]).losing then
    ((s.modHead h (fun x => { x with wait := true })).modPln h (fun p => { p with losing := false })).settle
  else s

theorem State.lossTaken_frame (s : State) (h : HeadIx) :
    s.lossTaken h = { s with
      head := vmod s.head h (fun x => { x with wait := x.wait || (s.pln[h]).losing })
      pln := vmod s.pln h (fun p => { p with losing := false })
      em := (s.lossTaken h).em, tch := (s.lossTaken h).tch, bly := (s.lossTaken h).bly } := by
  unfold State.lossTaken
  cases hl : (s.pln[h]).losing with
  | true =>
    rw [if_pos rfl, State.settle_frame]
    simp only [Bool.or_true]
    rfl
  | false =>
    have hhead : vmod s.head h (fun x => { x with wait := x.wait || false }) = s.head :=
      vmod_of_fixed (by simp only [Bool.or_false])
    have hpln : vmod s.pln h (fun p => { p with losing := false }) = s.pln := vmod_of_fixed (by rw [← hl])
    rw [if_neg Bool.false_ne_true, hhead, hpln]

/-- The state with slot `q` shown and strobed, and a lost ready signal taken. -/
def State.slotShown (s : State) (h : HeadIx) (q : Nat) : State :=
  ((s.modPln h (fun p => p.atBoundary q (s.shownDur h))).strobeSlot h).lossTaken h

/-- The plane side of a head whose slot `q` has just been shown. -/
def Pln.justShown (p : Pln) (q d : Nat) : Pln := { p.atBoundary q d with strobes := [], losing := false }

theorem Pln.justShown_fields (p : Pln) (q d : Nat) :
    (p.justShown q d).slot = some q ∧ (p.justShown q d).emitted = false ∧ (p.justShown q d).dark = p.darkNext ∧
      (p.justShown q d).strobes = [] ∧ (p.justShown q d).loadSlot = none := by
  unfold Pln.justShown
  rw [Pln.atBoundary_frame]
  exact ⟨rfl, rfl, rfl, rfl, rfl⟩

theorem State.slotShown_frame (s : State) (h : HeadIx) (q : Nat) :
    s.slotShown h q = { s with
      head := vmod s.head h (fun x => { x with wait := x.wait || (s.pln[h]).losing })
      pln := vmod s.pln h (fun p => p.justShown q (s.shownDur h))
      em := (s.slotShown h q).em, tch := (s.slotShown h q).tch, bly := (s.slotShown h q).bly
      out := (s.strobesOf h ((s.pln[h]).atBoundary q (s.shownDur h))).reverse ++ s.out } := by
  have hlost := State.lossTaken_frame ((s.modPln h (fun p => p.atBoundary q (s.shownDur h))).strobeSlot h) h
  have hshown : ((s.modPln h (fun p => p.atBoundary q (s.shownDur h))).strobeSlot h).lossTaken h = s.slotShown h q := rfl
  rw [hshown, State.strobeSlot_eq] at hlost
  refine hlost.trans ?_
  simp only [State.modPln_pln, State.modPln_head, State.modPln_out, vmod_vmod, vmod_same, Pln.atBoundary_losing]
  rfl

theorem exec_planeSlotBoundary {s : State} {h : HeadIx} {q : Nat} (hq : (s.pln[h]).loadSlot = some q) (hr : s.running h = true)
    (hn : s.pN P.PLN_BLOCKS h.1 ≤ (s.pln[h]).loadBlk) :
    exec (.planeSlotBoundary h) s =
      let u := s.slotShown h q
      if q + 1 = (slotsOf (s.pln[h]).loading.sched).length then
        .next ((u.modHead h (fun x => { x with sobNs := (u.pln[h]).sigmaPs / 1000 })).headEvent h evSob (u.pln[h]).boundaryPs)
      else .next (u.beginLoads h (q + 1)) := by
  have hloaded : Nat.blt (s.pln[h]).loadBlk (s.pN P.PLN_BLOCKS h.1) = false := by
    rw [Bool.eq_false_iff, ne_eq, Nat.blt_eq]
    exact Nat.not_lt.mpr hn
  show execPlaneSlotBoundary h s = _
  unfold execPlaneSlotBoundary
  simp only [hq, hr, hloaded, Bool.not_true, Bool.or_self, Bool.false_eq_true, if_false]
  rfl

/-! ### What a boundary leaves -/

/-- The plane side of a head less what beginning the loads of a slot writes. -/
def Pln.sansLoading (p : Pln) : Pln :=
  { p with loadSlot := none, loadBlk := 0, darkNext := false, crc := 0, src := [], underruns := 0 }

/-- The state less what a slot boundary may change. -/
def State.sansBoundary (s : State) : State :=
  { s.sansLoads with em := State.reset.em, tch := State.reset.tch, bly := State.reset.bly }

theorem State.eq_of_sansBoundary {s t : State} (h : t.sansBoundary = s.sansBoundary) :
    t = { s with head := t.head, pln := t.pln, em := t.em, tch := t.tch, bly := t.bly, gpio := t.gpio, out := t.out } := by
  cases s; cases t; simp_all [State.sansBoundary, State.sansLoads]

theorem State.sansBoundary_of_sansLoads {s t : State} (h : t.sansLoads = s.sansLoads) : t.sansBoundary = s.sansBoundary :=
  congrArg (fun u : State => { u with em := State.reset.em, tch := State.reset.tch, bly := State.reset.bly }) h

/-- Slot `q` is shown and strobed, whatever loads after it. -/
structure State.SlotTurned (s t : State) (h : HeadIx) (q : Nat) : Prop where
  frame   : t.sansBoundary = s.sansBoundary
  pln     : (t.pln[h]).sansLoading = ((s.pln[h]).justShown q (s.shownDur h)).sansLoading
  wait    : (s.pln[h]).losing = true → (t.head[h]).wait = true
  strobes : ∀ o ∈ s.strobesOf h ((s.pln[h]).atBoundary q (s.shownDur h)), o ∈ t.out
  others  : OtherHeadsKept s t h

theorem State.slotShown_turned (s : State) (h : HeadIx) (q : Nat) : s.SlotTurned (s.slotShown h q) h q := by
  rw [State.slotShown_frame]
  refine ⟨rfl, ?_, fun hl => ?_, fun o ho => ?_, fun k hk => ⟨vmod_other _ _ hk, vmod_other _ _ hk⟩⟩
  · exact congrArg Pln.sansLoading (vmod_same ..)
  · dsimp only
    rw [vmod_same, hl, Bool.or_true]
  · exact List.mem_append_left _ (List.mem_reverse.mpr ho)

/-- A boundary's event and the loads that begin leave it so. -/
theorem State.SlotTurned.of_loads {s u t : State} {h : HeadIx} {q : Nat} (hu : s.SlotTurned u h q)
    (hframe : t.sansLoads = u.sansLoads) (hpln : (t.pln[h]).sansLoading = (u.pln[h]).sansLoading)
    (hwait : (t.head[h]).wait = (u.head[h]).wait) (hout : ∀ o ∈ u.out, o ∈ t.out) (hothers : OtherHeadsKept u t h) :
    s.SlotTurned t h q where
  frame := (State.sansBoundary_of_sansLoads hframe).trans hu.frame
  pln := hpln.trans hu.pln
  wait := fun hl => hwait.trans (hu.wait hl)
  strobes := fun o ho => hout o (hu.strobes o ho)
  others := fun k hk => ⟨(hothers k hk).1.trans (hu.others k hk).1, (hothers k hk).2.trans (hu.others k hk).2⟩

/-- The boundary of the last slot is an event of its head. -/
def State.scheduleEnd (s : State) (h : HeadIx) : State :=
  (s.modHead h (fun x => { x with sobNs := (s.pln[h]).sigmaPs / 1000 })).headEvent h evSob (s.pln[h]).boundaryPs

theorem State.scheduleEnd_turned {s u : State} {h : HeadIx} {q : Nat} (hu : s.SlotTurned u h q)
    (hslot : (u.pln[h]).loadSlot = none) :
    s.SlotTurned (u.scheduleEnd h) h q ∧ ((u.scheduleEnd h).pln[h]).loadSlot = none ∧
      ((u.scheduleEnd h).head[h]).sobNs = ((u.scheduleEnd h).pln[h]).sigmaPs / 1000 := by
  have hout (o : Out) (ho : o ∈ u.out) : o ∈ (u.scheduleEnd h).out := by
    unfold State.scheduleEnd
    exact State.mem_headEvent_out (by exact ho) ..
  have hframe : u.scheduleEnd h = { u with
      head := vmod u.head h (fun x => { x with
        sobNs := (u.pln[h]).sigmaPs / 1000, marks := putMark (stepOf (u.pln[h]).boundaryPs, evSob) x.marks })
      gpio := (u.scheduleEnd h).gpio, out := (u.scheduleEnd h).out } := by
    unfold State.scheduleEnd
    rw [State.headEvent_frame]
    simp only [State.modHead, vmod_vmod]
  generalize u.scheduleEnd h = t at hout hframe ⊢
  have hhead := congrArg State.head hframe
  have hpln : t.pln = u.pln := by rw [hframe]
  refine ⟨hu.of_loads (by rw [hframe]; rfl) (by rw [hpln]) ?_ hout fun k hk => ⟨?_, by rw [hpln]⟩, by rw [hpln, hslot], ?_⟩
  · rw [hhead, vmod_same]
  · rw [hhead, vmod_other _ _ hk]
  · rw [hhead, hpln, vmod_same]

theorem State.beginLoads_turned {s u : State} {h : HeadIx} {q : Nat} (hu : s.SlotTurned u h q) (next : Nat) :
    s.SlotTurned (u.beginLoads h next) h q ∧ ((u.beginLoads h next).pln[h]).loadSlot = some next ∧
      ((u.beginLoads h next).pln[h]).loadBlk = 0 := by
  obtain ⟨hframe, ⟨src, n, hpln⟩, ⟨now, under, marks, hhead⟩, hout⟩ := u.beginLoads_begun h next
  generalize u.beginLoads h next = t at hframe hpln hhead hout ⊢
  have hp : t.pln[h] = (u.pln[h]).loadingFrom next src n := by rw [hpln, vmod_same]
  have hstrobes : (u.pln[h]).strobes = [] := (congrArg Pln.strobes hu.pln :)
  refine ⟨hu.of_loads hframe ?_ ?_ hout fun k hk => ⟨?_, ?_⟩, by rw [hp]; rfl, by rw [hp]; rfl⟩
  · simp only [hp, Pln.loadingFrom, Pln.sansLoading, hstrobes]
  · rw [hhead, vmod_same]; rfl
  · rw [hhead, vmod_other _ _ hk]
  · rw [hpln, vmod_other _ _ hk]

/-- A slot whose blocks are loaded is shown and strobed at its boundary. -/
theorem planeSlotBoundary_shows {s : State} {h : HeadIx} {q : Nat} (hq : (s.pln[h]).loadSlot = some q) (hr : s.running h = true)
    (hn : s.pN P.PLN_BLOCKS h.1 ≤ (s.pln[h]).loadBlk) :
    ∃ t, exec (.planeSlotBoundary h) s = .next t ∧
      t = { s with head := t.head, pln := t.pln, em := t.em, tch := t.tch, bly := t.bly, gpio := t.gpio, out := t.out } ∧
      (t.pln[h]).slot = some q ∧ (t.pln[h]).emitted = false ∧ (t.pln[h]).dark = (s.pln[h]).darkNext ∧
      (∀ b ∈ (s.pln[h]).strobes, Out.strobe h b (some ((t.pln[h]).sigmaPs / 2500 + b * s.pN P.PLN_TPHASE h.1)) ∈ t.out) ∧
      (t.pln[h]).strobes = [] ∧
      (q = 0 → (t.pln[h]).shown = (s.pln[h]).loading ∧ (t.pln[h]).sigmaPs = (s.pln[h]).lambdaPs) ∧
      (q ≠ 0 → (t.pln[h]).shown = (s.pln[h]).shown ∧ (t.pln[h]).sigmaPs = (s.pln[h]).sigmaPs + 2500 * s.shownDur h) ∧
      (q + 1 = (slotsOf (s.pln[h]).loading.sched).length → (t.pln[h]).loadSlot = none ∧
        (t.head[h]).sobNs = (t.pln[h]).sigmaPs / 1000) ∧
      (q + 1 ≠ (slotsOf (s.pln[h]).loading.sched).length → (t.pln[h]).loadSlot = some (q + 1) ∧ (t.pln[h]).loadBlk = 0) ∧
      ((s.pln[h]).losing = true → (t.head[h]).wait = true) ∧ OtherHeadsKept s t h := by
  obtain ⟨hfslot, hfemitted, hfdark, hfstrobes, hfloads⟩ := (s.pln[h]).justShown_fields q (s.shownDur h)
  have hslot : ((s.slotShown h q).pln[h]).loadSlot = none := by
    rw [State.slotShown_frame]
    dsimp only
    rw [vmod_same]
    exact hfloads
  obtain ⟨t, hexec, hturned, hlast, hnext⟩ : ∃ t, exec (.planeSlotBoundary h) s = .next t ∧ s.SlotTurned t h q ∧
      (q + 1 = (slotsOf (s.pln[h]).loading.sched).length → (t.pln[h]).loadSlot = none ∧
        (t.head[h]).sobNs = (t.pln[h]).sigmaPs / 1000) ∧
      (q + 1 ≠ (slotsOf (s.pln[h]).loading.sched).length → (t.pln[h]).loadSlot = some (q + 1) ∧ (t.pln[h]).loadBlk = 0) := by
    have hexec := exec_planeSlotBoundary hq hr hn
    by_cases hend : q + 1 = (slotsOf (s.pln[h]).loading.sched).length
    · obtain ⟨hturned, hend'⟩ := State.scheduleEnd_turned (s.slotShown_turned h q) hslot
      exact ⟨_, hexec.trans (if_pos hend), hturned, fun _ => hend', fun hne => absurd hend hne⟩
    · obtain ⟨hturned, hbegun⟩ := State.beginLoads_turned (s.slotShown_turned h q) (q + 1)
      exact ⟨_, hexec.trans (if_neg hend), hturned, fun he => absurd he hend, fun _ => hbegun⟩
  obtain ⟨hframe, hpln, hwait, hstrobes, hothers⟩ := hturned
  have hsigma : (t.pln[h]).sigmaPs = ((s.pln[h]).atBoundary q (s.shownDur h)).sigmaPs := (congrArg Pln.sigmaPs hpln :)
  have hshown : (t.pln[h]).shown = ((s.pln[h]).atBoundary q (s.shownDur h)).shown := (congrArg Pln.shown hpln :)
  refine ⟨t, hexec, State.eq_of_sansBoundary hframe, (congrArg Pln.slot hpln).trans hfslot,
    (congrArg Pln.emitted hpln).trans hfemitted, (congrArg Pln.dark hpln).trans hfdark, fun b hb => ?_, (congrArg Pln.strobes hpln).trans hfstrobes, fun hz => ?_, fun hz => ?_,
    hlast, hnext, hwait, hothers⟩
  · rw [hsigma]
    refine hstrobes _ (List.mem_map.mpr ⟨b, ?_, rfl⟩)
    rw [Pln.atBoundary_frame]
    exact hb
  · subst hz
    exact ⟨hshown, hsigma⟩
  · obtain ⟨hsame, hlater⟩ := (s.pln[h]).atBoundary_later hz (s.shownDur h)
    exact ⟨hshown.trans hsame, hsigma.trans hlater⟩

end Sys2Proof.Machine
end

section
/-! PROOF. A slot's emission: one pulse on each channel of its group that the solve uses (09 R475, R476; 11 R540, R542, R547). -/

namespace Sys2Proof.Machine

/-! ### The pulses of a slot -/

/-- A channel after its pulse in a slot that begins at `base`: one that the solve does not use stays as it is. -/
def State.slotPulsed (s : State) (h : HeadIx) (base : Nat) (x : Solve) (u : SlotUse) (c : ChanIx) (e : Emit) : Emit :=
  match x.chan c.1 with
  | some cu => e.pulsed (s.pN P.EMT_MAXCODE c.1) base (slotCode cu.peak u.amp) (100 * tX s.par.active h.1) (100 * u.emit)
      ((calOf (bkT s.par.active P.COL_CAL c.1)).gain cu.range)
  | none => e

theorem State.slotPulsed_en (s : State) (h : HeadIx) (base : Nat) (x : Solve) (u : SlotUse) (c : ChanIx) (e : Emit) :
    (s.slotPulsed h base x u c e).en = e.en := by
  unfold State.slotPulsed
  split
  · exact Emit.pulsed_en ..
  · rfl

theorem State.slotPulsed_of_disabled (s : State) (h : HeadIx) (base : Nat) (x : Solve) (u : SlotUse) (c : ChanIx) {e : Emit}
    (he : e.en = none) : s.slotPulsed h base x u c e = e := by
  unfold State.slotPulsed
  split
  · exact Emit.pulsed_of_disabled he ..
  · rfl

/-- An enabled channel that the solve uses loads its other core with its code of the slot (R540, R542), 0 too early (R547). -/
theorem State.slotPulsed_cores (s : State) (h : HeadIx) (base : Nat) {x : Solve} {u : SlotUse} {c : ChanIx} {cu : ChanUse}
    (hc : x.chan c.1 = some cu) {e : Emit} {t : Nat} (he : e.en = some t) (hu : 0 < u.emit) :
    (s.slotPulsed h base x u c e).core = e.core + 1 ∧
      (s.slotPulsed h base x u c e).cores[e.core + 1] = if tooEarly t base (100 * tX s.par.active h.1) = true then 0
        else min (slotCode cu.peak u.amp) (s.pN P.EMT_MAXCODE c.1) := by
  unfold State.slotPulsed
  rw [hc]
  exact Emit.pulsed_cores he _ _ _ _ (by omega) _

/-- The pulses of a slot on the channels of a group. -/
def State.slotPulses (s : State) (h : HeadIx) (base : Nat) (x : Solve) (u : SlotUse) (g : Nat) : State :=
  (chansOf s.par.active h.1 g).foldl (fun t c =>
    match x.chan c.1 with
    | some cu => t.pulse c base (slotCode cu.peak u.amp) (100 * tX s.par.active h.1) (100 * u.emit)
        ((calOf (bkT s.par.active P.COL_CAL c.1)).gain cu.range)
    | none => t) s

theorem State.slotPulses_frame (s : State) (h : HeadIx) (base : Nat) (x : Solve) (u : SlotUse) (g : Nat) :
    s.slotPulses h base x u g =
      { s with em := (s.slotPulses h base x u g).em, out := (s.slotPulses h base x u g).out } := by
  unfold State.slotPulses
  refine foldl_inv (fun t : State => t = { s with em := t.em, out := t.out }) _ (fun t c ht => ?_) _ s rfl
  split
  · rw [State.pulse_frame, ht]
  · exact ht

/-- Every channel of the group, and no other, has its pulse. -/
theorem State.slotPulses_em (s : State) (h : HeadIx) (base : Nat) (x : Solve) (u : SlotUse) (g : Nat) (c : ChanIx) :
    (s.slotPulses h base x u g).em[c] =
      if c ∈ chansOf s.par.active h.1 g then s.slotPulsed h base x u c s.em[c] else s.em[c] := by
  refine foldl_vmod State.em (fun t => t.par = s.par) (F := s.slotPulsed h base x u) (fun t c ht => ?_) (fun t c ht => ?_)
    (chansOf_nodup ..) rfl c
  · split
    · rw [State.pulse_frame]
      exact ht
    · exact ht
  · have hpN : t.pN P.EMT_MAXCODE c.1 = s.pN P.EMT_MAXCODE c.1 := by
      unfold State.pN State.block
      rw [ht]
    unfold State.slotPulsed
    cases x.chan c.1 with
    | some cu =>
      dsimp only
      rw [State.pulse_frame, hpN]
    | none => exact (vmod_of_fixed rfl).symm

/-! ### PLANE_SLOT_EMISSION -/

/-- The use and the group of a slot that pulses: none where it is DARK, dark or blank. -/
def State.slotLit (s : State) (h : HeadIx) (q : Nat) (x : Solve) : Option (SlotUse × Nat) :=
  ((usesOf s.par.active h.1 (s.pln[h]).shown.sched x.dt)[q]?).bind (fun u =>
    (fieldOf s.par.active h.1 ((slotsOf (s.pln[h]).shown.sched).getD q ⟨true, 0, 0, 0⟩).field).bind (fun f =>
      if u.slot.dark || (s.pln[h]).dark || (s.pln[h]).shown.blank then none else some (u, f.1)))

/-- The state with the emission of slot `q` done. -/
def State.slotEmitted (s : State) (h : HeadIx) (q : Nat) (x : Solve) : State :=
  let t := s.modPln h (fun p => { p with emitted := true })
  (s.slotLit h q x).elim t (fun y => t.slotPulses h (s.pln[h]).boundaryPs x y.1 y.2)

theorem exec_planeSlotEmission {s : State} {h : HeadIx} {q : Nat} {x : Solve} (hq : (s.pln[h]).slot = some q)
    (hx : (s.pln[h]).shown.use = some x) (hr : s.running h = true) (he : (s.pln[h]).emitted = false) :
    exec (.planeSlotEmission h) s = .next (s.slotEmitted h q x) := by
  show execPlaneSlotEmission h s = _
  unfold execPlaneSlotEmission State.slotEmitted State.slotLit
  simp only [hq, hx, hr, he, Bool.not_true, Bool.or_self, Bool.false_eq_true, if_false]
  cases (usesOf s.par.active h.1 (s.pln[h]).shown.sched x.dt)[q]? with
  | none => rfl
  | some u =>
    cases fieldOf s.par.active h.1 ((slotsOf (s.pln[h]).shown.sched).getD q ⟨true, 0, 0, 0⟩).field with
    | none => rfl
    | some f =>
      dsimp only [Option.bind_some]
      split <;> rfl

/-- A slot emits once. -/
theorem exec_planeSlotEmission_again {s : State} {h : HeadIx} {q : Nat} {x : Solve} (hq : (s.pln[h]).slot = some q)
    (hx : (s.pln[h]).shown.use = some x) (he : (s.pln[h]).emitted = true) : exec (.planeSlotEmission h) s = .next s := by
  show execPlaneSlotEmission h s = _
  unfold execPlaneSlotEmission
  simp only [hq, hx, he, Bool.true_or, if_true]

/-- A slot that pulses nothing leaves the channels and sends nothing. -/
theorem State.slotEmitted_dark {s : State} {h : HeadIx} {q : Nat} {x : Solve} (hl : s.slotLit h q x = none) :
    s.slotEmitted h q x = s.modPln h (fun p => { p with emitted := true }) := by
  unfold State.slotEmitted
  rw [hl]
  rfl

theorem State.slotEmitted_frame (s : State) (h : HeadIx) (q : Nat) (x : Solve) :
    s.slotEmitted h q x = { s with
      pln := vmod s.pln h (fun p => { p with emitted := true })
      em := (s.slotEmitted h q x).em, out := (s.slotEmitted h q x).out } := by
  cases hl : s.slotLit h q x with
  | none => rw [State.slotEmitted_dark hl]; rfl
  | some y =>
    unfold State.slotEmitted
    rw [hl, Option.elim_some, State.slotPulses_frame]
    rfl

/-- The channels of a slot that pulses. -/
theorem State.slotEmitted_em {s : State} {h : HeadIx} {q : Nat} {x : Solve} {u : SlotUse} {g : Nat}
    (hl : s.slotLit h q x = some (u, g)) (c : ChanIx) :
    (s.slotEmitted h q x).em[c] =
      if c ∈ chansOf s.par.active h.1 g then s.slotPulsed h (s.pln[h]).boundaryPs x u c s.em[c] else s.em[c] := by
  unfold State.slotEmitted
  rw [hl, Option.elim_some, State.slotPulses_em]
  rfl

theorem State.slotLit_eq {s : State} {h : HeadIx} {q : Nat} {x : Solve} {u : SlotUse} {g n : Nat}
    (hu : (usesOf s.par.active h.1 (s.pln[h]).shown.sched x.dt)[q]? = some u)
    (hf : fieldOf s.par.active h.1 ((slotsOf (s.pln[h]).shown.sched).getD q ⟨true, 0, 0, 0⟩).field = some (g, n)) :
    s.slotLit h q x = if u.slot.dark || (s.pln[h]).dark || (s.pln[h]).shown.blank then none else some (u, g) := by
  unfold State.slotLit
  rw [hu, Option.bind_some, hf, Option.bind_some]

/-- In a blank head frame or a dark slot nothing pulses. -/
theorem State.slotLit_blank {s : State} {h : HeadIx} (q : Nat) (x : Solve)
    (hdark : (s.pln[h]).shown.blank = true ∨ (s.pln[h]).dark = true) : s.slotLit h q x = none := by
  have hoff (u : SlotUse) : (u.slot.dark || (s.pln[h]).dark || (s.pln[h]).shown.blank) = true := by
    rcases hdark with hd | hd <;> simp only [hd, Bool.or_true, Bool.true_or]
  unfold State.slotLit
  simp only [hoff, if_true, Option.bind_fun_none]

/-- The emission of a slot, on the channels of its group. -/
theorem planeSlotEmission_pulses {s : State} {h : HeadIx} {q : Nat} {use : Solve} (hq : (s.pln[h]).slot = some q)
    (hx : (s.pln[h]).shown.use = some use) (hr : s.running h = true) (he : (s.pln[h]).emitted = false) :
    ∃ t, exec (.planeSlotEmission h) s = .next t ∧ t = { s with pln := t.pln, em := t.em, out := t.out } ∧
      t.pln[h] = { s.pln[h] with emitted := true } ∧ (∀ k : HeadIx, k ≠ h → t.pln[k] = s.pln[k]) ∧
      (∀ c : ChanIx, (t.em[c]).en = (s.em[c]).en ∧ ((s.em[c]).en = none → t.em[c] = s.em[c])) ∧
      ((s.pln[h]).shown.blank = true ∨ (s.pln[h]).dark = true → t.em = s.em ∧ t.out = s.out) ∧
      ∀ (u : SlotUse) (g n : Nat), (usesOf s.par.active h.1 (s.pln[h]).shown.sched use.dt)[q]? = some u →
        fieldOf s.par.active h.1 ((slotsOf (s.pln[h]).shown.sched).getD q ⟨true, 0, 0, 0⟩).field = some (g, n) →
        (u.slot.dark = true → t.em = s.em ∧ t.out = s.out) ∧
        (∀ c : ChanIx, c ∉ chansOf s.par.active h.1 g → t.em[c] = s.em[c]) ∧
        ∀ (c : ChanIx) (cu : ChanUse) (at_ : Nat), c ∈ chansOf s.par.active h.1 g → use.chan c.1 = some cu →
          (s.em[c]).en = some at_ → 0 < u.emit → u.slot.dark = false → (s.pln[h]).dark = false → (s.pln[h]).shown.blank = false →
          (t.em[c]).core = (s.em[c]).core + 1 ∧
          (t.em[c]).cores[(s.em[c]).core + 1] =
            (if tooEarly at_ (s.pln[h]).boundaryPs (100 * tX s.par.active h.1) = true then 0
             else min (slotCode cu.peak u.amp) (s.pN P.EMT_MAXCODE c.1)) := by
  have hframe := s.slotEmitted_frame h q use
  have hpln : (s.slotEmitted h q use).pln = vmod s.pln h (fun p => { p with emitted := true }) := by rw [hframe]
  have hdark (hl : s.slotLit h q use = none) : (s.slotEmitted h q use).em = s.em ∧ (s.slotEmitted h q use).out = s.out := by
    rw [State.slotEmitted_dark hl]
    exact ⟨rfl, rfl⟩
  refine ⟨_, exec_planeSlotEmission hq hx hr he, ?_, ?_, fun k hk => ?_, fun c => ?_, fun hb => hdark (s.slotLit_blank q use hb),
    fun u g n hu hf => ⟨fun hd => hdark ?_, fun c hc => ?_, fun c cu at_ hc hcu hen hpos hd hp hb => ?_⟩⟩
  · rw [hpln]
    exact hframe
  · rw [hpln, vmod_same]
  · rw [hpln, vmod_other _ _ hk]
  · cases hl : s.slotLit h q use with
    | none =>
      rw [(hdark hl).1]
      exact ⟨rfl, fun _ => rfl⟩
    | some y =>
      rw [State.slotEmitted_em hl]
      split
      · exact ⟨State.slotPulsed_en .., fun hoff => State.slotPulsed_of_disabled _ _ _ _ _ _ hoff⟩
      · exact ⟨rfl, fun _ => rfl⟩
  · rw [State.slotLit_eq hu hf, hd]
    rfl
  · cases hl : s.slotLit h q use with
    | none => rw [(hdark hl).1]
    | some y =>
      have hy : y = (u, g) := by
        rw [State.slotLit_eq hu hf] at hl
        split at hl
        · cases hl
        · exact (Option.some.inj hl).symm
      subst hy
      rw [State.slotEmitted_em hl, if_neg hc]
  · have hl : s.slotLit h q use = some (u, g) := by
      rw [State.slotLit_eq hu hf, hd, hp, hb]
      rfl
    rw [State.slotEmitted_em hl, if_pos hc]
    exact State.slotPulsed_cores s h _ hcu hen hpos

/-! ### The obligation -/

/-- Settles O42: one lemma per command. -/
theorem planeFramesLoad : Obligations.PlaneFramesLoad := by
  refine ⟨fun s h hon hplane hfresh hwaiting hready hruns => ?_,
    fun s h dt hplane hm hon => ⟨fun hdt => ?_, fun hdt hw hslack => ?_⟩, fun s h hw => ?_, fun s h q block hq hb hn => ?_,
    fun s h q hq hr hn => ?_, fun s h q use hq hx hr => ⟨fun he => ?_, fun he => ?_⟩⟩
  · have hd : s.LoadDue h := ⟨hon, hplane, hfresh, hwaiting, hready, hruns⟩
    exact ⟨hd.begins, hd.waits⟩
  · exact syncEdge_counts hplane hm hon hdt
  · exact syncEdge_loads hplane hm hon hw (Nat.not_le.mpr hdt) rfl hslack
  · exact syncMiss_loads hw
  · exact planeBlockLoad_sends hq hb hn
  · exact planeSlotBoundary_shows hq hr hn
  · exact exec_planeSlotEmission_again hq hx he
  · exact planeSlotEmission_pulses hq hx hr he

end Sys2Proof.Machine
end
